-- ==== Sys2Proof/Word.lean ====
section
/-!
DEFINITION. The word types of the KRP-4860 model, the identifiers of its parties, and the operand types of its
commands: what an event or a command brings with it from outside the block. Widths are those of
the spec's notation (R1, R2); a Metronome stamp is a count of nanoseconds (R58, R59) and is a natural number,
because the counter never wraps within the life of the device.
-/

namespace Sys2Proof

/-- One byte. -/
abbrev Byte := BitVec 8
/-- A 32-bit register, vector lane value or mailbox body word. -/
abbrev Word := BitVec 32
/-- A 64-bit packet word, signal word or header. -/
abbrev Dword := BitVec 64
/-- A Metronome value in nanoseconds (R58); it does not wrap (R59). -/
abbrev Stamp := Nat

/-- The two host ports (R138): Port A carries tenants 0-95 and Port B tenants 96-127. -/
inductive PortId where
  | a
  | b
  deriving DecidableEq, Repr

/-- A context, named by its tenant and its index within the tenant. -/
structure CtxId where
  tenant : Nat
  idx : Nat
  deriving DecidableEq, Repr

/-- A queue, named by its context and its number within the context. -/
structure QueueId where
  ctx : CtxId
  q : Nat
  deriving DecidableEq, Repr

/-- A mailbox slot, named by its function and its number (R188, R189). -/
structure SlotId where
  fn : Nat
  slot : Nat
  deriving DecidableEq, Repr

/-- The straps as sampled (R31, R117). -/
structure Straps where
  memHalf : Bool := false
  adminSel : Bool := false
  portbEn : Bool := false
  deriving DecidableEq, Repr

/-- The monitored rails of Table 03-3. -/
inductive Rail where
  | vddCore | vddIsl | vddio18 | vdda18
  deriving DecidableEq, Repr

/-- What steps 4 to 6 of Table 03-8 find: ROM checksum, lockstep of the check and the first self-test, the test
alarm, delay-register parity, and Vat defects within fused repair. -/
structure StartChecks where
  romOk : Bool := true
  lockstepOk : Bool := true
  alarmOk : Bool := true
  delayOk : Bool := true
  vatOk : Bool := true
  deriving DecidableEq, Repr

/-- An error that a function reports under AER (R179), and the class of advisory non-fatal errors. -/
inductive AerKind where
  | completionTimeout
  | unexpectedCompletion
  | poisonedTlp
  | unsupportedRequest
  | malformed
  | ecrc
  | receiverOverflow
  | correctable
  | advisory
  deriving DecidableEq, Repr

/-- A PCIe feature that a capability of a function reports (Table 04-1, R38, R139). -/
inductive PciFeature where
  | extendedTag | tenBitRequester | tenBitCompleter | ari | msix | aer | ecrcGeneration | ecrcCheck | atomicRequester | aspmL1
  | sriov | powerManagement
  | aspmL0s | l1Substates | d3cold | pme | timeoutDisable | atomicCompleter | resizableBar | readiness
  | ats | pri | pasid | tph | hotPlug | intx
  deriving DecidableEq, Repr

/-- A field of a function's configuration space to which the spec gives a value (R38, R138 to R146, R154, R172, R180, R185); `other`
is any other. -/
inductive CfgField where
  | feature (x : PciFeature)
  | intxPin
  | memEnable | busMaster
  | barSize (bar : Nat) | barIs64 (bar : Nat) | barPrefetchable (bar : Nat) | barBase (bar : Nat)
  | vfBarSize (bar : Nat) | vfBarIs64 (bar : Nat) | vfBarPrefetchable (bar : Nat) | vfBarBase (bar : Nat)
  | maxLinkSpeed | maxLinkWidth | linkSpeed | linkWidth
  | maxPayloadSupported | maxPayload | maxReadRequest | tenBitTags
  | timeoutRanges | timeoutValue | atomicEnable | transactionsPending
  | powerState | noSoftReset
  | ariHierarchy | totalVfs | initialVfs | numVfs | firstVfOffset | vfStride | vfEnable
  | msixTableSize | msixTableBir | msixTableOffset | msixPbaBir | msixPbaOffset | msixEnable | functionMask
  | aerMasked (k : AerKind) | aerFatal (k : AerKind) | aerStatus (k : AerKind)
  | correctableReporting | nonFatalReporting | fatalReporting
  | other
  deriving DecidableEq, Repr

/-- A configuration request: a read of a field, or a write of one that has no row of its own (R139, R146, R156, R164 to R171, R180). -/
inductive CfgReq where
  | read (field : CfgField)
  | barBase (bar : Nat) (value : Nat)
  | vfBarBase (bar : Nat) (value : Nat)
  | aerMask (k : AerKind) (on : Bool)
  | aerSeverity (k : AerKind) (fatal : Bool)
  | aerClear (k : AerKind)
  | reporting (correctable nonFatal fatal : Bool)
  | memEnable (on : Bool)
  | busMasterClear
  | msixEnable (on : Bool)
  | functionMask (on : Bool)
  | ctoValue (v : Nat)
  | maxReadRequest (bytes : Nat)
  | maxPayload (bytes : Nat)
  | atomicEnable (on : Bool)
  | tenBitTags (on : Bool)
  | ariHierarchy (on : Bool)
  | other
  deriving DecidableEq, Repr

/-- How a completion for a device request arrives (Table 04-12). -/
inductive CplRx where
  | ok
  | poisoned
  | badStatus
  deriving DecidableEq, Repr

/-- What is wrong with a discarded TLP (Table 04-12). -/
inductive TlpError where
  | malformed | ecrc | overflow
  deriving DecidableEq, Repr

/-- What an ECC check of one sector finds. -/
inductive EccResult where
  | good | corrected | uncorrectable | linkUncorrectable
  deriving DecidableEq, Repr

/-- What a read at a memory NI reads: the fill of an access by its number; the line of a translation table that a walk reads, or of
another Mordant structure; or a zero-map word that the controller reads for an access (R336, R364, Table 07-8). -/
inductive LpddrTarget where
  | access (n : Nat)
  | table (pa : Nat)
  | zeroWord (word n : Nat)
  | structure_ (pa : Nat)
  deriving DecidableEq, Repr

/-- What a check of a line's two tag copies finds (R394, R405). -/
inductive TagCheck where
  | good | corrected | oneLost | bothLost
  deriving DecidableEq, Repr

/-- A fetched shader instruction: the 64-bit base word and the extension word (0 where there is none) (R503). -/
structure Insn where
  base : Dword
  ext : Word := 0#32
  deriving DecidableEq, Repr

/-- A pre-emption: of the lower-ranked groups of one core (R757), or of a queue (R758 to R760). -/
inductive PreemptKind where
  | core (c : Nat)
  | queue (victim : QueueId)
  deriving DecidableEq, Repr

/-- A token of the Mordant's interfaces: 64 data bits, then 8 parity bits, one for each byte (R828). -/
abbrev Token := BitVec 72

/-- What the comparator or a replay finds (R829, R835, R838, Table 19-2): the tokens of A and B on an interface; a replayed token
beside the entry of the log at an index; a delay register with bad parity; a checkpoint store that cannot be read. -/
inductive MismatchKind where
  | tokens (iface : Nat) (a b : Token)
  | replayDiffers (entry : Nat) (token : Token)
  | delayParity
  | checkpointLost
  deriving DecidableEq, Repr

end Sys2Proof
end

