-- ==== Sys2Proof/Syntax.lean ====
section
/-!
DEFINITION. The commands of the KRP-4860 as a block: one constructor per row of spec/opcode_table.json, in its order,
each with the operands that the event or command brings. A stamp operand `t` is the Metronome value of the event at
its NI (R60).
-/

namespace Sys2Proof

/-- The operations and events of the block. -/
inductive Instr where
  /-- REGISTER_WRITE (R3): A host write to a register field with no row of its own stores, sets or clears bits as its access code states. -/
  | registerWrite (fn : Nat) (bar4 : Bool) (off size : Nat) (value : Dword) (ep : Bool) (t : Stamp)
  /-- RESET_N_ASSERT (R885): The pin filter accepts a low level on RESET_N, which causes a power-on reset. -/
  | resetNAssert
  /-- RESET_N_RISE (R128): The rising edge of RESET_N releases the always-on region and the clocked islands and starts the power-on sequence. -/
  | resetNRise (straps : Straps)
  /-- BROWN_OUT (R107): A monitored rail stays below its threshold for its stated duration and causes a power-on reset with cause BROWN_OUT. -/
  | brownOut (rail : Rail)
  /-- BROWN_OUT_RELEASE (R964): Every monitored rail has stayed above its threshold for 1-2 ms, so the device releases itself and starts the power-on sequence from step 2. -/
  | brownOutRelease (straps : Straps)
  /-- METRONOME_LOCK (R95): The Metronome synthesiser locks and the counter starts from 0. The start-up sequence then continues through the ROM check, the self-test, Vat initialisation and route installation. -/
  | metronomeLock (checks : StartChecks)
  /-- METRONOME_LOCK_TIMEOUT (R126): No lock occurs within 200 us of crystal time, so start-up holds with START_STATUS 0x01 and FAULT_N asserted, and lock is retried. -/
  | metronomeLockTimeout
  /-- LPDDR_TRAINING_DONE (R128): LPDDR5X initialisation and training of the channels in service ends, and the Mordant opens the host ports. -/
  | lpddrTrainingDone (failed density2g ranks2 : BitVec 16) (t : Stamp)
  /-- WARM_RESET_COMPLETE (R120): A warm device reset finishes its restart and any retraining. Slots read IDLE, and the slot that carried the order reads DONE. -/
  | warmResetComplete (checks : StartChecks) (failed : BitVec 16) (t : Stamp)
  /-- DOMAIN_IDLE_OFF (R115): At an evaluation every 10 us, a domain under AUTO has been idle for more than IDLE_OFF, so it starts to switch off. -/
  | domainIdleOff (d : Nat) (t : Stamp)
  /-- DOMAIN_WAKE (R109): A switched domain completes its wake with its storage cleared and accepts its first work. -/
  | domainWake (d : Nat) (t : Stamp)
  /-- DOMAIN_OFF_DONE (R111): A drained domain completes its switch-off. -/
  | domainOffDone (d : Nat) (t : Stamp)
  /-- FORCE_OFF_DRAINED (R114): A domain under FORCE_OFF finishes draining, and the Mordant switches it off. -/
  | forceOffDrained (d : Nat) (t : Stamp)
  /-- CRYSTAL_LOSS (R92): No crystal edge arrives for 2 us at the floor point. The Metronome holds, timed actions are suspended and queues stop. -/
  | crystalLoss (t : Stamp)
  /-- CRYSTAL_RETURN (R94): The crystal reference returns and the Metronome resumes counting from its held value. -/
  | crystalReturn
  /-- THERMTRIP (R904): A trip comparator fires at 125 C and latches THERMTRIP_N asserted. -/
  | thermtrip
  /-- SENSOR_REFRESH (R902): At each multiple of 100,000 ns every temperature sensor refreshes its reading. -/
  | sensorRefresh (readings : List (Option Nat)) (t : Stamp)
  /-- GOVERNOR_SAMPLE (R69): At each multiple of 50,000 ns the Governor takes pace and power for the last period and runs its control law. -/
  | governorSample (counts activity : List Nat) (estDone : Bool) (t : Stamp)
  /-- GOVERNOR_OUTPUT (R69): At t + 38.4 us the Governor releases its code, updates the Governor page and starts the SPMI write. -/
  | governorOutput (computed : Bool) (t : Stamp)
  /-- SPMI_FRAME_DONE (R79): The SPMI write frame completes, successfully or with a failure. -/
  | spmiFrameDone (ok : Bool) (t : Stamp)
  /-- GOV_SATURATION (R91): Loss of control has held for more than 100 ms, so Sepia entry starts. -/
  | govSaturation (t : Stamp)
  /-- GOV_FLAG_CLEAR (R99): A W1C write to the Governor page clears sticky flags for both administration functions. -/
  | govFlagClear (fn : Nat) (value : Word) (t : Stamp)
  /-- METRO_LO_READ (R62): A read of METRO_LO captures the 64-bit Metronome value for the function. -/
  | metroLoRead (fn size : Nat) (t : Stamp)
  /-- PERST_ASSERT (R183): The filter accepts an assertion of PERSTx_N, which starts a port reset with forfeit of every tenant of the port. -/
  | perstAssert (p : PortId) (t : Stamp)
  /-- PERST_DEASSERT (R183): PERSTx_N rises and the port begins link training. -/
  | perstDeassert (p : PortId) (t : Stamp)
  /-- DL_DOWN (R184): DL_Down, a received hot reset or Link Disable causes a port reset of that port. -/
  | dlDown (p : PortId) (t : Stamp)
  /-- LINK_UP (R131): A port's link reaches L0 and the port answers configuration requests. -/
  | linkUp (p : PortId) (speed width : Nat) (t : Stamp)
  /-- LINK_RETRAIN (R177): A link retrains without DL_Down, and no tenant state changes. -/
  | linkRetrain (p : PortId) (speed width : Nat) (t : Stamp)
  /-- CONFIG_REQUEST (R131): A configuration request completes with CRS before readiness and normally afterwards. -/
  | configRequest (fn : Nat) (req : CfgReq) (t : Stamp)
  /-- NUMVFS_WRITE (R142): NumVFs stores a value clamped to TotalVFs, only while VF Enable is 0. -/
  | numvfsWrite (p : PortId) (n : Nat) (t : Stamp)
  /-- VF_ENABLE_SET (R186): Setting VF Enable creates the VFs, which answer with CRS until ready. -/
  | vfEnableSet (p : PortId) (t : Stamp)
  /-- VF_READY (R186): A new VF becomes ready and becomes a tenant. -/
  | vfReady (fn : Nat) (t : Stamp)
  /-- VF_ENABLE_CLEAR (R145): Clearing VF Enable applies a tenant reset with forfeit to every VF and returns their allocations. -/
  | vfEnableClear (p : PortId) (t : Stamp)
  /-- FLR_INITIATE (R185): Initiate Function Level Reset quarantines the function's tags and starts its reset. -/
  | flrInitiate (fn : Nat) (t : Stamp)
  /-- FLR_COMPLETE (R185): The FLR completes and the function answers requests normally. -/
  | flrComplete (fn : Nat) (t : Stamp)
  /-- D3HOT_ENTER (R172): A PF placed in D3hot stops its queues at the next packet boundary. -/
  | d3hotEnter (fn : Nat) (t : Stamp)
  /-- D3HOT_EXIT (R172): A PF returning from D3hot to D0 resumes its queues without a reset. -/
  | d3hotExit (fn : Nat) (t : Stamp)
  /-- BUS_MASTER_ENABLE (R171): Setting Bus Master Enable releases held requests and pending vector messages. -/
  | busMasterEnable (fn : Nat) (t : Stamp)
  /-- MSIX_UNMASK (R156): Clearing an MSI-X mask sends one coalesced message for a pending vector. -/
  | msixUnmask (fn : Nat) (vector : Option Nat) (t : Stamp)
  /-- BAR2_READ (R151): A BAR2 read is translated through the aperture context, or faults and returns 0xFF. -/
  | bar2Read (fn off len : Nat) (t : Stamp)
  /-- BAR2_WRITE (R151): A BAR2 write is translated through the aperture context, or faults and is dropped. -/
  | bar2Write (fn off : Nat) (bytes : List Byte) (ep : Bool) (t : Stamp)
  /-- TAG_GRANT (R165): A request waiting for a tag receives one and is issued on the link. -/
  | tagGrant (n tag : Nat) (t : Stamp)
  /-- COMPLETION_RX (R168): A completion for an outstanding device request arrives and is accepted, or is discarded if late. -/
  | completionRx (p : PortId) (tag : Nat) (status : CplRx) (bytes : List Byte) (t : Stamp)
  /-- COMPLETION_TIMEOUT (R168): A request's completion timeout expires, its missing data goes to the consumer as poison and its tag is quarantined. -/
  | completionTimeout (n : Nat) (t : Stamp)
  /-- TAG_QUARANTINE_EXPIRE (R169): A quarantined tag that received no completion returns to the pool at s + 4T. -/
  | tagQuarantineExpire (p : PortId) (tag : Nat) (t : Stamp)
  /-- MALFORMED_TLP (R179): A malformed TLP, an ECRC error or a receiver overflow discards the TLP and records PCIE_PROTOCOL. -/
  | malformedTlp (p : PortId) (kind : TlpError) (header : BitVec 128) (t : Stamp)
  /-- MBX_GO (R193): A write to MBX_GO is accepted, which copies the body and makes the slot BUSY, or is refused. -/
  | mbxGo (slot : SlotId) (value : Word) (t : Stamp)
  /-- MBX_ACK (R197): An ACK matching SEQ moves a DONE or REFUSED slot to STALE. -/
  | mbxAck (slot : SlotId) (value : Word) (t : Stamp)
  /-- NOP (R210): Mailbox command NOP returns ARG1-ARG6 as its results. -/
  | nop (slot : SlotId) (t : Stamp)
  /-- TENANT_INFO (R220): Returns the allocation record of the issuing tenant. -/
  | tenantInfo (slot : SlotId) (t : Stamp)
  /-- CTX_CREATE (R767): Creates a context with a seed and takes its 16 MiB save area from the grant. -/
  | ctxCreate (slot : SlotId) (t : Stamp)
  /-- CTX_DESTROY (R309): Destroys a context, removing its mappings, segments and save area. -/
  | ctxDestroy (slot : SlotId) (t : Stamp)
  /-- CTX_RESET (R133): Resets a context, clearing its queues and in-flight work with forfeit. -/
  | ctxReset (slot : SlotId) (t : Stamp)
  /-- CTX_SET (R210): Sets a context parameter and returns the previous value. -/
  | ctxSet (slot : SlotId) (t : Stamp)
  /-- Q_CREATE (R213): Creates a queue with its kind, priority, doorbell, vector and tail poll. -/
  | qCreate (slot : SlotId) (t : Stamp)
  /-- Q_DESTROY (R291): Destroys a queue, cancelling its fetch, latch, submission and started packets. -/
  | qDestroy (slot : SlotId) (t : Stamp)
  /-- Q_SET (R210): Sets a queue parameter and returns the previous value. -/
  | qSet (slot : SlotId) (t : Stamp)
  /-- MEM_ALLOC (R310): Allocates a memory object in 2 MiB units, marked zero. -/
  | memAlloc (slot : SlotId) (t : Stamp)
  /-- MEM_FREE (R313): Frees an object after sweeping its lines from the Vat. -/
  | memFree (slot : SlotId) (t : Stamp)
  /-- MEM_MAP (R315): Maps pages of an object, of host memory or of a share, all or none. -/
  | memMap (slot : SlotId) (t : Stamp)
  /-- MEM_UNMAP (R317): Unmaps whole pages and invalidates cached translations before DONE. -/
  | memUnmap (slot : SlotId) (t : Stamp)
  /-- SEG_ACQUIRE (R386): Maps the lowest-numbered free scratchpad segments into the context. -/
  | segAcquire (slot : SlotId) (t : Stamp)
  /-- SEG_RELEASE (R387): Releases and zeroes the context's segments in the range. -/
  | segRelease (slot : SlotId) (t : Stamp)
  /-- VAT_MAINT_CLEAN (R378): Writes back every dirty sector of the range. -/
  | vatMaintClean (slot : SlotId) (t : Stamp)
  /-- VAT_MAINT_INVALIDATE (R378): Discards the range's lines without write-back, on pages with W. -/
  | vatMaintInvalidate (slot : SlotId) (t : Stamp)
  /-- VAT_MAINT_CLEAN_INVALIDATE (R378): Writes back and then discards the range's lines. -/
  | vatMaintCleanInvalidate (slot : SlotId) (t : Stamp)
  /-- QUERY_CTX (R282): Writes the 256-byte utilisation record and optionally resets its counters. -/
  | queryCtx (slot : SlotId) (t : Stamp)
  /-- ADM_GRANT (R966): Adds to a tenant's grant of a resource from the port share. -/
  | admGrant (slot : SlotId) (t : Stamp)
  /-- ADM_REVOKE (R214): Removes from a tenant's grant, forfeiting contexts if FORCE is set. -/
  | admRevoke (slot : SlotId) (t : Stamp)
  /-- ADM_TENANT_RESET (R133): Resets a tenant, forfeiting every context it holds. -/
  | admTenantReset (slot : SlotId) (t : Stamp)
  /-- ADM_PART_CFG (R431): Configures a regulator partition, effective at a later window boundary. -/
  | admPartCfg (slot : SlotId) (t : Stamp)
  /-- ADM_SHARE_EXPORT (R215): Exports a share ID for a tenant's object or host memory. -/
  | admShareExport (slot : SlotId) (t : Stamp)
  /-- ADM_SHARE_IMPORT (R215): Imports a share ID for a tenant of the other port. -/
  | admShareImport (slot : SlotId) (t : Stamp)
  /-- ADM_SHARE_REVOKE (R330): Ends a share for both sides and removes importer mappings. -/
  | admShareRevoke (slot : SlotId) (t : Stamp)
  /-- ADM_TENANT_INFO (R220): Returns the allocation record of a named tenant. -/
  | admTenantInfo (slot : SlotId) (t : Stamp)
  /-- ADM_PORT_SHARE (R160): Sets the port shares of a resource, refused if granted resources would be removed. -/
  | admPortShare (slot : SlotId) (t : Stamp)
  /-- GOV_SET (R216): Sets up to three Governor parameters atomically. -/
  | govSet (slot : SlotId) (t : Stamp)
  /-- GOV_GET (R216): Returns the last committed value of a Governor parameter. -/
  | govGet (slot : SlotId) (t : Stamp)
  /-- PWR_POLICY (R217): Records a domain's power policy: AUTO, FORCE_ON or FORCE_OFF. -/
  | pwrPolicy (slot : SlotId) (t : Stamp)
  /-- PWR_IDLE_OFF (R115): Sets IDLE_OFF for a domain class. -/
  | pwrIdleOff (slot : SlotId) (t : Stamp)
  /-- VAT_CONVERT_TO_SCRATCHPAD (R384): Cleans, invalidates and zeroes ways and turns them into segments. -/
  | vatConvertToScratchpad (slot : SlotId) (t : Stamp)
  /-- VAT_CONVERT_TO_CACHE (R384): Returns ways to the cache role with every line invalid. -/
  | vatConvertToCache (slot : SlotId) (t : Stamp)
  /-- CLUSTER_MODE_EXCLUSIVE (R486): Gives clusters to one context, pre-empting other contexts' groups. -/
  | clusterModeExclusive (slot : SlotId) (t : Stamp)
  /-- CLUSTER_MODE_SHARED (R487): Returns clusters to shared mode. -/
  | clusterModeShared (slot : SlotId) (t : Stamp)
  /-- STREAM_CFG (R376): Sets the streaming detector enable and threshold. -/
  | streamCfg (slot : SlotId) (t : Stamp)
  /-- WARM_RESET (R133): Device administrator command that starts a warm device reset. -/
  | warmReset (slot : SlotId) (t : Stamp)
  /-- SEPIA_ENTER (R849): Device administrator command that starts Sepia entry. -/
  | sepiaEnter (slot : SlotId) (t : Stamp)
  /-- COMPOSE_COPY (R857): Copies a source rectangle to a destination in Sepia mode. -/
  | composeCopy (slot : SlotId) (ahead : Bool) (t : Stamp)
  /-- COMPOSE_FILL (R857): Fills a destination rectangle with a constant colour. -/
  | composeFill (slot : SlotId) (ahead : Bool) (t : Stamp)
  /-- COMPOSE_BLEND (R857): Alpha-blends a source rectangle over a destination. -/
  | composeBlend (slot : SlotId) (ahead : Bool) (t : Stamp)
  /-- DB_RING (R261): A doorbell write starts, latches or is ignored according to the queue state, and may open a submission. -/
  | dbRing (fn doorbell : Nat) (t : Stamp)
  /-- LINK_WORD_ARRIVE (R249): A link word read returns and the queue follows LINK, parks on END, re-reads if torn, or raises a chain error. -/
  | linkWordArrive (q : QueueId) (t : Stamp)
  /-- TAIL_POLL (R258): The tail-poll interval of a PARKED queue expires and its link word is re-read. -/
  | tailPoll (q : QueueId) (t : Stamp)
  /-- CHAIN_TORN (R259): After consecutive torn reads of one link word the queue enters ERROR. -/
  | chainTorn (q : QueueId) (t : Stamp)
  /-- DEADLINE_MISS (R266): A submission is still open at its deadline, so MISSED is set and the queue event is sent. -/
  | deadlineMiss (q : QueueId) (t : Stamp)
  /-- NOP_PACKET (R242): Common packet NOP completes at once. -/
  | nopPacket (q : QueueId) (t : Stamp)
  /-- FENCE_WRITE (R243): FENCE with OP WRITE writes VALUE at the word's home after earlier packets complete. -/
  | fenceWrite (q : QueueId) (t : Stamp)
  /-- FENCE_ADD (R243): FENCE with OP ADD adds VALUE modulo 2^64 at the word's home. -/
  | fenceAdd (q : QueueId) (t : Stamp)
  /-- FENCE_MAX (R278): FENCE with OP MAX raises the word to VALUE, by compare-and-swap on host memory. -/
  | fenceMax (q : QueueId) (t : Stamp)
  /-- FENCE_STAMP (R243): FENCE with OP STAMP writes the queue engine's stamp. -/
  | fenceStamp (q : QueueId) (t : Stamp)
  /-- WAIT (R245): WAIT holds later packets until a masked condition on a word holds. -/
  | wait (q : QueueId) (t : Stamp)
  /-- WAIT_REEVALUATE (R246): A write to the word, a tail poll or a doorbell makes a WAIT or SEM_ACQUIRE read and test its word again. -/
  | waitReevaluate (q : QueueId) (t : Stamp)
  /-- WAIT_TIMEOUT (R247): A WAIT or SEM_ACQUIRE timeout expires and the packet ends in error completion. -/
  | waitTimeout (q : QueueId) (t : Stamp)
  /-- SEM_ACQUIRE (R271): Takes a semaphore for the context by compare-and-swap once it is free. -/
  | semAcquire (q : QueueId) (t : Stamp)
  /-- SEM_RELEASE (R272): Frees a held semaphore and increments VALUE. -/
  | semRelease (q : QueueId) (t : Stamp)
  /-- MARKER (R242): Copies VALUE into the Jendon trace stream. -/
  | marker (q : QueueId) (t : Stamp)
  /-- LINES_RESIDENT_SAMPLE (R284): At each multiple of 1 ms the Mordant samples each context's resident Vat lines. -/
  | linesResidentSample (t : Stamp)
  /-- LPDDR_READ (R340): A fill or read request reaches a memory NI and is served from DRAM with ECC correction or poison. -/
  | lpddrRead (what : LpddrTarget) (ecc : List EccResult) (t : Stamp)
  /-- LPDDR_WRITE_BACK (R366): A write-back or write reaches a memory NI and is written with the data mask. -/
  | lpddrWriteBack (n : Nat) (ecc vat : EccResult) (t : Stamp)
  /-- OSC_TRACKING (R342): Every 100 ms each channel runs WCK-to-DQ oscillator tracking. -/
  | oscTracking (ch : Nat) (ok : Bool) (t : Stamp)
  /-- LPDDR_REFRESH (R342): The controller schedules per-bank refresh or RFM on a channel. -/
  | lpddrRefresh (ch : Nat) (rfm : Bool) (t : Stamp)
  /-- VAT_LOAD (R365): A load reaches its home slice and hits or misses, allocating under the quota order. -/
  | vatLoad (n lru : Nat) (ecc : List EccResult) (tags : TagCheck) (t : Stamp)
  /-- VAT_STORE (R365): A store reaches its home slice and writes, merges or writes through. -/
  | vatStore (n lru : Nat) (ecc : List EccResult) (tags : TagCheck) (t : Stamp)
  /-- VAT_ATOMIC (R367): An atomic is performed at the home slice, or by locked read-modify-write at LPDDR. -/
  | vatAtomic (n lru : Nat) (ecc : List EccResult) (tags : TagCheck) (t : Stamp)
  /-- VAT_FILL_RETURN (R365): Fill data returns to the home slice and completes the missing access. -/
  | vatFillReturn (n lru : Nat) (t : Stamp)
  /-- PATROL_SCRUB (R394): The patrol scrubber reads every powered sector once per 1,000 ms window and corrects errors. -/
  | patrolScrub (slice set way : Nat) (ecc : List EccResult) (tags : TagCheck) (t : Stamp)
  /-- ADMISSION_ATTEMPT (R426): A gated request at a client NI uses credit or asks the hub for a grant, and is admitted or held. -/
  | admissionAttempt (n : Nat) (t : Stamp)
  /-- WINDOW_BOUNDARY (R425): A partition window ends. The committed count resets and credit expires. -/
  | windowBoundary (part : Nat) (t : Stamp)
  /-- HELD_REATTEMPT (R429): Held requests are re-attempted after the boundary. -/
  | heldReattempt (ni part : Nat) (t : Stamp)
  /-- FLIT_AGED (R420): A flit that has waited 1,024 steps takes one grant ahead of non-SPINE flits. -/
  | flitAged (k : Nat)
  /-- ROUTER_FLIT_ARRIVE (R442): A flit's SECDED is checked at a router. It is corrected, or marked poison, or its packet is dropped. -/
  | routerFlitArrive (n router flit : Nat) (ecc : EccResult) (grants : Nat) (upset : List Nat) (t : Stamp)
  /-- FABRIC_TIMEOUT (R443): A request has had no response by its timeout, so the source NI delivers poison. -/
  | fabricTimeout (n : Nat) (t : Stamp)
  /-- ROUTE_TABLE_PATROL (R444): Each 10 ms window the Mordant reads every route-table entry and rewrites any with a parity error. -/
  | routeTablePatrol (upset : List (Nat × Nat)) (t : Stamp)
  /-- ROUTE_PARITY_STORM (R445): The 17th parity error in one 1,000 ms window starts Sepia entry. -/
  | routeParityStorm (t : Stamp)
  /-- DISPATCH (R454): Compute packet DISPATCH launches a grid of workgroups. -/
  | dispatch (q : QueueId) (t : Stamp)
  /-- DISPATCH_INDIRECT (R451): Reads the grid from memory and dispatches it. -/
  | dispatchIndirect (q : QueueId) (t : Stamp)
  /-- WORKGROUP_PLACE (R460): The dispatcher places a waiting workgroup on a core where it fits, waking a core if needed. -/
  | workgroupPlace (d core : Nat) (t : Stamp)
  /-- PLACEMENT_RESERVE (R756): The top workgroup has waited more than 100 us, so a core is reserved for it. -/
  | placementReserve (d core : Nat) (t : Stamp)
  /-- PREEMPT_DECISION (R757): Higher-ranked work that fits nowhere decides a pre-emption of lower-ranked victims. -/
  | preemptDecision (q : QueueId) (kind : PreemptKind) (t : Stamp)
  /-- TIME_SLICE_BOUNDARY (R760): At each 1 ms slice boundary, a starved equal-class queue pre-empts the lowest-ranked holder. -/
  | timeSliceBoundary (t : Stamp)
  /-- GROUP_STOP_COMPLETE (R765): A stopping group's accesses and retire tokens have resolved, and its save starts. -/
  | groupStopComplete (slot : Nat) (t : Stamp)
  /-- SAVE_COMPLETE (R771): The save of pre-empted state is written and the core or engine is free. -/
  | saveComplete (q : QueueId) (t : Stamp)
  /-- QUEUE_RESUME (R764): A STOPPED queue is ranked for capacity again and its saved state is restored. -/
  | queueResume (q : QueueId) (t : Stamp)
  /-- RESTORE_COMPLETE (R771): Restored groups issue their first instruction after replay entries are re-issued. -/
  | restoreComplete (wg core : Nat) (lost : Bool) (t : Stamp)
  /-- LOAD_RETURN (R497): Data of a global load, atomic or fetch returns to the core, and poison kills the context. -/
  | loadReturn (slot num : Nat) (t : Stamp)
  /-- FORFEIT_WRITES_PERFORMED (R809): The set's writes are performed, after which the sweep, BROKEN marking, orphaning and release complete the forfeit. -/
  | forfeitWritesPerformed (k : Nat) (t : Stamp)
  /-- NOP_INSTRUCTION (R514): Instruction NOP has no effect. -/
  | nopInstruction (slot : Nat) (w : Insn) (t : Stamp)
  /-- MOV (R514): d = a. -/
  | mov (slot : Nat) (w : Insn) (t : Stamp)
  /-- SEL (R514): d = c ? a : b. -/
  | sel (slot : Nat) (w : Insn) (t : Stamp)
  /-- IADD (R514): Integer add modulo 2^32. -/
  | iadd (slot : Nat) (w : Insn) (t : Stamp)
  /-- ISUB (R514): Integer subtract modulo 2^32. -/
  | isub (slot : Nat) (w : Insn) (t : Stamp)
  /-- IMUL (R514): Low 32 bits of a product. -/
  | imul (slot : Nat) (w : Insn) (t : Stamp)
  /-- IMULHI (R514): High 32 bits of a product. -/
  | imulhi (slot : Nat) (w : Insn) (t : Stamp)
  /-- IMAD (R514): Low 32 bits of a x b + c. -/
  | imad (slot : Nat) (w : Insn) (t : Stamp)
  /-- IMIN (R514): Integer minimum. -/
  | imin (slot : Nat) (w : Insn) (t : Stamp)
  /-- IMAX (R514): Integer maximum. -/
  | imax (slot : Nat) (w : Insn) (t : Stamp)
  /-- AND (R514): Bitwise AND. -/
  | andI (slot : Nat) (w : Insn) (t : Stamp)
  /-- OR (R514): Bitwise OR. -/
  | orI (slot : Nat) (w : Insn) (t : Stamp)
  /-- XOR (R514): Bitwise XOR. -/
  | xorI (slot : Nat) (w : Insn) (t : Stamp)
  /-- NOT (R514): Bitwise NOT. -/
  | notI (slot : Nat) (w : Insn) (t : Stamp)
  /-- SHL (R514): Shift left. -/
  | shl (slot : Nat) (w : Insn) (t : Stamp)
  /-- SHR (R514): Logical shift right. -/
  | shr (slot : Nat) (w : Insn) (t : Stamp)
  /-- SAR (R514): Arithmetic shift right. -/
  | sar (slot : Nat) (w : Insn) (t : Stamp)
  /-- BFE (R514): Bit-field extract. -/
  | bfe (slot : Nat) (w : Insn) (t : Stamp)
  /-- BFI (R514): Bit-field insert. -/
  | bfi (slot : Nat) (w : Insn) (t : Stamp)
  /-- POPC (R514): Population count. -/
  | popc (slot : Nat) (w : Insn) (t : Stamp)
  /-- CLZ (R514): Count leading zeros. -/
  | clz (slot : Nat) (w : Insn) (t : Stamp)
  /-- BREV (R514): Bit reverse. -/
  | brev (slot : Nat) (w : Insn) (t : Stamp)
  /-- ICMP (R514): Integer compare into a predicate or scalar. -/
  | icmp (slot : Nat) (w : Insn) (t : Stamp)
  /-- IADD64 (R514): 64-bit add. -/
  | iadd64 (slot : Nat) (w : Insn) (t : Stamp)
  /-- IMADW (R514): 64-bit multiply-add. -/
  | imadw (slot : Nat) (w : Insn) (t : Stamp)
  /-- FADD (R515): FP32 add. -/
  | fadd (slot : Nat) (w : Insn) (t : Stamp)
  /-- FMUL (R515): FP32 multiply. -/
  | fmul (slot : Nat) (w : Insn) (t : Stamp)
  /-- FFMA (R515): FP32 fused multiply-add. -/
  | ffma (slot : Nat) (w : Insn) (t : Stamp)
  /-- FMIN (R514): FP32 minimumNumber. -/
  | fmin (slot : Nat) (w : Insn) (t : Stamp)
  /-- FMAX (R514): FP32 maximumNumber. -/
  | fmax (slot : Nat) (w : Insn) (t : Stamp)
  /-- FCMP (R513): FP32 compare. -/
  | fcmp (slot : Nat) (w : Insn) (t : Stamp)
  /-- FRCP (R516): Reciprocal within 1 ulp. -/
  | frcp (slot : Nat) (w : Insn) (t : Stamp)
  /-- FRSQ (R516): Reciprocal square root within 1 ulp. -/
  | frsq (slot : Nat) (w : Insn) (t : Stamp)
  /-- FSQRT (R516): Square root within 1 ulp. -/
  | fsqrt (slot : Nat) (w : Insn) (t : Stamp)
  /-- FEXP2 (R516): Base-2 exponential within 2 ulp. -/
  | fexp2 (slot : Nat) (w : Insn) (t : Stamp)
  /-- FLOG2 (R516): Base-2 logarithm within 2 ulp. -/
  | flog2 (slot : Nat) (w : Insn) (t : Stamp)
  /-- FSIN (R516): sin(2 pi a). -/
  | fsin (slot : Nat) (w : Insn) (t : Stamp)
  /-- FCOS (R516): cos(2 pi a). -/
  | fcos (slot : Nat) (w : Insn) (t : Stamp)
  /-- FFRACT (R514): a - floor(a). -/
  | ffract (slot : Nat) (w : Insn) (t : Stamp)
  /-- FRND (R514): Round to an integral FP32 value. -/
  | frnd (slot : Nat) (w : Insn) (t : Stamp)
  /-- HADD2 (R517): FP16x2 add. -/
  | hadd2 (slot : Nat) (w : Insn) (t : Stamp)
  /-- HMUL2 (R517): FP16x2 multiply. -/
  | hmul2 (slot : Nat) (w : Insn) (t : Stamp)
  /-- HFMA2 (R517): FP16x2 fused multiply-add. -/
  | hfma2 (slot : Nat) (w : Insn) (t : Stamp)
  /-- HMIN2 (R517): FP16x2 minimumNumber. -/
  | hmin2 (slot : Nat) (w : Insn) (t : Stamp)
  /-- HMAX2 (R517): FP16x2 maximumNumber. -/
  | hmax2 (slot : Nat) (w : Insn) (t : Stamp)
  /-- HCMP2 (R514): FP16x2 compare into a predicate pair. -/
  | hcmp2 (slot : Nat) (w : Insn) (t : Stamp)
  /-- CVTF (R520): Float-to-float conversion. -/
  | cvtf (slot : Nat) (w : Insn) (t : Stamp)
  /-- CVTFI (R522): Float-to-integer saturating conversion. -/
  | cvtfi (slot : Nat) (w : Insn) (t : Stamp)
  /-- CVTIF (R598): Integer-to-float conversion. -/
  | cvtif (slot : Nat) (w : Insn) (t : Stamp)
  /-- BSCALE (R523): Computes a block's shared scale and escape descriptor. -/
  | bscale (slot : Nat) (w : Insn) (t : Stamp)
  /-- BQUANT (R524): Quantises an element under a scale and escape. -/
  | bquant (slot : Nat) (w : Insn) (t : Stamp)
  /-- BDEQ (R524): Dequantises an element code to FP32. -/
  | bdeq (slot : Nat) (w : Insn) (t : Stamp)
  /-- SHFL (R525): Lane shuffle. -/
  | shfl (slot : Nat) (w : Insn) (t : Stamp)
  /-- READLANE (R525): Reads one lane into a scalar. -/
  | readlane (slot : Nat) (w : Insn) (t : Stamp)
  /-- BALLOT (R514): Mask of executing lanes with c true. -/
  | ballot (slot : Nat) (w : Insn) (t : Stamp)
  /-- REDUCE (R526): Cross-lane reduction. -/
  | reduce (slot : Nat) (w : Insn) (t : Stamp)
  /-- SREAD (R527): Reads a special register, capturing a stamp for STAMP_LO. -/
  | sread (slot : Nat) (w : Insn) (t : Stamp)
  /-- PLOP (R514): Predicate logic operation. -/
  | plop (slot : Nat) (w : Insn) (t : Stamp)
  /-- PMOV (R514): Predicate from the lane bit of a scalar. -/
  | pmov (slot : Nat) (w : Insn) (t : Stamp)
  /-- LD (R528): Global load. -/
  | ld (slot : Nat) (w : Insn) (t : Stamp)
  /-- ST (R529): Global store. -/
  | st (slot : Nat) (w : Insn) (t : Stamp)
  /-- SLD (R529): Scalar global load, once per group. -/
  | sld (slot : Nat) (w : Insn) (t : Stamp)
  /-- LDL (R469): Local-store load. -/
  | ldl (slot : Nat) (w : Insn) (t : Stamp)
  /-- STL (R469): Local-store store. -/
  | stl (slot : Nat) (w : Insn) (t : Stamp)
  /-- LDP (R474): Private load. -/
  | ldp (slot : Nat) (w : Insn) (t : Stamp)
  /-- STP (R474): Private store. -/
  | stp (slot : Nat) (w : Insn) (t : Stamp)
  /-- ATOM (R530): Global atomic. -/
  | atom (slot : Nat) (w : Insn) (t : Stamp)
  /-- ATOML (R530): Local-store atomic. -/
  | atoml (slot : Nat) (w : Insn) (t : Stamp)
  /-- FENCE (R477): Memory fence instruction of the given scope. -/
  | fence (slot : Nat) (w : Insn) (t : Stamp)
  /-- BAR (R481): Workgroup barrier. -/
  | bar (slot : Nat) (w : Insn) (t : Stamp)
  /-- TEX (R532): Filtered texture sample. -/
  | tex (slot : Nat) (w : Insn) (t : Stamp)
  /-- TLD (R532): Unfiltered texel fetch. -/
  | tld (slot : Nat) (w : Insn) (t : Stamp)
  /-- TG4 (R532): Gathers one component of a 2x2 footprint. -/
  | tg4 (slot : Nat) (w : Insn) (t : Stamp)
  /-- TQRY (R532): Texture size and level query. -/
  | tqry (slot : Nat) (w : Insn) (t : Stamp)
  /-- SAMPLER_RETURN (R704): Filtered sampler data returns to the core, with poison substituted. -/
  | samplerReturn (slot num : Nat) (t : Stamp)
  /-- INTERP (R696): Interpolates an attribute at the fragment. -/
  | interp (slot : Nat) (w : Insn) (t : Stamp)
  /-- OUTV (R638): Writes a vertex output slot. -/
  | outv (slot : Nat) (w : Insn) (t : Stamp)
  /-- OUTF (R697): Writes a fragment output. -/
  | outf (slot : Nat) (w : Insn) (t : Stamp)
  /-- DISCARD (R695): Makes executing lanes helpers and clears their coverage. -/
  | discard (slot : Nat) (w : Insn) (t : Stamp)
  /-- BRA (R535): Relative branch of executing lanes. -/
  | bra (slot : Nat) (w : Insn) (t : Stamp)
  /-- BRX (R535): Indirect branch to program base + a. -/
  | brx (slot : Nat) (w : Insn) (t : Stamp)
  /-- CALL (R514): Writes the return offset and branches. -/
  | call (slot : Nat) (w : Insn) (t : Stamp)
  /-- EXIT (R536): Executing lanes exit. -/
  | exit (slot : Nat) (w : Insn) (t : Stamp)
  /-- MARK (R514): Copies a scalar into the trace stream. -/
  | mark (slot : Nat) (w : Insn) (t : Stamp)
  /-- MLOAD (R555): Loads an operand tile into a Madder slot. -/
  | mload (slot : Nat) (w : Insn) (t : Stamp)
  /-- MMA (R557): Accumulator tile += A x B. -/
  | mma (slot : Nat) (w : Insn) (t : Stamp)
  /-- MSTORE (R559): Converts and stores an accumulator tile on commit. -/
  | mstore (slot : Nat) (w : Insn) (t : Stamp)
  /-- MZERO (R559): Sets an accumulator tile to +0. -/
  | mzero (slot : Nat) (w : Insn) (t : Stamp)
  /-- MMAF (R567): Cooperative fragment multiply-accumulate. -/
  | mmaf (slot : Nat) (w : Insn) (t : Stamp)
  /-- MSYNC (R576): Waits for earlier Madder operations and their stores. -/
  | msync (slot : Nat) (w : Insn) (t : Stamp)
  /-- MADDER_HANDOFF (R568): A Madder operation is handed off and staged once a staging entry is free. -/
  | madderHandoff (op : Nat) (t : Stamp)
  /-- RETIRE_COMMIT (R571): A commit token makes a staged result architectural and raises any held fault. -/
  | retireCommit (op : Nat) (ue : Bool) (t : Stamp)
  /-- RETIRE_SQUASH (R572): A squash token discards a staged operation with no architectural effect. -/
  | retireSquash (op : Nat) (t : Stamp)
  /-- MLOAD_DATA_RETURN (R570): MLOAD read data returns and fills a staging slot. -/
  | mloadDataReturn (op : Nat) (t : Stamp)
  /-- MDISPATCH (R561): Matrix packet that dispatches with ACC_TILES and a drive mode. -/
  | mdispatch (q : QueueId) (t : Stamp)
  /-- MDISPATCH_INDIRECT (R561): Indirect matrix dispatch. -/
  | mdispatchIndirect (q : QueueId) (t : Stamp)
  /-- FRAME_BEGIN (R647): Opens a frame if the tile size fits and at least 10 pages are free. -/
  | frameBegin (q : QueueId) (t : Stamp)
  /-- ATTACH (R675): Names one attachment of the open frame. -/
  | attach (q : QueueId) (t : Stamp)
  /-- DRAW (R635): Fetches indices and forms vertex batches for a draw. -/
  | draw (q : QueueId) (t : Stamp)
  /-- DRAW_INDIRECT (R629): Reads draw parameters from memory and draws. -/
  | drawIndirect (q : QueueId) (t : Stamp)
  /-- VERTEX_GROUP_LAUNCH (R637): A vertex thread group is launched for a batch. -/
  | vertexGroupLaunch (q : QueueId) (core : Nat) (t : Stamp)
  /-- BATCH_BIN (R651): A batch whose vertex groups have exited is clipped, culled and binned in order. -/
  | batchBin (q : QueueId) (t : Stamp)
  /-- PUBLISHED_READ_RETURN (R654): A read of PUBLISHED returns and a stalled Binner resumes if pages are free. -/
  | publishedReadReturn (q : QueueId) (t : Stamp)
  /-- BIN_GRACE_EXPIRE (R654): The grace time of a stall expires and a partial render flush starts. -/
  | binGraceExpire (q : QueueId) (t : Stamp)
  /-- PARTIAL_FLUSH_REWIND (R656): After the flush tiles render, bin lines are discarded, FRAME_TAG is raised and binning resumes. -/
  | partialFlushRewind (q : QueueId) (t : Stamp)
  /-- BINNER_YIELD (R659): The Binner writes SAVE and yields at a batch boundary. -/
  | binnerYield (q : QueueId) (t : Stamp)
  /-- FRAME_END (R631): Starts rendering of every tile of the frame. -/
  | frameEnd (q : QueueId) (t : Stamp)
  /-- TILE_ASSIGN (R679): A tile backend with room takes the next tile and runs its load phase. -/
  | tileAssign (q : QueueId) (core : Nat) (t : Stamp)
  /-- FRAGMENT_GROUP_LAUNCH (R693): A closed group of quads launches as a fragment thread group. -/
  | fragmentGroupLaunch (core : Nat) (t : Stamp)
  /-- TILE_FLUSH_DONE (R684): A tile's flush writes are acknowledged and its TILE lines are cleared. -/
  | tileFlushDone (core : Nat) (t : Stamp)
  /-- FRAME_END_COMPLETE (R658): Every tile is flushed, so the status record and RETIRED are written and OPEN is cleared. -/
  | frameEndComplete (q : QueueId) (t : Stamp)
  /-- XFER_COPY (R726): Copies bytes on the named channel. -/
  | xferCopy (q : QueueId) (t : Stamp)
  /-- XFER_COPY2D (R719): Copies rows with pitches. -/
  | xferCopy2d (q : QueueId) (t : Stamp)
  /-- XFER_FILL (R719): Fills the destination with the 8-byte pattern. -/
  | xferFill (q : QueueId) (t : Stamp)
  /-- CHANNEL_ACQUIRE (R716): A freed channel goes to the highest-ranked waiting packet. -/
  | channelAcquire (ch : Nat) (t : Stamp)
  /-- XFER_READ_RETURN (R722): Transfer read data enters the channel's staging buffer. -/
  | xferReadReturn (n : Nat) (bad : List Nat) (t : Stamp)
  /-- XFER_COMPLETION_PULSE (R732): The last write leaves the NI, so the packet completes and the channel frees. -/
  | xferCompletionPulse (ch : Nat) (t : Stamp)
  /-- ERROR_RECORD_STORE (R796): The Mordant stores a record in its destination windows, or drops it where full. -/
  | errorRecordStore (t : Stamp)
  /-- ERR_ACK (R802): Consumes window records up to SEQ v and resets ERR_SEL. -/
  | errAck (fn : Nat) (value : Word) (t : Stamp)
  /-- ERR_SEL (R801): Selects the record that ERR_REC shows. -/
  | errSel (fn : Nat) (value : Word) (ue : Bool) (t : Stamp)
  /-- COMPARATOR_SELFTEST (R830): Each millisecond a test token with one bit inverted is inserted and delay-register parity is checked. -/
  | comparatorSelftest (parityOk : Bool) (t : Stamp)
  /-- SELFTEST_ALARM (R831): The test alarm arrives and the self-test passes. -/
  | selftestAlarm (t : Stamp)
  /-- COMPARATOR_UNVERIFIED (R831): No alarm by t_i + 20 us, so Sepia entry starts. -/
  | comparatorUnverified (t : Stamp)
  /-- LOCKSTEP_MISMATCH (R836): A confirmed mismatch starts a replay, or starts Sepia entry if it is a second mismatch. -/
  | lockstepMismatch (kind : MismatchKind) (t : Stamp)
  /-- REPLAY_COMPLETE (R837): A replay completes and output release continues. -/
  | replayComplete (t : Stamp)
  /-- MORDANT_CHECKPOINT (R833): The Mordant checkpoints at a command end, a forfeit step, 20 us of execution or a full log. -/
  | mordantCheckpoint (t : Stamp)
  /-- SEPIA_ENTRY_COMPLETE (R849): Sepia entry finishes its forfeits and domain switching, and writes SEPIA_ENTERED. -/
  | sepiaEntryComplete (t : Stamp)
  /-- WATCHDOG_HEARTBEAT (R847): Copy A alone writes a heartbeat every 100,000 ns. -/
  | watchdogHeartbeat (t : Stamp)
  /-- WATCHDOG_EXPIRE (R847): No heartbeat for more than 1 ms, so copy A is halted. -/
  | watchdogExpire (t : Stamp)
  /-- EXTEST (R897): JTAG boundary-scan drive of balls while RESET_N is low. -/
  | extest (captured levels : List Bool)
  /-- SAMPLE_PRELOAD (R897): JTAG boundary-scan capture and preload. -/
  | samplePreload (captured levels : List Bool)
  /-- IDCODE (R898): JTAG IDCODE read. -/
  | idcode
  /-- CLAMP (R897): JTAG CLAMP while RESET_N is low. -/
  | clamp
  /-- HIGHZ (R897): JTAG HIGHZ while RESET_N is low. -/
  | highz
  /-- BYPASS (R896): JTAG bypass register. -/
  | bypass
  /-- DAP_ACCESS (R901): Capture-DR loads the oldest trace record. -/
  | dapAccess
  /-- DAP_CTRL (R901): Selects what the trace stream carries, or empties it. -/
  | dapCtrl (value : BitVec 16)
  /-- FUSE_PROG (R899): Blows the selected fuses while RESET_N is low and VPP is good. -/
  | fuseProg (value : BitVec 8) (vpp : Bool)
  /-- FUSE_BLOW_DONE (R899): A fuse blow ends after 100 us and is verified. -/
  | fuseBlowDone (verified : BitVec 2)
  /-- FUSE_READ (R899): Reads fuse states, VPP_OK and PROG_FAIL. -/
  | fuseRead (vpp : Bool)
  /-- TAP_RESET (R912): TRST_N low or Test-Logic-Reset resets the TAP alone. -/
  | tapReset
  /-- I3C_PRIVATE_WRITE (R924): Sets the pointer and writes register bytes. -/
  | i3cPrivateWrite (bytes : List Byte) (t : Stamp)
  /-- I3C_PRIVATE_READ (R925): Captures all 256 register bytes and returns bytes from the pointer. -/
  | i3cPrivateRead (len : Nat) (t : Stamp)
  /-- TEMP_ALERT_WRITE (R926): The new threshold takes effect when byte 0x85 is written in the same transfer, and the TEMP cause is re-armed. -/
  | tempAlertWrite (value : BitVec 16)
  /-- I3C_WARM_RESET_ORDER (R931): 0xC3 at byte 0x80 orders a warm device reset if READY, or during a watchdog halt. -/
  | i3cWarmResetOrder (value : Byte) (t : Stamp)
  /-- IBI_PEND_CLEAR (R935): A W1C write clears pending IBI causes. -/
  | ibiPendClear (value : Byte) (t : Stamp)
  /-- IBI_ACCEPT (R935): The controller accepts an IBI and its data byte. -/
  | ibiAccept
  /-- ENEC (R935): CCC that enables in-band interrupts. -/
  | enec
  /-- DISEC (R939): CCC that disables in-band interrupts. -/
  | disec
  /-- RSTDAA (R945): CCC that removes the dynamic address. -/
  | rstdaa
  /-- ENTDAA (R895): CCC that assigns a dynamic address by arbitration. -/
  | entdaa (addr : Nat)
  /-- SETDASA (R895): CCC that assigns a dynamic address from static address 0x52. -/
  | setdasa (addr : Nat)
  /-- GETPID (R923): CCC that returns the provisional ID. -/
  | getpid
  /-- GETBCR (R923): CCC that returns BCR 0x06. -/
  | getbcr
  /-- GETDCR (R923): CCC that returns DCR 0x00. -/
  | getdcr
  /-- GETSTATUS (R923): CCC that returns the target status. -/
  | getstatus
  /-- VDDA_18_BELOW_1V (R904): VDDA_18 falls below 1.0 V, which releases the THERMTRIP_N latch and loses the brown-out cause flag. -/
  | vdda18Below1v
  /-- WRITE_ACKNOWLEDGE (R477): A write acknowledge for a global or Madder store returns from its home to the issuing NI, which satisfies fences, MSYNC and the sector interlock. -/
  | writeAcknowledge (n : Nat) (t : Stamp)
  /-- LINK_CORRECTABLE_ERROR (R179): A link-level correctable error is logged as Correctable under AER in PF0 and PF1. -/
  | linkCorrectableError (p : PortId)
  /-- UNSUPPORTED_REQUEST (R148): A BAR0 or BAR4 read that is not a naturally aligned 4- or 8-byte access, or a BAR access in D3hot or under FLR, completes with Unsupported Request and is reported under AER. -/
  | unsupportedRequest (fn bar off size : Nat) (write : Bool) (t : Stamp)
  /-- UNKNOWN_CMD (R188): The Mordant starts an accepted command whose code is absent from the catalogue and refuses it with cause UNKNOWN_CMD. -/
  | unknownCmd (slot : SlotId) (t : Stamp)
  /-- BAD_PACKET (R242): The queue engine meets a packet whose type is reserved or not accepted by the queue's kind, or one that crosses its link word, and raises CHAIN_BAD_PACKET. -/
  | badPacket (q : QueueId) (t : Stamp)
  /-- UNDEFINED_OPCODE (R514): A thread group issues an instruction whose opcode is absent from Table 11-4, which raises ILLEGAL_INSTR with reason 0x1 and kills the context. -/
  | undefinedOpcode (slot : Nat) (w : Insn) (t : Stamp)
  deriving DecidableEq, Repr

end Sys2Proof
end

