-- ==== Sys2Proof/Decode.lean ====
section
/-!
DEFINITION. The words that the opcode table spells. No row of the table has a field or a bit pattern: the commands of
this block are events and register accesses, so no word spells one.
-/

namespace Sys2Proof

/-- The command that the low bits of a word spell: none, since the table gives no row any bits.
DESIGN CHOICE, safe: log 1. -/
def decodeTableWord (_nbits _w : Nat) : Option Instr := none

end Sys2Proof
end

