-- ==== Sys2Proof/Machine/Bits.lean ====
section
/-!
DEFINITION. Bit-field, byte-order and table helpers used by every unit: little-endian reading and writing
(R1), bit ranges (R2), tables kept as lists of key and value, and the boundary rule for half-open windows
(R64 to R68).
-/

namespace Sys2Proof.Machine

/-- Bits [hi:lo] of a natural number, as a number (R2). -/
def bitsNat (v hi lo : Nat) : Nat := (v / 2 ^ lo) % 2 ^ (hi + 1 - lo)

/-- Bit n of a natural number (R2). -/
def bitNat (v n : Nat) : Bool := v / 2 ^ n % 2 == 1

/-- Bits [hi:lo] of a bit vector, as a number (R2). -/
def fieldNat {w : Nat} (v : BitVec w) (hi lo : Nat) : Nat := bitsNat v.toNat hi lo

/-- Bit n of a bit vector (R2). -/
def bitOf {w : Nat} (v : BitVec w) (n : Nat) : Bool := v.getLsbD n

/-- A Boolean as the number 0 or 1. -/
def natOfBool (b : Bool) : Nat := if b then 1 else 0

/-- A field value placed at bit `lo` of a register word. -/
def placed (v lo : Nat) : Nat := v * 2 ^ lo

/-- The number that a little-endian list of bytes spells (R1). -/
def leNat : List Byte → Nat
  | [] => 0
  | b :: bs => b.toNat + 256 * leNat bs

/-- The first n little-endian bytes of a number (R1). -/
def leBytes : Nat → Nat → List Byte
  | 0, _ => []
  | n + 1, v => BitVec.ofNat 8 v :: leBytes n (v / 256)

/-- Bytes [off, off+n) of a list as a little-endian number. -/
def fieldAt (bs : List Byte) (off n : Nat) : Nat := leNat ((bs.drop off).take n)

/-- Rounds up to a multiple of m. -/
def alignUp (x m : Nat) : Nat := (x + m - 1) / m * m

/-- A condition first evaluated at t0 has held for more than d at t (R68). -/
def heldMoreThan (t0 t d : Nat) : Bool := decide (t - t0 > d)

/-- The value a table holds for a key. -/
def tblGet {κ ν : Type} [DecidableEq κ] : List (κ × ν) → κ → Option ν
  | [], _ => none
  | (k', v) :: rest, k => if k' = k then some v else tblGet rest k

/-- The value a table holds for a key, or the value every unlisted key has. -/
def tblGetD {κ ν : Type} [DecidableEq κ] (t : List (κ × ν)) (k : κ) (d : ν) : ν := (tblGet t k).getD d

/-- The table with one key set. -/
def tblSet {κ ν : Type} [DecidableEq κ] : List (κ × ν) → κ → ν → List (κ × ν)
  | [], k, v => [(k, v)]
  | (k', v') :: rest, k, v => if k' = k then (k, v) :: rest else (k', v') :: tblSet rest k v

/-- The table with one key removed. -/
def tblErase {κ ν : Type} [DecidableEq κ] (t : List (κ × ν)) (k : κ) : List (κ × ν) :=
  t.filter fun e => e.1 ≠ k

/-- The table with the entry of a listed key changed; an unlisted key stays unlisted. -/
def tblModify {κ ν : Type} [DecidableEq κ] (t : List (κ × ν)) (k : κ) (f : ν → ν) : List (κ × ν) :=
  t.map fun e => if e.1 = k then (e.1, f e.2) else e

/-- The list with one element inserted unless it is there already. -/
def insertOnce {α : Type} [DecidableEq α] (l : List α) (x : α) : List α := if x ∈ l then l else l ++ [x]

/-- The list without an element. -/
def removeAll {α : Type} [DecidableEq α] (l : List α) (x : α) : List α := l.filter fun y => y ≠ x

/-- The least element of a list of numbers by a key, the earliest on a tie. -/
def leastBy {α : Type} (key : α → Nat) : List α → Option α
  | [] => none
  | x :: xs =>
    match leastBy key xs with
    | none => some x
    | some y => if key x ≤ key y then some x else some y

/-- The least number of a list, when there is one. -/
def leastNat (l : List Nat) : Option Nat := leastBy id l

/-- A counter of w bits that stops at its greatest value. -/
def satAdd (w v n : Nat) : Nat := min (v + n) (2 ^ w - 1)

/-- Numbers lo, lo+1, ... of a run of n. -/
def rangeFrom (lo n : Nat) : List Nat := (List.range n).map fun i => lo + i

/-- Set bits of a mask of w bits, in rising order. -/
def maskBits (w m : Nat) : List Nat := (List.range w).filter fun i => bitNat m i

end Sys2Proof.Machine
end

