-- ==== Sys2Proof/Machine/TimeTypes.lean ====
section
/-!
DEFINITION. The state of the Metronome, the Governor and the SPMI voltage command (spec 02), with the reset
values of Tables 02-5 and 02-9.
-/

namespace Sys2Proof.Machine

/-- The Metronome island (R58, R92, R95): its count, whether it has locked and counts, and whether the crystal
reference is lost. -/
structure Metro where
  now : Stamp := 0
  running : Bool := false
  lost : Bool := false
  /-- The reference was lost while the device served, and no warm device reset has completed since (R94). -/
  awaitWarm : Bool := false
  deriving DecidableEq, Repr

/-- The Governor parameters of Table 02-5, in its row order. Q16.16 values are raw 32-bit words. -/
structure GovParams where
  mode : Nat := 0
  vFixed : Word := 0x02EE0000#32
  vLo : Word := 0x02580000#32
  vHi : Word := 0x03840000#32
  dvMax : Word := 0x000A0000#32
  tpTarget : Word := 0x1599999A#32
  powerCap : Word := 0x00280000#32
  kpTp : Word := 0x00001000#32
  kiTp : Word := 0x00000200#32
  kpPc : Word := 0x00040000#32
  kiPc : Word := 0x00008000#32
  pmicEn : Nat := 0
  pmicSid : Nat := 0
  pmicAddr : Nat := 0
  pmicBytes : Nat := 1
  voutOffset : Word := 0#32
  voutStep : Nat := 5000
  codeMax : Nat := 255
  deriving DecidableEq, Repr

/-- The SPMI command that carries a code (Table 02-3). -/
inductive SpmiCmd where
  | registerWrite
  | extendedRegisterWrite (byteCount : Nat)
  deriving DecidableEq, Repr

/-- A write frame on the SPMI bus (R77, R79): target, command, register address and data bytes in order. -/
structure SpmiFrame where
  sid : Nat
  cmd : SpmiCmd
  addr : Nat
  data : List Byte
  deriving DecidableEq, Repr

/-- What the control law carries from one sample to the next (R71, R90): the last voltage, the two integrators,
the loss-of-control episode with the stamp of its first sample, and whether the PMIC
was enabled at the last sample. -/
structure GovLoop where
  vPrev : Word := 0x02EE0000#32
  iPc : Word := 0x02EE0000#32
  iTp : Word := 0x02EE0000#32
  episode : Nat := 0
  episodeStart : Option Stamp := none
  wasEnabled : Bool := false
  deriving DecidableEq, Repr

/-- What one sample yields for the Governor page and the SPMI command (Table 02-4, R85). -/
structure GovSampleResult where
  stamp : Stamp
  satHiNow : Bool
  satLoNow : Bool
  clampNow : Bool
  staleNow : Bool
  tpSel : Bool
  mode : Nat
  pmicEn : Nat
  vout : Word
  pace : Word
  pest : Word
  episode : Nat
  code : Option Nat
  params : GovParams
  deriving DecidableEq, Repr

/-- The Governor page's read-only values as last updated (Table 02-9). -/
structure GovPage where
  satHiNow : Bool := false
  satLoNow : Bool := false
  clampNow : Bool := false
  staleNow : Bool := false
  mode : Nat := 0
  tpSel : Bool := false
  pmicEn : Nat := 0
  vout : Word := 0x02EE0000#32
  pace : Word := 0#32
  pest : Word := 0#32
  sample : Stamp := 0
  episode : Nat := 0
  code : Nat := 0
  deriving DecidableEq, Repr

/-- The Governor: when start-up enabled it (R96); the parameters as they stand after the last commit and those in force, the values that GOV_GET returns
(R216), commits not yet applied (R82), the loop, the sample whose
output is still to come with the loop as it stood before it, the page, the four sticky flags (R74, R89) and the sticky flags set
by the last output with its stamp (R84), the
excluded pace monitors (Table 02-7) and the SPMI frame in flight with its run of failures. -/
structure Gov where
  enabledAt : Option Stamp := none
  committed : GovParams := {}
  got : GovParams := {}
  inForce : GovParams := {}
  commits : List (Stamp × GovParams) := []
  loop : GovLoop := {}
  held : Option (GovLoop × GovSampleResult) := none
  page : GovPage := {}
  satHi : Bool := false
  satLo : Bool := false
  integClamp : Bool := false
  sensorStale : Bool := false
  lastSet : List Nat × Stamp := ([], 0)
  lastSample : Option Stamp := none
  excluded : List Nat := []
  frame : Option SpmiFrame := none
  spmiFailRun : Bool := false
  deriving DecidableEq, Repr

end Sys2Proof.Machine
end

