-- ==== Sys2Proof/Machine/PowerTypes.lean ====
section
/-!
DEFINITION. Start-up, resets in progress, straps, pins, fuses that the device reads, RESET_CAUSE and the 72
switched power domains (spec 03, with the pins and fuses of spec 21).
-/

namespace Sys2Proof.Machine

/-- Where the device stands in the power-on sequence of Table 03-8. -/
inductive StartPhase where
  /-- RESET_N is low: the device is held in power-on reset. -/
  | held
  /-- A brown-out holds the device in power-on reset until it releases itself (R964). -/
  | brownOut
  /-- The self-release came while RESET_N was low; the device waits for RESET_N to rise (R964). -/
  | releasedLow
  /-- Step 3: waiting for the Metronome synthesiser to lock. -/
  | awaitLock
  /-- Step 8: LPDDR5X initialisation and training. -/
  | awaitTraining
  /-- Step 9 complete: the host ports are open. -/
  | opened
  /-- A fatal start-up failure (R126). -/
  | fatal
  deriving DecidableEq, Repr

/-- The state of a switched power domain (R109, R111). -/
inductive DomState where
  | off
  | waking
  | on
  | switchingOff
  deriving DecidableEq, Repr

/-- The policy of a power domain (R112). -/
inductive Policy where
  | auto
  | forceOn
  | forceOff
  deriving DecidableEq, Repr

/-- One switched domain: its state, policy, the stamp since which it has been drained (R115), whether a wake was decided while it
was switching off (R123), when its state last changed and when it changed before that, and whether an idle evaluation decided the
switch-off in progress (R122). -/
structure Domain where
  st : DomState := .off
  policy : Policy := .auto
  idleSince : Option Stamp := none
  wakeAfter : Bool := false
  changedAt : Stamp := 0
  changedBefore : Stamp := 0
  byIdle : Bool := false
  deriving DecidableEq, Repr

/-- The 72 switched domains of Table 03-4 and IDLE_OFF of the six classes, in microseconds (R115). -/
structure Power where
  domains : List Domain := List.replicate 72 {}
  idleOff : List Nat := List.replicate 6 1000
  deriving DecidableEq, Repr

/-- What ordered the warm device reset in progress (R133). -/
inductive WarmCause where
  | admin (slot : SlotId)
  | i3c
  deriving DecidableEq, Repr

/-- A warm device reset in progress: its orderers in the order they came (R119) and whether it found the device
in Sepia mode (R124). -/
structure WarmReset where
  causes : List WarmCause
  wasSepia : Bool
  since : Stamp
  deriving DecidableEq, Repr

/-- Levels and latches of the control pins (spec 21): RESET_N high, the two PERST_N pins high, the strap balls,
the thermal-trip latch (R904), DDR_RESET_N released (low until step 8). -/
structure Pins where
  resetN : Bool := false
  perstA : Bool := true
  perstB : Bool := true
  thermTrip : Bool := false
  ddrReset : Bool := false
  deriving DecidableEq, Repr

/-- Start-up and reset state: the phase, the latched straps, START_STATUS with its channel mask, DEV_CAUSE and
WAS_SEPIA of RESET_CAUSE (Table 03-10), the brown-out flag of R108, the warm reset in progress, the LPDDR5X
channels whose training or last tracking failed (R130), and whether lock has been retried in vain. -/
structure Life where
  phase : StartPhase := .held
  straps : Straps := {}
  pins : Pins := {}
  startStatus : Nat := 0
  devCause : Nat := 0
  wasSepia : Bool := false
  brownFlag : Bool := false
  lockFailed : Bool := false
  warm : Option WarmReset := none
  deriving DecidableEq, Repr

end Sys2Proof.Machine
end

