-- ==== Sys2Proof/Machine/HostTypes.lean ====
section
/-!
DEFINITION. The host ports, the PCIe functions and their registers, the mailboxes, and what the Mordant records
of grants, port shares and shared objects (spec 04, 05). A function is named by its tenant ID (Table 04-2).
-/

namespace Sys2Proof.Machine

/-- One MSI-X table entry; MASK resets to 1. -/
structure MsixEntry where
  addr : Dword := 0#64
  data : Word := 0#32
  mask : Bool := true
  deriving DecidableEq, Repr

/-- Whether a VF exists as a tenant (R144, R186). A PF is always `ready` once its port is. -/
inductive FnPhase where
  | absent
  | enabling
  | ready
  deriving DecidableEq, Repr

/-- What a tenant holds by grant of an administrator (Table 05-11). -/
structure Grant where
  contexts : Nat := 0
  lpddr : Nat := 0
  quota : Nat := 0
  segs : Nat := 0
  parts : BitVec 16 := 0#16
  chans : BitVec 64 := 0#64
  tagLimit : Nat := 32
  deriving DecidableEq, Repr

/-- The AER settings of a function (R180): masked errors, errors of fatal severity, errors logged, and which messages are enabled.
PRESUMED, unsafe: log 57. -/
structure Aer where
  masked : List AerKind := [.advisory]
  fatal : List AerKind := [.malformed, .receiverOverflow]
  status : List AerKind := []
  correctableOn : Bool := false
  nonFatalOn : Bool := false
  fatalOn : Bool := false
  deriving DecidableEq, Repr

/-- One PCIe function: configuration-space fields, MSI-X, BAR0 control registers, FN_CAUSE, the resets and power state it is in, and
its grant. `bars` are the base addresses of BAR0, BAR2 and BAR4; `awaits` are vectors whose message comes after host writes of a
lower number (R157). -/
structure Fn where
  phase : FnPhase := .absent
  flr : Bool := false
  flrForfeited : Bool := false
  resetting : Bool := false
  d3hot : Bool := false
  memEnable : Bool := false
  busMaster : Bool := false
  msixEnable : Bool := false
  msixFnMask : Bool := false
  msix : List (Nat × MsixEntry) := []
  pba : List Nat := []
  awaits : List (Nat × Nat) := []
  bars : List (Nat × Nat) := []
  aer : Aer := {}
  cto : Nat := 0
  mrrs : Nat := 512
  mps : Nat := 128
  atomicEn : Bool := false
  metroCap : Option Stamp := none
  apCtx : Nat := 0
  apEn : Bool := false
  apVaHi : Nat := 0
  apFaultRun : Bool := false
  fnCause : Nat := 0
  grant : Grant := {}
  suspended : Bool := false
  deriving DecidableEq, Repr

/-- One host port (R138, R183, Table 04-14); `vfBars` are the base addresses of the VF BARs in PF1's SR-IOV capability (R146). -/
structure Port where
  present : Bool := false
  linkUp : Bool := false
  perst : Bool := false
  inReset : Bool := false
  speed : Nat := 0
  width : Nat := 0
  downCount : Nat := 0
  downStamp : Stamp := 0
  tenBit : Bool := false
  ari : Bool := false
  vfEnable : Bool := false
  numVfs : Nat := 0
  vfBars : List (Nat × Nat) := []
  deriving DecidableEq, Repr

/-- The error messages of PCIe (R180). -/
inductive ErrLevel where
  | correctable
  | nonFatal
  | fatal
  deriving DecidableEq, Repr

/-- The states of a mailbox slot (Table 05-3). -/
inductive SlotState where
  | idle
  | busy
  | done
  | refused
  | stale
  deriving DecidableEq, Repr

/-- One mailbox slot (Tables 05-1, 05-3): the body registers, the copy taken at GO (R194), the result words,
STATUS and SEQ, the GO stamp that orders its start (R201) and whether its command has started. -/
structure Slot where
  body : List Word := List.replicate 8 0#32
  cmd : List Word := List.replicate 8 0#32
  res : List Word := List.replicate 6 0#32
  st : SlotState := .idle
  cause : Nat := 0
  goLost : Bool := false
  goCause : Nat := 0
  seq : Word := 0#32
  goStamp : Stamp := 0
  started : Bool := false
  /-- For a SEG_RELEASE in progress, the number of the first access that began after it (R387). -/
  mark : Nat := 0
  deriving DecidableEq, Repr

/-- A port's shares of the device-wide resources (Table 04-9), Port A's side; Port B receives the rest. -/
structure PortShares where
  contexts : Nat := 2048
  parts : BitVec 16 := 0xFFFF#16
  chans : BitVec 64 := 0xFFFFFFFFFFFFFFFF#64
  segs : Nat := 64
  quota : Nat := 64
  deriving DecidableEq, Repr

/-- The state of a share ID that is in use (R215, R327). -/
inductive ShareState where
  | half
  | both
  | orphaned
  deriving DecidableEq, Repr

/-- A shared object (R215, R322): the exporter's side and the importer's side, each present once granted, the
exported handle (0 for host memory) and, once an exporter was forfeited, the object kept alive (R328). -/
structure Share where
  st : ShareState
  exporter : Option Nat
  importer : Option Nat
  handle : Nat
  exporterLost : Bool := false
  importerLost : Bool := false
  deriving DecidableEq, Repr

/-- What the Mordant records beside the functions' grants: port shares, shares, and shares that a revoke has ended whose importer's
accesses it still waits for (R330, R350). STREAM_CFG is the Vat's. -/
structure Alloc where
  portA : PortShares := {}
  shares : List (Nat × Share) := []
  revoking : List (Nat × Share) := []
  deriving DecidableEq, Repr

end Sys2Proof.Machine
end

