-- ==== Sys2Proof/Machine/QueueTypes.lean ====
section
/-!
DEFINITION. Contexts, queues, packets in flight and signals waited on (spec 06, with the stop and save
state of spec 17), and a context's translation tables (spec 07).
-/

namespace Sys2Proof.Machine

/-- Page sizes of a leaf (R300, R303). -/
inductive PageSize where
  | p4k
  | p64k
  | p2m
  deriving DecidableEq, Repr

/-- Bytes of a page. -/
def PageSize.bytes : PageSize → Nat
  | .p4k => 0x1000
  | .p64k => 0x10000
  | .p2m => 0x200000

/-- What a leaf maps: TGT with ADDR of Table 07-3. -/
inductive LeafTarget where
  /-- TGT 0: device LPDDR at a physical address. -/
  | device (pa : Nat)
  /-- TGT 1: the owning tenant's host memory at a bus address. -/
  | host (addr : Nat)
  /-- TGT 2: host memory of the exporter of a share. -/
  | shareHost (addr : Nat)
  /-- TGT 3: a scratchpad address. -/
  | scratch (addr : Nat)
  deriving DecidableEq, Repr

/-- One L0 entry, or an L1 entry that is a leaf (R300, R301): the VA that it translates, the size of its page, permissions
(R304), the page's target, and the share. A 64 KiB page is 16 of them (R303). `orphaned` is V = 0 with reason 0b001 (R302,
R329). -/
structure Leaf where
  va : Nat
  size : PageSize
  w : Bool
  x : Bool
  ap : Bool
  target : LeafTarget
  share : Option Nat := none
  orphaned : Bool := false
  deriving DecidableEq, Repr

/-- Counters of the query record (Table 06-9) that are reset by the reset flag. -/
structure CtxCounters where
  coreBusy : Nat := 0
  madderBusy : Nat := 0
  samplerBusy : Nat := 0
  rdLpddr : Nat := 0
  wrLpddr : Nat := 0
  rdScratch : Nat := 0
  wrScratch : Nat := 0
  rdHost : Nat := 0
  wrHost : Nat := 0
  rdShared : Nat := 0
  wrShared : Nat := 0
  dlMet : Nat := 0
  dlMissed : Nat := 0
  deriving DecidableEq, Repr

/-- One context: its parameters (Table 05-12), its leaves, its translation tables (R300) by level and the VA bits above the
level with the page of the table area that each occupies, the root among them, held semaphores by VA (R273), save-area units (R767),
counters and samples (Table 06-9). A kill or a reset of it in progress is a forfeit of the state's list. -/
structure Ctx where
  seed : Word := 0#32
  partition : Option Nat := none
  binGrace : Nat := 2000
  cacheQuota : Nat := 64
  leaves : List Leaf := []
  tables : List ((Nat × Nat) × Nat) := []
  sems : List Nat := []
  saveUnits : List Nat := []
  stampStart : Stamp := 0
  counters : CtxCounters := {}
  dlQueue : List (Nat × Nat) := List.replicate 8 (0, 0)
  linesResident : Nat := 0
  linesStamp : Stamp := 0
  deriving DecidableEq, Repr

/-- The kinds of queue (Q_CREATE, Table 06-2). -/
inductive QueueKind where
  | graphics
  | compute
  | matrix
  | transfer
  | mixed
  deriving DecidableEq, Repr

/-- Queue states of Table 06-7a; UNUSED is the absence of a queue. -/
inductive QueueState where
  | idle
  | parked
  | running
  | waiting
  | stopped
  | error
  deriving DecidableEq, Repr

/-- Why a queue is held STOPPED (Table 06-7a), beside a reset, kill or suspension of its context, which is a forfeit in
progress. -/
inductive StopReason where
  | d3hot
  | preempt
  | crystal
  /-- Its Q_DESTROY is in progress. -/
  | destroy
  deriving DecidableEq, Repr

/-- A packet in progress: its number in the queue, TYPE, header flags and TAG (Table 06-3), its VA, and the stamp
of its start. -/
structure Pkt where
  num : Nat
  type : Nat
  notify : Bool
  errCont : Bool
  tag : Word
  va : Nat
  start : Stamp
  deriving DecidableEq, Repr

/-- A WAIT or SEM_ACQUIRE not yet satisfied (R245, R271): the word, the condition (semaphores have none), the
timeout in microseconds and its start stamp. `due` says that an occasion of R246 asks for an evaluation, `polls` counts the
TAIL_POLL intervals used, and `compare` is the word that a compare-and-swap of the acquire expects. -/
structure WaitRec where
  pkt : Nat
  sem : Bool
  addr : Nat
  ref : Dword
  mask : Dword
  cond : Nat
  timeout : Nat
  start : Stamp
  due : Bool := true
  polls : Nat := 0
  compare : Dword := 0#64
  deriving DecidableEq, Repr

/-- What a signal does to its word (Table 06-5). -/
inductive SignalKind where
  | write | add | max | stamp | release
  deriving DecidableEq, Repr

/-- A FENCE or SEM_RELEASE in progress (R243, R272): its packet, word and operand, the compare value of its compare-and-swap
and how many it has issued (R278). -/
structure SignalOp where
  pkt : Nat
  kind : SignalKind
  va : Nat
  value : Dword
  compare : Dword := 0#64
  tries : Nat := 0
  deriving DecidableEq, Repr

/-- A queue's place in its chain: no link word read yet, reading the link word at an address, or fetching the
units of a segment up to its link word (R243a, R249). -/
inductive ChainPos where
  | none
  | linkRead (va : Nat)
  | segment (next : Nat) (endVa : Nat)
  | atEnd (va : Nat)
  deriving DecidableEq, Repr

/-- One queue: its definition (Q_CREATE, Q_SET), the doorbell block (Table 06-8), the chain position, packets in
progress, the wait in force, the open submission (R264) and its stop state. -/
structure Queue where
  doorbell : Nat
  kind : QueueKind
  prio : Nat
  preempt : Nat
  anchor : Nat
  vector : Nat
  tailPoll : Nat
  deadline : Nat := 0
  st : QueueState := .idle
  latched : Bool := false
  sub : Option Stamp := none
  subMissed : Bool := false
  missed : Bool := false
  incRead : Bool := false
  lastErr : Nat := 0
  qTag : Word := 0#32
  qPos : Nat := 0
  retired : Word := 0#32
  chain : ChainPos := .none
  torn : Nat := 0
  park : Stamp := 0
  parkPoll : Nat := 0
  polls : Nat := 0
  pkts : List Pkt := []
  nextPkt : Nat := 0
  lastDone : Stamp := 0
  wait : Option WaitRec := none
  signal : Option SignalOp := none
  stops : List StopReason := []
  /-- What the link word read last was: END (true) or not; none before the first (Table 06-7a). -/
  lastEnd : Option Bool := none
  /-- The granularity with which the pre-emption in progress started (R754, R762). -/
  preempting : Option Nat := none
  /-- When work of the queue was last placed (R760). -/
  lastPlaced : Stamp := 0
  deriving DecidableEq, Repr

end Sys2Proof.Machine
end

