-- ==== Sys2Proof/Machine/MemoryTypes.lean ====
section
/-!
DEFINITION. Device memory, memory objects, the zero map and poison (spec 07), the Vat (spec 08), the fabric and
the bandwidth regulator (spec 09), and the accesses in flight between a client and a home.
-/

namespace Sys2Proof.Machine

/-- Thirty-two bytes: the data of one sector. -/
abbrev Sector := BitVec 256

/-- A memory object (R310): its tenant and its 2 MiB units by offset. -/
structure MemObject where
  tenant : Nat
  units : List Nat
  /-- The tenant was forfeited while a share kept the object alive (R328). -/
  ownerLost : Bool := false
  deriving DecidableEq, Repr

/-- The LPDDR5X subsystem: what training read (R333), the fuse (R338), failed channels (R130), the cells written,
the zero map by 2 MiB unit with the 4 KiB blocks of it already written (R311), poisoned sectors by PA (the check
pattern of R345 or the list of R346), the corrected errors of each channel (R340), the uncorrectable ones, the 2 MiB units in
use and the objects. -/
structure Lpddr where
  density2g : Bool := false
  ranks2 : Bool := false
  ecc : Bool := false
  inService : Bool := false
  trainFail : BitVec 16 := 0#16
  trackFail : BitVec 16 := 0#16
  cells : List Host.Cell := []
  zeroMap : List (Nat × List Nat) := []
  poison : List Nat := []
  /-- Blocks that a lost zero-map word covered (Table 07-8), with the sectors of each written whole since. -/
  badBlocks : List (Nat × List Nat) := []
  ceCounts : List (Nat × Nat) := []
  ueCount : Nat := 0
  usedUnits : List Nat := []
  objects : List (Nat × MemObject) := []
  deriving DecidableEq, Repr

/-- One sector of a Vat line: SV, SD, the poison pattern and the data. -/
structure LineSector where
  sv : Bool := false
  sd : Bool := false
  poison : Bool := false
  data : Sector := 0#256
  deriving DecidableEq, Repr

/-- One valid line of a cache-role way (Table 08-1). OWNER is 0 for the device, else 1 + 64 * tenant + context. -/
structure Line where
  slice : Nat
  set : Nat
  way : Nat
  tag : Nat
  owner : Nat
  tile : Bool := false
  next : Bool := false
  sectors : List LineSector := List.replicate 4 {}
  deriving DecidableEq, Repr

/-- A streaming-store detector (R374). -/
structure Detector where
  ctx : Option CtxId := none
  nextVa : Nat := 0
  count : Nat := 0
  deriving DecidableEq, Repr

/-- A scratchpad segment in existence: its holder, the sectors written with their data, and poisoned sectors. -/
structure Segment where
  holder : Option CtxId := none
  data : List (Nat × Sector) := []
  poison : List Nat := []
  deriving DecidableEq, Repr

/-- The Vat: the ways in the scratchpad role, the ways that a VAT_CONVERT in progress takes from the cache role (Table 08-3),
STREAM_CFG, the valid lines, the way last allocated or hit by slice and set, the detectors, the segments in existence and the
counts. -/
structure Vat where
  convMask : BitVec 16 := 0#16
  converting : Option (BitVec 16) := none
  streamEn : Bool := true
  streamThresh : Nat := 32
  lines : List Line := []
  mru : List ((Nat × Nat) × Nat) := []
  detectors : List (Nat × Detector) := []
  /-- The patrol's window, and the slices, sets and ways that it has read in it (R394). -/
  patrol : Nat × List (Nat × Nat × Nat) := (0, [])
  segs : List (Nat × Segment) := []
  ceCount : Nat := 0
  ueCount : Nat := 0
  deriving DecidableEq, Repr

/-- Setting of a regulator partition (R423). -/
structure PartCfg where
  en : Bool := false
  windowUs : Nat := 100
  budget : Nat := 1
  deriving DecidableEq, Repr

/-- One regulator partition: the setting in force, settings waiting for their boundaries (R431), the start of the
current window, the committed count, whether the oversize rule used this window (R426), and the registers
PART_LAST and PART_HELD. -/
structure Partition where
  cfg : PartCfg := {}
  waiting : List (PartCfg × Stamp) := []
  windowStart : Stamp := 0
  committed : Nat := 0
  oversize : Bool := false
  admitted : Nat := 0
  last : Nat := 0
  heldWindows : Nat := 0
  heldNow : Bool := false
  deriving DecidableEq, Repr

/-- A flit waiting at a router output (R418 to R420): its router, output and input port, network, virtual-channel set,
priority class, SPINE bit, the handshake steps it has waited, and whether it is aged. -/
structure WaitingFlit where
  router : Nat
  out : Nat
  inp : Nat
  response : Bool
  yx : Bool
  pri : Nat
  spine : Bool
  steps : Nat := 0
  aged : Bool := false
  deriving DecidableEq, Repr

/-- The Damxia fabric: the route tables by (NI, entry), where an unlisted entry is 0 (R415, Table 09-3), partitions, credit of
the client NIs by (NI, partition) as amount and window start (R426), flits waiting, and the counts of Table 09-9. -/
structure Fabric where
  routes : List ((Nat × Nat) × BitVec 33) := []
  parts : List Partition := List.replicate 16 {}
  credit : List ((Nat × Nat) × (Nat × Stamp)) := []
  flits : List WaitingFlit := []
  turns : List ((Nat × Nat × Bool) × Nat) := []
  parityTotal : Nat := 0
  parityWin : Nat := 0
  parityWindow : Nat := 0
  /-- The window of 10 ms in which the Mordant last read the route tables (R444). -/
  patrolled : Option Nat := none
  ceCount : Nat := 0
  deriving DecidableEq, Repr

/-- An engine that reads memory for a command of its own: a queue engine, the geometry front end for a queue, the fetch of a
thread group by slot, a tile backend for the tile of a core, the compose service for source or destination pixels, launch
arguments for a core. -/
inductive Reader where
  | queue (q : QueueId)
  | geometry (q : QueueId)
  | fetch (slot : Nat)
  | bins (core : Nat)
  | compose (dst : Bool)
  | args (q : QueueId) (core : Nat)
  deriving DecidableEq, Repr

/-- The client that an access serves and that its data or acknowledgement returns to. -/
inductive Client where
  /-- A load, fetch or atomic of a thread group: resident slot and load number (R497). -/
  | groupLoad (slot : Nat) (num : Nat)
  /-- A store of a thread group. -/
  | groupStore (slot : Nat)
  /-- The publication of a thread group's numeric status (R613). -/
  | publish (slot : Nat)
  /-- A sampler request of a thread group. -/
  | sampler (slot : Nat) (num : Nat)
  /-- An MLOAD of a staged Madder operation of the group in a slot. -/
  | madderLoad (slot op : Nat)
  /-- An MSTORE of a committed Madder operation of the group in a slot. -/
  | madderStore (slot : Nat)
  /-- A read or write of a transfer channel for a queue, at an offset in the packet's bytes. -/
  | xferRead (q : QueueId) (ch off : Nat)
  | xferWrite (q : QueueId) (ch off : Nat)
  /-- The geometry front end for a queue. -/
  | geometry (q : QueueId)
  /-- The tile backend of a core's cluster, for the tile in progress on that core. -/
  | tile (core : Nat)
  /-- A read of an engine. -/
  | reader (r : Reader)
  /-- A FENCE or SEM_RELEASE of a queue on its word (R243, R272). -/
  | signal (q : QueueId)
  /-- An evaluation of a WAIT or SEM_ACQUIRE of a queue (R246, R271). -/
  | wait (q : QueueId)
  /-- A pixel write of the compose service (R857). -/
  | composeWrite
  /-- A BAR2 access of a host, by the number of its request (R21). -/
  | bar2 (request : Nat)
  /-- The Mordant for a command of a slot (R20). -/
  | mordant (k : SlotId)
  /-- The Mordant's BROKEN mark of a semaphore of a forfeited context, by VA (R810). -/
  | broken (c : CtxId) (va : Nat)
  deriving DecidableEq, Repr

/-- The Mordant's own traffic, which goes in SPINE packets, uncharged and uncounted (R20, R421). -/
def Client.spine : Client → Bool
  | .mordant _ => true
  | .broken .. => true
  | _ => false

/-- Where an access goes once translated. -/
inductive Home where
  | device (pa : Nat)
  | scratch (addr : Nat)
  | host (port : PortId) (fn : Nat) (addr : Nat)
  deriving DecidableEq, Repr

/-- The atomic operations of Table 11 and of signal words, and the update of a word of the numeric status record (R612). -/
inductive AtomOp where
  | add | min | max | umin | umax | and | or | xor | exch | cas | fadd | status
  deriving DecidableEq, Repr

/-- What an access does at its home. Store data are (byte offset, byte) pairs; an atomic performs its words in order, each
by byte offset with its two operands. -/
inductive AccKind where
  | read
  | write (bytes : List (Nat × Byte)) (poison : Bool)
  | atomic (op : AtomOp) (wide : Bool) (words : List (Nat × Dword × Dword))
  deriving DecidableEq, Repr

/-- How far an access has come. -/
inductive Stage where
  /-- At its client NI, not yet admitted (R426). -/
  | atNi
  /-- Held by its partition (R429). -/
  | held
  /-- Admitted, on its way to its home or being served there. -/
  | admitted (at_ : Stamp)
  /-- Missed in its home slice; the fill is at a memory NI (R365). -/
  | filling (at_ : Stamp)
  /-- Fill data is on its way back to the slice. -/
  | filled (at_ : Stamp)
  /-- At the host port, waiting for a tag (R165) or held while Bus Master Enable is clear (R171). -/
  | waitTag (at_ : Stamp)
  /-- On the link with a tag since a stamp (R168). -/
  | onLink (tag : Nat) (since : Stamp)
  /-- A packet of it was dropped in the fabric (R442); it ends at its timeout from admission (R443). -/
  | lost (at_ : Stamp)
  /-- Its answer is ready for the client. -/
  | answered
  deriving DecidableEq, Repr

/-- An access in flight. `need` is the charge in sectors. `bytes` and `poison` are the answer by byte and by
32-byte sector once answered. -/
structure Access where
  client : Client
  ni : Nat
  ctx : Option CtxId
  part : Option Nat
  pri : Nat
  home : Home
  va : Nat
  len : Nat
  kind : AccKind
  shared : Bool := false
  need : Nat
  stage : Stage := .atNi
  stamp : Stamp := 0
  bytes : List Byte := []
  poison : Bool := false
  /-- Its context was forfeited: the answer is discarded at the issuing NI (R808). -/
  dropped : Bool := false
  /-- Sectors of the 128-byte line that the request's mask names (R471); empty where they are those of `len`. -/
  secs : List Nat := []
  /-- A missing load allocates a line (R365, R372). -/
  alloc : Bool := true
  /-- Sectors of the line that its fill reads (R365). -/
  fills : List Nat := []
  /-- Sectors of the line that came back from LPDDR as poison (a fill). -/
  fillPoison : List Bool := []
  /-- Sectors of its data, counted from its first, that a data flit's error marked as poison (R442). -/
  flitPoison : List Nat := []
  /-- Accesses of the same thread to the same address that take effect before it (R476). -/
  after : List Nat := []
  /-- Bytes of a host read that completions have brought so far (R164). -/
  got : Nat := 0
  /-- The code of the timeout that ended it (R168, R443). -/
  ended : Option Nat := none
  /-- It belongs to a read and write of a host word that no other access of the device may come between (R277). -/
  lock : Bool := false
  /-- Its NI has given it up (R443): the queue for which a write of it is still to become visible (R244). -/
  lateFor : Option QueueId := none
  deriving DecidableEq, Repr

/-- A tag quarantined at a port (R169): the tag, the requesting function, the request's stamp and when it returns. -/
structure Quarantine where
  port : PortId
  tag : Nat
  fn : Nat
  since : Stamp
  returns : Stamp
  deriving DecidableEq, Repr

/-- How far a write-back has come: on its way, dropped in the fabric (R442), or performed with its acknowledgement on the way
(R413). -/
inductive WbStage where
  | sent | lost | acked
  deriving DecidableEq, Repr

/-- A write-back or a write-through on its way from a home slice to a memory NI (R366, R375): one sector with its byte mask,
whether it carries poison, the context of a write-through, the set and way of a dirty sector's line, the owner and the priority
of its header (Table 09-5), and when it was sent. `late` says that its slice has given it up (R443). -/
structure WriteBack where
  pa : Nat
  data : Sector
  mask : BitVec 32
  poison : Bool
  writer : Option CtxId := none
  place : Option (Nat × Nat) := none
  owner : Nat := 0
  pri : Nat := 0
  stamp : Stamp := 0
  stage : WbStage := .sent
  late : Bool := false
  deriving DecidableEq, Repr

/-- A BAR2 read of a host that its port has not completed (R21, R151): the function, and the line, offset in it and length of
each piece. -/
structure HostReq where
  fn : Nat
  pieces : List (Nat × Nat × Nat)
  deriving DecidableEq, Repr

/-- Accesses in flight by number, write-backs in flight by number in the order of their home, the number of the next of either,
BAR2 reads not yet completed, and quarantined tags. -/
structure Traffic where
  accesses : List (Nat × Access) := []
  writeBacks : List (Nat × WriteBack) := []
  nextAccess : Nat := 0
  hostReqs : List (Nat × HostReq) := []
  nextReq : Nat := 0
  quarantined : List Quarantine := []
  deriving DecidableEq, Repr

end Sys2Proof.Machine
end

