-- ==== Sys2Proof/Machine/ErrorTypes.lean ====
section
/-!
DEFINITION. Error records, windows and forfeits (spec 18), and the lockstep and Sepia state (spec 19).
-/

namespace Sys2Proof.Machine

/-- The units of the LOC field (Table 18-3). -/
inductive LocUnit where
  | none | core | madder | tileBackend | geometry | channel | slice | ni | lpddr | port | queueEngine | mordant | pace
  deriving DecidableEq, Repr

/-- The LOC field (Table 18-3). -/
structure Loc where
  unit : LocUnit := .none
  index : Nat := 0
  sched : Nat := 0
  slot : Nat := 0
  deriving DecidableEq, Repr

/-- ADDR with its ADDR_KIND (Table 18-2). -/
inductive RecAddr where
  | none
  | va (a : Nat)
  | pa (a : Nat)
  | scratch (a : Nat)
  | host (a : Nat)
  | localStore (a : Nat)
  | priv (a : Nat)
  deriving DecidableEq, Repr

/-- The windows of a destination set (R793). -/
structure Dest where
  t : Bool := false
  a : Bool := false
  b : Bool := false
  deriving DecidableEq, Repr

/-- An error record before storage (Table 18-2): everything but SEQ and the windows that held it. -/
structure ErrRec where
  code : Nat
  scope : Nat
  stamp : Stamp := 0
  tenant : Option Nat := none
  ctx : Option Nat := none
  queue : Option Nat := none
  tag : Word := 0#32
  addr : RecAddr := .none
  loc : Loc := {}
  pc : Word := 0#32
  lanes : Word := 0#32
  extra : Nat := 0
  detail : BitVec 128 := 0#128
  dest : Dest := {}
  deriving DecidableEq, Repr

/-- A stored record (R792): SEQ, the record with DEST as stored, the windows (by function) that have not yet
consumed it, and whether its entry is damaged (R815). -/
structure StoredRec where
  seq : Nat
  rec_ : ErrRec
  windows : List Nat
  damaged : Bool := false
  deriving DecidableEq, Repr

/-- The error queue, the windows' ERR_DROP and ERR_SEL by function, records detected and not yet stored in
detection order (R796), and the error page (Table 18-11); and the records that full windows dropped at a stamp, each with its
window and its SEQ where another window holds it (R816). -/
structure ErrQueue where
  stored : List StoredRec := []
  nextSeq : Nat := 1
  drop : List (Nat × Nat) := []
  sel : List (Nat × Nat) := []
  detected : List ErrRec := []
  turned : List (Nat × Option Nat × ErrRec) := []
  turnedAt : Stamp := 0
  storedCount : Nat := 0
  droppedCount : Nat := 0
  lastDevice : Nat := 0
  storageUe : Nat := 0
  deriving DecidableEq, Repr

/-- One part of a forfeit and what its completion does (R807, Table 18-8 step 7). -/
inductive ForfeitPart where
  /-- A kill of a context (R494) with its fault record, still to be stored. -/
  | kill (c : CtxId) (record : ErrRec)
  /-- A context reset by command, carried by a slot. -/
  | ctxReset (c : CtxId)
  /-- A context destroyed by ADM_REVOKE with FORCE. -/
  | ctxDestroy (c : CtxId)
  /-- A tenant reset, by command (FN_CAUSE 4). -/
  | tenantReset (fn : Nat)
  /-- A function-level reset (FN_CAUSE 3). -/
  | flr (fn : Nat)
  /-- A port reset with its FN_CAUSE (1 or 2) and its LINK_DOWN record. -/
  | portReset (p : PortId) (cause : Nat) (record : ErrRec)
  /-- VF Enable cleared: every VF of the port (R145). -/
  | vfClear (p : PortId)
  /-- A revoke's context reset (R214). -/
  | revokeReset (c : CtxId)
  /-- Sepia suspension of a tenant (R849), or the context resets of an administration function. -/
  | suspend (fn : Nat)
  | sepiaReset (c : CtxId)
  /-- Every tenant, by a warm device reset. -/
  | warm
  deriving DecidableEq, Repr

/-- A forfeit in progress: its parts in the order they came (R818), the set of contexts, the tenants forfeited as
a whole, the decision stamp, faults counted (R817), slots that complete with it, with the SEQ they carried and
their results, whether its sweep is done (Table 18-8 step 4), and for each semaphore marked BROKEN or not reachable its
tenant and which (R810, R811). -/
structure Forfeit where
  parts : List ForfeitPart
  ctxs : List CtxId
  tenants : List Nat
  stamp : Stamp
  extra : Nat := 0
  slots : List (SlotId × Word × List Word) := []
  swept : Bool := false
  marks : List (Nat × Bool) := []
  deriving DecidableEq, Repr

/-- How the Mordant runs (Table 19-6 MORDANT_MODE). -/
inductive MordantMode where
  | pair
  | aAlone
  | halted
  deriving DecidableEq, Repr

/-- A Sepia entry between its decision and its completion (Table 19-4). -/
structure SepiaEntry where
  stamp : Stamp
  cause : Nat
  slot : Option SlotId := none
  deriving DecidableEq, Repr

/-- One of the Mordant's six token interfaces (R826 to R828): the token last delivered to copies A and B, and its two input and two
output delay registers, oldest first. An empty token is none. -/
structure TokenIface where
  toA : Option Token := none
  toB : Option Token := none
  inRegs : List (Option Token) := [none, none]
  outRegs : List (Option Token) := [none, none]
  deriving DecidableEq, Repr

/-- The lockstep pair (spec 19): its token interfaces, the tokens that have entered them, the replay log (R834), tokens that a
mismatch withholds (R836), the self-test, replay and checkpoints, the watchdog and the Sepia state. -/
structure Lockstep where
  /-- Input tokens recorded since the last checkpoint, each with its interface (R836). -/
  inputs : List (Nat × Token) := []
  /-- The test token of a self-test whose alarm is awaited (R830). -/
  testToken : Option Token := none
  mode : MordantMode := .pair
  ifaces : List TokenIface := List.replicate 6 {}
  tokens : Nat := 0
  log : List Token := []
  withheld : List Token := []
  selfCount : Nat := 0
  selfPending : Option Stamp := none
  selfPass : Nat := 0
  selfLast : Option Stamp := none
  lastAlarm : Nat := 0
  replays : Nat := 0
  replaying : Bool := false
  /-- A replay has started and no checkpoint has followed it (R838). -/
  sinceReplay : Bool := false
  heartbeat : Stamp := 0
  sepia : Bool := false
  sepiaOut : Bool := false
  entry : Option SepiaEntry := none
  /-- An entry that waits for a class Q command in service (R230). -/
  waiting : Option SepiaEntry := none
  sepiaCause : Nat := 0
  sepiaStamp : Stamp := 0
  deriving DecidableEq, Repr

end Sys2Proof.Machine
end

