-- ==== Sys2Proof/Machine/SideTypes.lean ====
section
/-!
DEFINITION. The sensors, the I3C target, the JTAG TAP with the trace buffer, the fuses (spec 21, 22), and the
record of what has left the device.
-/

namespace Sys2Proof.Machine

/-- The 16 temperature sensors (R902, R929): the encoded reading of each, none where it is not valid, the sensors whose conversion
has failed since power-on (Table 21-13), and the readings from before the last refresh with its stamp (R910). -/
structure Sensors where
  temp : List (Option Nat) := List.replicate 16 none
  failed : List Nat := []
  before : List (Option Nat) := List.replicate 16 none
  refreshed : Option Stamp := none
  deriving DecidableEq, Repr

/-- The I3C target (R923 to R945); `pendSet` is the bits of IBI_PEND last set with their stamp (R936). -/
structure I3c where
  serving : Bool := false
  dynAddr : Option Nat := none
  pointer : Byte := 0#8
  ibiEn : Byte := 0#8
  ibiPend : Byte := 0#8
  pendSet : Byte × Stamp := (0#8, 0)
  tempAlert : Nat := 0x290
  tempArmed : Bool := true
  eventsEnabled : Bool := false
  busy : Bool := false
  ignored : Bool := false
  /-- The data byte of the in-band interrupt requested and not yet accepted. -/
  request : Option Byte := none
  /-- The data byte last accepted, while it still suppresses requests (R935). -/
  accepted : Option Byte := none
  deriving DecidableEq, Repr

/-- The JTAG instructions of Table 21-9. -/
inductive JtagInstr where
  | extest | samplePreload | idcode | clamp | highz | dapAccess | dapCtrl | fuseProg | fuseRead | bypass
  deriving DecidableEq, Repr

/-- One Jendon trace record (R901). -/
structure TraceRec where
  kind : Nat
  lost : Bool
  source : Nat
  stamp : Nat
  payload : Dword
  deriving DecidableEq, Repr

/-- Who controls the balls (R897): the device, the boundary-scan register, or HIGHZ. -/
inductive BallControl where
  | system | boundary | highz
  deriving DecidableEq, Repr

/-- The TAP: the instruction in force, the boundary-scan register's update latches, who controls the balls, the data register
as last captured, DAP_CTRL, the trace buffer (R901) and whether a record was dropped since the last one kept. -/
structure Jtag where
  instr : JtagInstr := .idcode
  boundary : List Bool := []
  balls : BallControl := .system
  dr : List Bool := []
  dapCtrl : BitVec 16 := 0#16
  trace : List TraceRec := []
  lost : Bool := false
  deriving DecidableEq, Repr

/-- The fuses (R899, R900): blown bits, PROG_FAIL and the blow in progress (INLINE_ECC and JTAG_LOCK selected). INLINE_ECC as read
at the last rise of RESET_N (R338) is the memory's. -/
structure Fuses where
  inlineEcc : Bool := false
  jtagLock : Bool := false
  progFail : Bool := false
  blowing : Option (Bool × Bool) := none
  deriving DecidableEq, Repr

/-- The status of a completion that the device returns to a host. -/
inductive CplStatus where
  | success
  | crs
  | unsupported
  deriving DecidableEq, Repr

/-- What leaves the device at its links and pins, in order: messages, completions, requests to hosts, SPMI frames,
AER reports and I3C and JTAG data. -/
inductive OutEvent where
  | msix (fn : Nat) (vector : Nat) (addr : Dword) (data : Word)
  | cpl (fn : Nat) (status : CplStatus) (bytes : List Byte) (ep : Bool)
  | hostRead (port : PortId) (fn : Nat) (tag : Nat) (addr : Nat) (len : Nat)
  | hostWrite (port : PortId) (fn : Nat) (addr : Nat) (bytes : List (Nat × Byte)) (ep : Bool)
  | hostAtomic (port : PortId) (fn : Nat) (tag : Nat) (addr : Nat) (op : AtomOp) (a b : Dword)
  | spmi (frame : SpmiFrame)
  | aer (fn : Nat) (kind : AerKind)
  | errMessage (fn : Nat) (level : ErrLevel)
  | i3c (bytes : List Byte)
  | jtag (bits : List Bool)
  deriving DecidableEq, Repr

end Sys2Proof.Machine
end

