-- ==== Sys2Proof/Machine/CoreTypes.lean ====
section
/-!
DEFINITION. Clusters, dispatches, workgroups and thread groups (spec 10, 11, 13), the Madder units (spec 12), and the
saved state of pre-empted work (spec 17).
-/

namespace Sys2Proof.Machine

/-- One cluster's mode (R485). -/
structure Cluster where
  excl : Option CtxId := none
  deriving DecidableEq, Repr

/-- A thread of a group (R463). -/
inductive ThreadSt where
  | running
  | barrier
  | exited
  deriving DecidableEq, Repr

/-- What launched a thread group: a dispatch, a batch of the geometry front end (by its serial number in the draw), or the
tile in progress on its core (by group number in the tile pass). -/
inductive GroupKind where
  | compute
  | vertex (batch : Nat)
  | fragment (num : Nat)
  deriving DecidableEq, Repr

/-- The numeric state of a thread group (R610, R611, R615 to R618). -/
structure Numeric where
  seed : Word := 0#32
  id0 : Word := 0#32
  id1 : Word := 0#32
  id2 : Word := 0#32
  j : Nat := 0
  draws : List Word := List.replicate 32 0#32
  madderDraw : Word := 0#32
  flush : Nat := 0
  escapes : Nat := 0
  flags : Nat := 0
  deriving DecidableEq, Repr

/-- What a pending access of a group returns into. -/
inductive LoadKind where
  /-- A load of a width code (Table 11-3) into vector registers or, scalar, into scalar registers. -/
  | load (width : Nat) (scalar : Bool)
  /-- An atomic whose old value goes to a register, or nowhere. -/
  | atomic (wide ret : Bool)
  deriving DecidableEq, Repr

/-- A load or atomic of a group that has not returned: its number, kind, first register, the executing lanes with their
addresses, and what a fault record of it names (R496). -/
structure LoadRec where
  num : Nat
  kind : LoadKind
  reg : Nat
  lanes : List (Nat × Nat)
  pc : Nat
  base : Dword
  ext : Word
  deriving DecidableEq, Repr

/-- A sampler request of a group (R532, R533): number, opcode, destination quad, executing and active lanes, MOD, the
descriptors, the coordinate registers of the 32 lanes, what a fault record of it names, and the first free value it uses. -/
structure SampleRec where
  num : Nat
  op : Nat
  reg : Nat
  lanes : List Nat
  active : Word
  mod : Nat
  tex : List Word
  samp : List Word
  coords : List (List Word)
  pc : Nat
  base : Dword
  ext : Word
  free : Nat := 0
  deriving DecidableEq, Repr

/-- A filled operand slot of a Madder (R555, R556): format code, INT4, signedness, scale mode and the 16 row records. -/
structure MSlot where
  code : Nat
  int4 : Bool
  sgn : Bool
  mode : Nat
  rows : List (List Byte)
  deriving DecidableEq, Repr

/-- The operations of a Madder with their operands as issued (Table 11-8). -/
inductive MKind where
  | mload (slot base stride : Nat) (desc : MSlot)
  | mma (tile a b : Nat) (fresh : Bool)
  | mstore (tile base stride code mode : Nat)
  | mzero (tile : Nat)
  | mmaf (reg : Nat) (acode bcode : Nat) (asgn bsgn int4 : Bool) (a b : List (List Word)) (c : Option (List (List Word)))
  deriving DecidableEq, Repr

/-- A Madder operation between issue and commit or squash (R568 to R574): its group by resident slot, whether the Madder
has taken it, its retire token, the rows read, and a fault it holds: code, address and row. -/
structure MOp where
  group : Nat
  core : Nat
  kind : MKind
  handed : Bool := false
  commit : Bool
  /-- Reads are outstanding. -/
  reading : Bool := false
  rows : List (List Byte) := []
  fault : Option (Nat × RecAddr × Nat) := none
  pc : Nat
  lanes : Word
  base : Dword
  ext : Word
  deriving DecidableEq, Repr

/-- One thread group by its resident slot (R453, R455, R463, R468): its launcher, registers, threads, numeric state,
pending accesses, fence and barrier state, Madder reservations (R563, R590) and pre-emption state. `homeSlot` is the slot
of its launch (s21), which addresses private space. -/
structure Group where
  ctx : CtxId
  queue : QueueId
  pkt : Nat
  tag : Word
  kind : GroupKind := .compute
  core : Nat
  sched : Nat
  wg : Nat
  j : Nat := 0
  homeSlot : Nat
  progVa : Nat
  vregs : Nat
  privBytes : Nat := 0
  privVa : Nat := 0
  pcs : List Nat := List.replicate 32 0
  sts : List ThreadSt := List.replicate 32 .running
  v : List (List Word) := []
  sregs : List Word := List.replicate 64 0#32
  preds : List Word := List.replicate 8 0#32
  num : Numeric := {}
  stampCap : Option Stamp := none
  loads : List LoadRec := []
  samples : List SampleRec := []
  nextLoad : Nat := 0
  /-- The scope of a fence whose conditions later accesses wait for (Table 10-4), and a load they wait for (R478). -/
  fence : Option Nat := none
  hold : Option Nat := none
  drive : Option Nat := none
  mslots : List (Option MSlot) := List.replicate 8 none
  tiles : List (List Word) := []
  /-- Vertex outputs by slot and component, or fragment outputs by attachment and component, for the 32 lanes. -/
  outs : List ((Nat × Nat) × List Word) := []
  /-- Lanes whose fragment is discarded. -/
  discarded : Word := 0#32
  /-- Lanes that are helper lanes of a fragment group (R700). -/
  helpers : Word := 0#32
  stopping : Bool := false
  stopped : Bool := false
  /-- Reads that a stop recorded as not performed, and the staged Madder operations that they held back (Table 17-4). -/
  replays : List Access := []
  replayOps : List (Nat × MOp) := []
  launched : Stamp := 0
  /-- Sectors of its program that fetches have brought, by VA: the bytes, each with its poison (R503). -/
  lines : List (Nat × List (Byte × Bool)) := []
  /-- How many entries of `overwritten` its packet found at its start (R480). -/
  code : Nat := 0
  deriving DecidableEq, Repr

/-- A resident workgroup: its dispatch, ID, core, local store allocation and the bytes of it written, whether nothing has used the
allocation since the core woke (R110), and how many groups it has. -/
structure Workgroup where
  dispatch : Option Nat
  queue : QueueId
  id : Nat × Nat × Nat := (0, 0, 0)
  core : Nat
  lsBytes : Nat
  ls : List (Nat × Byte) := []
  fresh : Bool := false
  groups : Nat
  deriving DecidableEq, Repr

/-- A DISPATCH or MDISPATCH in progress (Table 10-1, Table 12-3): the next workgroup to place in linear order, those that a
FORCE_OFF of the same step took back (R493), and the stamp since which it has waited. -/
structure Dispatch where
  queue : QueueId
  pkt : Nat
  tag : Word
  progVa : Nat
  grid : Nat × Nat × Nat
  wgDims : Nat × Nat × Nat
  vregs : Nat
  clusters : Nat
  lsBytes : Nat
  privBytes : Nat
  privVa : Nat
  argVa : Nat
  drive : Option Nat := none
  next : Nat := 0
  back : List Nat := []
  ready : Stamp
  /-- As in a group (R480). -/
  code : Nat := 0
  deriving DecidableEq, Repr

/-- A saved workgroup in a context's save area (R766, Table 17-2), with its groups. -/
structure SavedWg where
  wg : Workgroup
  groups : List Group
  since : Stamp
  deriving DecidableEq, Repr

/-- An 8-byte unit at a device home before a write to it, and who wrote (R480). -/
structure OldUnit where
  home : Home
  bytes : List Byte
  owner : Nat
  deriving DecidableEq, Repr

/-- The shader cores: by core, the local store allocated since it woke (`lsEver`, R110); cluster modes, resident groups by
slot, workgroups, dispatches in progress, saved workgroups, the placement reservations of R756 by core, and by core and
priority class the stamp since which queues without a deadline have held the core (R760). `overwritten` holds the units
written since work with a program began, the oldest first (R480). -/
structure Cores where
  clusters : List Cluster := List.replicate 6 {}
  groups : List (Nat × Group) := []
  wgs : List (Nat × Workgroup) := []
  nextWg : Nat := 0
  dispatches : List (Nat × Dispatch) := []
  nextDispatch : Nat := 0
  saved : List (Nat × SavedWg) := []
  reserve : List (Nat × Nat) := []
  classSince : List ((Nat × Nat) × Stamp) := []
  overwritten : List OldUnit := []
  lsEver : List (Nat × Nat) := []
  deriving DecidableEq, Repr

/-- The Madder units: staged operations by number in issue order. -/
structure Madders where
  ops : List (Nat × MOp) := []
  nextOp : Nat := 0
  deriving DecidableEq, Repr

end Sys2Proof.Machine
end

