-- ==== Sys2Proof/Machine/Float.lean ====
section
/-!
DEFINITION. Number formats, rounding and exact arithmetic (spec 13, R515 to R522): a value of a format is decoded to
an exact dyadic number, computed exactly, and narrowed once under a rounding mode.
-/

namespace Sys2Proof.Machine

/-- An exact value: NaN, an infinity by its sign, or (-1)^neg * m * 2^e; m = 0 is a zero with its sign. -/
inductive FVal where
  | nan
  | inf (neg : Bool)
  | fin (neg : Bool) (m : Nat) (e : Int)
  deriving DecidableEq, Repr

/-- Which encodings of a format are not finite numbers (Table 13-1). -/
inductive Specials where
  /-- Exponent all 1: infinity and NaN. -/
  | ieee
  /-- Only S.1111.111 is NaN. -/
  | e4m3
  | none
  deriving DecidableEq, Repr

/-- A floating-point format (Table 13-1): widths, bias, specials, the code of the greatest finite magnitude, and the
canonical NaN (R593). -/
structure Fmt where
  exp : Nat
  mant : Nat
  bias : Nat
  specials : Specials
  maxCode : Nat
  nanCode : Nat
  deriving DecidableEq, Repr

/-- Table 13-1 by format code. -/
def fmtOf : Nat → Fmt
  | 0 => { exp := 8, mant := 23, bias := 127, specials := .ieee, maxCode := 0x7F7FFFFF, nanCode := 0x7FC00000 }
  | 1 => { exp := 5, mant := 10, bias := 15, specials := .ieee, maxCode := 0x7BFF, nanCode := 0x7E00 }
  | 2 => { exp := 8, mant := 7, bias := 127, specials := .ieee, maxCode := 0x7F7F, nanCode := 0x7FC0 }
  | 3 => { exp := 4, mant := 3, bias := 7, specials := .e4m3, maxCode := 0x7E, nanCode := 0x7F }
  | 4 => { exp := 5, mant := 2, bias := 15, specials := .ieee, maxCode := 0x7B, nanCode := 0x7E }
  | 5 => { exp := 3, mant := 2, bias := 3, specials := .none, maxCode := 0x1F, nanCode := 0 }
  | 6 => { exp := 2, mant := 3, bias := 1, specials := .none, maxCode := 0x1F, nanCode := 0 }
  | _ => { exp := 2, mant := 1, bias := 1, specials := .none, maxCode := 0x7, nanCode := 0 }

/-- Bits of a format. -/
def Fmt.width (f : Fmt) : Nat := 1 + f.exp + f.mant

/-- The value of an encoding (R592); higher bits are ignored (R520). -/
def fdecode (f : Fmt) (x : Nat) : FVal :=
  let neg := bitNat x (f.exp + f.mant)
  let mag := x % 2 ^ (f.exp + f.mant)
  let e := mag / 2 ^ f.mant
  let m := mag % 2 ^ f.mant
  let special := match f.specials with
    | .ieee => e == 2 ^ f.exp - 1
    | .e4m3 => mag == 0x7F
    | .none => false
  if special then (if f.specials == .ieee && m == 0 then .inf neg else .nan)
  else if e = 0 then .fin neg m (1 - (f.bias : Int) - f.mant)
  else .fin neg (2 ^ f.mant + m) ((e : Int) - f.bias - f.mant)

/-- Random bits of a stochastic rounding: their count and their value (R614). -/
structure Rnd where
  w : Nat := 0
  r : Nat := 0
  deriving DecidableEq, Repr

/-- Whether a magnitude n + rem / 2^d moves to n + 1 under a mode (Table 11-6, R599, R614). -/
def roundsUp (mode : Nat) (rnd : Rnd) (neg : Bool) (n rem d : Nat) : Bool :=
  if rem = 0 then false
  else match mode with
    | 0 => 2 * rem > 2 ^ d || (2 * rem == 2 ^ d && n % 2 == 1)
    | 1 => false
    | 2 => neg
    | 3 => !neg
    | 4 => 2 * rem ≥ 2 ^ d
    | 5 => rem * 2 ^ rnd.w / 2 ^ d + rnd.r ≥ 2 ^ rnd.w
    | _ => false

/-- m * 2^shift rounded to an integer. -/
def roundShift (mode : Nat) (rnd : Rnd) (neg : Bool) (m : Nat) (shift : Int) : Nat :=
  if 0 ≤ shift then m * 2 ^ shift.toNat
  else
    let d := (-shift).toNat
    let n := m / 2 ^ d
    if roundsUp mode rnd neg n (m % 2 ^ d) d then n + 1 else n

/-- The exponent e with 2^e ≤ m * 2^x < 2^(e+1), for m > 0 (R594). -/
def ilogbOf (m : Nat) (x : Int) : Int := (Nat.log2 m : Int) + x

/-- The magnitude code of a finite value rounded as if the exponent range had no upper end; beyond `maxCode` it is an
overflow (R596, R597). -/
def roundMag (f : Fmt) (mode : Nat) (rnd : Rnd) (neg : Bool) (m : Nat) (e : Int) : Nat :=
  if m = 0 then 0
  else
    let emin : Int := 1 - (f.bias : Int)
    let q := max (ilogbOf m e) emin - f.mant
    (q + f.mant - emin).toNat * 2 ^ f.mant + roundShift mode rnd neg m (e - q)

/-- The outcome of a conversion: the code, and whether it saturated or turned a NaN to zero (Table 13-6). -/
structure Conv where
  code : Nat
  sat : Bool := false
  nanZero : Bool := false
  deriving DecidableEq, Repr

/-- A code with its sign bit. -/
def signed (f : Fmt) (neg : Bool) (mag : Nat) : Nat := (if neg then 2 ^ (f.exp + f.mant) else 0) + mag

/-- Formats whose overflow follows IEEE 754 (Table 13-2): FP32, FP16 and BF16. -/
def Fmt.wide (f : Fmt) : Bool := f.specials == .ieee && f.mant ≠ 2

/-- A value narrowed to a format (R596, R597, Table 13-2). -/
def narrow (f : Fmt) (mode : Nat) (rnd : Rnd) : FVal → Conv
  | .nan => if f.specials = .none then { code := 0, nanZero := true } else { code := f.nanCode }
  | .inf neg =>
    if f.specials = .ieee then { code := signed f neg (f.maxCode + 1) } else { code := signed f neg f.maxCode, sat := true }
  | .fin neg m e =>
    let mag := roundMag f mode rnd neg m e
    if mag ≤ f.maxCode then { code := signed f neg mag }
    else if !f.wide then { code := signed f neg f.maxCode, sat := true }
    else
      let toMax := match mode with
        | 1 => true
        | 2 => !neg
        | 3 => neg
        | _ => false
      { code := signed f neg (if toMax then f.maxCode else f.maxCode + 1) }

/-! Exact arithmetic -/

/-- The negation of a value. -/
def FVal.neg : FVal → FVal
  | .nan => .nan
  | .inf s => .inf (!s)
  | .fin s m e => .fin (!s) m e

/-- The absolute value. -/
def FVal.abs : FVal → FVal
  | .nan => .nan
  | .inf _ => .inf false
  | .fin _ m e => .fin false m e

/-- A finite value as a signed integer times 2^x, for x at most its exponent. -/
def intAt (neg : Bool) (m : Nat) (e x : Int) : Int :=
  let n : Int := m * 2 ^ (e - x).toNat
  if neg then -n else n

/-- An integer times 2^x as a value; an exact zero takes the given sign. -/
def ofIntAt (n x : Int) (zeroNeg : Bool) : FVal :=
  if n = 0 then .fin zeroNeg 0 0 else .fin (n < 0) n.natAbs x

/-- The exact sum (IEEE 754-2019); `down` is the mode toward -inf, in which an exact zero is -0.
DEDUCED, unsafe: log 16. -/
def faddExact (down : Bool) : FVal → FVal → FVal
  | .nan, _ => .nan
  | _, .nan => .nan
  | .inf a, .inf b => if a = b then .inf a else .nan
  | .inf a, _ => .inf a
  | _, .inf b => .inf b
  | .fin a m e, .fin b n f =>
    if m = 0 && n = 0 then .fin (if a = b then a else down) 0 0
    else
      let x := min e f
      ofIntAt (intAt a m e x + intAt b n f x) x down

/-- The exact product (IEEE 754-2019). -/
def fmulExact : FVal → FVal → FVal
  | .nan, _ => .nan
  | _, .nan => .nan
  | .inf a, .inf b => .inf (a != b)
  | .inf a, .fin b m _ => if m = 0 then .nan else .inf (a != b)
  | .fin a m _, .inf b => if m = 0 then .nan else .inf (a != b)
  | .fin a m e, .fin b n f => .fin (a != b) (m * n) (e + f)

/-- The order of two finite or infinite values: -1, 0 or 1; none with a NaN. -/
def fcompare : FVal → FVal → Option Int
  | .nan, _ => none
  | _, .nan => none
  | .inf a, .inf b => some (if a = b then 0 else if a then -1 else 1)
  | .inf a, _ => some (if a then -1 else 1)
  | _, .inf b => some (if b then 1 else -1)
  | .fin a m e, .fin b n f =>
    let x := min e f
    let d := intAt a m e x - intAt b n f x
    some (if d < 0 then -1 else if d = 0 then 0 else 1)

/-- The sign of a value, for the order of zeros. -/
def FVal.isNeg : FVal → Bool
  | .nan => false
  | .inf s => s
  | .fin s _ _ => s

/-- minimumNumber (IEEE 754-2019): a NaN loses to a number, and -0 is below +0. DEDUCED, unsafe: log 16. -/
def fminNum (a b : FVal) : FVal :=
  match fcompare a b with
  | some d => if d < 0 then a else if 0 < d then b else if a.isNeg then a else b
  | none => if a = .nan then b else a

/-- maximumNumber (IEEE 754-2019). DEDUCED, unsafe: log 16. -/
def fmaxNum (a b : FVal) : FVal :=
  match fcompare a b with
  | some d => if d < 0 then b else if 0 < d then a else if a.isNeg then b else a
  | none => if a = .nan then b else a

/-- The compare codes of R513 on an order; none is a comparison with a NaN. -/
def compareCode (code : Nat) (o : Option Int) : Bool :=
  match o with
  | none => code == 1 || code == 7
  | some d => match code with
    | 0 => d == 0
    | 1 => d != 0
    | 2 => d < 0
    | 3 => d ≤ 0
    | 4 => 0 < d
    | 5 => 0 ≤ d
    | 6 => true
    | _ => false

/-- a is above b; false with a NaN. -/
def fgt (a b : FVal) : Bool := compareCode 4 (fcompare a b)

/-- Clamp to [0, 1], with NaN to +0 (R513, R515). DEDUCED, unsafe: log 16. -/
def saturate (v : FVal) : FVal :=
  match v with
  | .nan => .fin false 0 0
  | _ => match fcompare v (.fin false 0 0), fcompare v (.fin false 1 0) with
    | some a, some b => if a < 0 then .fin false 0 0 else if 0 < b then .fin false 1 0 else v
    | _, _ => v

/-- A value rounded to an integral value under a mode, with its sign kept on zero (FRND). -/
def roundIntegral (mode : Nat) : FVal → FVal
  | .fin neg m e => if 0 ≤ e then .fin neg m e else .fin neg (roundShift mode {} neg m e) 0
  | v => v

/-- The greatest integral value at most v. -/
def floorVal : FVal → FVal := roundIntegral 2

/-! Integers -/

/-- The least and greatest value of an integer format (Table 11-5, R595). -/
def intRange : Nat → Int × Int
  | 0 => (-2147483648, 2147483647)
  | 1 => (0, 4294967295)
  | 2 => (-32768, 32767)
  | 3 => (0, 65535)
  | 4 => (-128, 127)
  | 5 => (0, 255)
  | 6 => (-8, 7)
  | _ => (0, 15)

/-- Bits of an integer format. -/
def intWidth : Nat → Nat
  | 0 => 32
  | 1 => 32
  | 2 => 16
  | 3 => 16
  | 4 => 8
  | 5 => 8
  | _ => 4

/-- Signed formats have even codes (Table 11-5). -/
def intSigned (code : Nat) : Bool := code % 2 == 0

/-- The integer that the low bits of a register hold (R520, R595). -/
def intOf (code x : Nat) : Int :=
  let w := intWidth code
  let n := x % 2 ^ w
  if intSigned code && bitNat n (w - 1) then (n : Int) - 2 ^ w else n

/-- A value rounded and saturated to an integer format; NaN converts to 0 (R522, R598). -/
def toInt (code mode : Nat) (v : FVal) : Nat :=
  let (lo, hi) := intRange code
  let n : Int := match v with
    | .nan => 0
    | .inf neg => if neg then lo else hi
    | .fin neg m e =>
      let r : Int := roundShift mode {} neg m e
      if neg then -r else r
  ((max lo (min hi n)) % 2 ^ intWidth code).toNat

/-- An integer as an exact value. -/
def ofInt (n : Int) : FVal := ofIntAt n 0 false

/-! FP32 and FP16 words -/

/-- An FP32 register. -/
def f32 (x : Word) : FVal := fdecode (fmtOf 0) x.toNat

/-- An FP16 half. -/
def f16 (x : Nat) : FVal := fdecode (fmtOf 1) x

/-- A value narrowed to an FP32 register. -/
def toF32 (mode : Nat) (v : FVal) : Word := BitVec.ofNat 32 (narrow (fmtOf 0) mode {} v).code

/-- A value narrowed to FP16. -/
def toF16 (mode : Nat) (v : FVal) : Nat := (narrow (fmtOf 1) mode {} v).code

/-- A value is a finite non-zero number. -/
def FVal.isNonzero : FVal → Bool
  | .fin _ m _ => m ≠ 0
  | _ => false

/-- A value is a zero. -/
def FVal.isZero : FVal → Bool
  | .fin _ m _ => m = 0
  | _ => false

/-- A value is a negative zero. -/
def FVal.isNegZero : FVal → Bool
  | .fin s m _ => s && m = 0
  | _ => false

/-! Bounded approximations (R516). A rational p / q with q > 0 and a tolerance, in which a free result must lie. -/

/-- The FP32 value x differs from (p / q) * 2^e by at most tol * 2^-s, all as exact integers. -/
def nearBy (x : FVal) (p : Int) (e : Int) (tolNum : Nat) (tolExp : Int) : Bool :=
  match x with
  | .fin neg m f =>
    let b := min (min e f) tolExp
    let d := intAt neg m f b - p * 2 ^ (e - b).toNat
    d.natAbs ≤ tolNum * 2 ^ (tolExp - b).toNat
  | _ => false

/-- The exponent of one unit in the last place of FP32 near a positive m * 2^e. -/
def ulpExp (m : Nat) (e : Int) : Int := max (ilogbOf m e) (-126) - 23

/-- A free result that satisfies a bound, else the value given. DESIGN CHOICE, safe: log 15. -/
def boundedFree (free : Word) (ok : FVal → Bool) (other : Word) : Word :=
  if ok (f32 free) && free.toNat % 2 ^ 31 ≤ (fmtOf 0).maxCode then free else other

/-- The integer square root, bit by bit from bit n - 1 of the root. -/
def isqrt (x : Nat) : Nat → Nat → Nat
  | 0, r => r
  | n + 1, r => if (r + 2 ^ n) * (r + 2 ^ n) ≤ x then isqrt x n (r + 2 ^ n) else isqrt x n r

/-- Bits of fraction carried by the approximations. -/
def apxBits : Nat := 96

/-- A positive approximation p * 2^e of the result, good to far below one ulp: the free value where it lies within n ulp,
with 2^-20 of an ulp for the approximation's own error, else the nearest FP32. DESIGN CHOICE, safe: log 15. -/
def within (n : Nat) (neg : Bool) (p : Nat) (e : Int) (free : Word) : Word :=
  let u := ulpExp p e
  boundedFree free (fun x => nearBy x (if neg then -(p : Int) else p) e (n * 2 ^ 20 + 1) (u - 20)) (toF32 0 (.fin neg p e))

/-- FRCP: 1 / a within 1 ulp; 1 / ±0 = ±∞ and 1 / ±∞ = ±0 (R516). DESIGN CHOICE, safe: log 15. -/
def frcp (a : FVal) (free : Word) : Word :=
  match a with
  | .nan => 0x7FC00000#32
  | .inf neg => toF32 0 (.fin neg 0 0)
  | .fin neg m e =>
    if m = 0 then toF32 0 (.inf neg)
    else
      let k := apxBits + Nat.log2 m
      let v : FVal := .fin neg (2 ^ k / m) (-(k : Int) - e)
      if (narrow (fmtOf 0) 0 {} v).code % 2 ^ 31 > (fmtOf 0).maxCode then toF32 0 v
      else within 1 neg (2 ^ k / m) (-(k : Int) - e) free

/-- The square root of m * 2^e as p * 2^x with apxBits of fraction. -/
def sqrtOf (m : Nat) (e : Int) : Nat × Int :=
  let odd : Int := e % 2
  let k : Int := 2 * apxBits
  let n := m * 2 ^ (k + odd).toNat
  (isqrt n (Nat.log2 n / 2 + 1) 0, (e - odd - k) / 2)

/-- FSQRT: √a within 1 ulp; √±0 = ±0, √+∞ = +∞, and NaN below zero (R516). DESIGN CHOICE, safe: log 15. -/
def fsqrt (a : FVal) (free : Word) : Word :=
  match a with
  | .nan => 0x7FC00000#32
  | .inf neg => if neg then 0x7FC00000#32 else toF32 0 (.inf false)
  | .fin neg m e =>
    if m = 0 then toF32 0 (.fin neg 0 0)
    else if neg then 0x7FC00000#32
    else
      let r := sqrtOf m e
      within 1 false r.1 r.2 free

/-- FRSQ: 1 / √a within 1 ulp; 1 / √±0 = ±∞, 1 / √+∞ = +0, and NaN below zero (R516). DESIGN CHOICE, safe: log 15. -/
def frsq (a : FVal) (free : Word) : Word :=
  match a with
  | .nan => 0x7FC00000#32
  | .inf neg => if neg then 0x7FC00000#32 else toF32 0 (.fin false 0 0)
  | .fin neg m e =>
    if m = 0 then toF32 0 (.inf neg)
    else if neg then 0x7FC00000#32
    else
      let r := sqrtOf m e
      let k := apxBits + Nat.log2 r.1
      within 1 false (2 ^ k / r.1) (-(k : Int) - r.2) free

/-- 2^(2^-i) for i = 1, 2, ... scaled by 2^apxBits: square roots of the one before. -/
def expRoots : Nat → Nat → List Nat
  | 0, _ => []
  | n + 1, prev =>
    let x := prev * 2 ^ apxBits
    let r := isqrt x (apxBits + 1) 0
    r :: expRoots n r

/-- 2^f for a fraction f of `n` bits, scaled by 2^apxBits. -/
def exp2Frac (f n : Nat) : Nat :=
  ((expRoots n (2 * 2 ^ apxBits)).zipIdx).foldl (fun acc e =>
    if bitNat f (n - 1 - e.2) then acc * e.1 / 2 ^ apxBits else acc) (2 ^ apxBits)

/-- Bits of the argument's fraction that FEXP2 reads; what lies below moves the result by less than 2^-60 of itself. -/
def expArgBits : Nat := 64

/-- FEXP2: 2^a within 2 ulp; 2^±0 = 1, 2^-∞ = +0, 2^+∞ = +∞, overflow gives +∞ (R516). DESIGN CHOICE, safe: log 15. -/
def fexp2 (a : FVal) (free : Word) : Word :=
  match a with
  | .nan => 0x7FC00000#32
  | .inf neg => if neg then 0#32 else toF32 0 (.inf false)
  | .fin neg m e =>
    if m = 0 then 0x3F800000#32
    else if fgt a (.fin false 1024 0) then toF32 0 (.inf false)
    else if fgt (.fin true 1024 0) a then
      boundedFree free (fun x => nearBy x 0 0 2 (-149)) 0#32
    else
      let n : Int := intAt neg m (if 0 ≤ e + expArgBits then e + expArgBits else 0) 0
      let n : Int := if 0 ≤ e + expArgBits then n
        else (if neg then -((m : Int) / 2 ^ (-(e + expArgBits)).toNat) else (m : Int) / 2 ^ (-(e + expArgBits)).toNat)
      let whole := n / 2 ^ expArgBits
      let frac := (n % 2 ^ expArgBits).toNat
      let p := exp2Frac frac expArgBits
      let v : FVal := .fin false p (whole - apxBits)
      if (narrow (fmtOf 0) 0 {} v).code > (fmtOf 0).maxCode then toF32 0 (.inf false)
      else within 2 false p (whole - apxBits) free

/-- The first n bits of log2 x for x in [1, 2) scaled by 2^apxBits, by repeated squaring. -/
def log2Bits : Nat → Nat → Nat → Nat
  | 0, _, acc => acc
  | n + 1, x, acc =>
    let y := x * x / 2 ^ apxBits
    if y ≥ 2 * 2 ^ apxBits then log2Bits n (y / 2) (2 * acc + 1) else log2Bits n y (2 * acc)

/-- FLOG2: log2 a within 2 ulp; log2 1 = +0, log2 ±0 = -∞, log2 +∞ = +∞, and NaN below zero (R516).
DESIGN CHOICE, safe: log 15. -/
def flog2 (a : FVal) (free : Word) : Word :=
  match a with
  | .nan => 0x7FC00000#32
  | .inf neg => if neg then 0x7FC00000#32 else toF32 0 (.inf false)
  | .fin neg m e =>
    if m = 0 then toF32 0 (.inf true)
    else if neg then 0x7FC00000#32
    else
      let l := Nat.log2 m
      let f := log2Bits expArgBits (m * 2 ^ apxBits / 2 ^ l) 0
      let n : Int := ((l : Int) + e) * 2 ^ expArgBits + f
      if n = 0 then 0#32
      else within 2 (n < 0) n.natAbs (-(expArgBits : Int)) free

/-- 2π scaled by 2^80. -/
def twoPi80 : Nat := 7595904947272677161575987

/-- Terms of the series of sin or cos at x (scaled by 2^80), from the term `t` with next index k. -/
def sinSeries : Nat → Int → Nat → Int → Int → Int
  | 0, _, _, _, acc => acc
  | n + 1, x, k, t, acc =>
    let t' := -(t * x / 2 ^ 80 * x / 2 ^ 80) / (k * (k + 1))
    sinSeries n x (k + 2) t' (acc + t')

/-- sin 2πf scaled by 2^80, for a fraction f of 80 bits. -/
def sin80 (f : Nat) : Int :=
  let f' : Int := if f ≥ 2 ^ 79 then (f : Int) - 2 ^ 80 else f
  let x := f' * twoPi80 / 2 ^ 80
  sinSeries 24 x 2 x x

/-- The fraction of a finite value, of 80 bits. -/
def frac80 (neg : Bool) (m : Nat) (e : Int) : Nat :=
  let n : Int := if 0 ≤ e + 80 then intAt neg m (e + 80) 0
    else (if neg then -1 else 1) * ((m : Int) / 2 ^ (-(e + 80)).toNat)
  (n % 2 ^ 80).toNat

/-- FSIN and FCOS: within 2^-20 for |a| below 2^15, NaN for an infinite a, ±0 and 1 at ±0; beyond 2^15 the result is not stated and is
free (R516). `shift` is the turn added: 0 for sin, a quarter for cos. DESIGN CHOICE, safe: log 15. -/
def fsincos (a : FVal) (shift : Nat) (free : Word) : Word :=
  match a with
  | .nan => 0x7FC00000#32
  | .inf _ => 0x7FC00000#32
  | .fin neg m e =>
    if m = 0 then (if shift = 0 then toF32 0 (.fin neg 0 0) else 0x3F800000#32)
    else if !fgt (.fin false 32768 0) a.abs then free
    else
      let r := sin80 ((frac80 neg m e + shift) % 2 ^ 80)
      boundedFree free (fun x => nearBy x r (-80) (2 ^ 40 + 1) (-60)) (toF32 0 (ofIntAt r (-80) false))

end Sys2Proof.Machine
end

