-- ==== Sys2Proof/Machine/Operands.lean ====
section
/-!
DEFINITION. Instruction words of the shader core: the base word's fields, the operand forms and modifiers that each opcode
allows, the reasons that make an encoding illegal, and reading and writing registers (spec 11).
-/

namespace Sys2Proof.Machine

/-- The fields of an instruction word (Table 11-1). -/
structure IWord where
  op : Nat
  ext : Bool
  pen : Bool
  pneg : Bool
  pred : Nat
  d : Nat
  dk : Nat
  a : Nat
  ak : Nat
  b : Nat
  bk : Nat
  c : Nat
  ck : Nat
  mod : Nat
  aux : Nat
  res : Bool
  imm : Word
  deriving DecidableEq, Repr

/-- The fields of a fetched instruction. -/
def iword (w : Insn) : IWord :=
  let f := fieldNat w.base
  { op := f 7 0, ext := bitOf w.base 8, pen := bitOf w.base 9, pneg := bitOf w.base 10, pred := f 13 11
    d := f 21 14, dk := f 23 22, a := f 31 24, ak := f 33 32, b := f 41 34, bk := f 43 42, c := f 51 44, ck := f 53 52
    mod := f 59 54, aux := f 62 60, res := bitOf w.base 63, imm := if bitOf w.base 8 then w.ext else 0#32 }

/-- Bytes of an instruction (R501). -/
def IWord.len (w : IWord) : Nat := if w.ext then 12 else 8

/-! Operand kinds (Table 11-2): 0 vector, 1 scalar, 2 predicate, 3 immediate or none -/

/-- What an opcode allows in one operand position: kinds, and how many registers it names with which alignment. An empty
list of kinds is a position that the opcode does not use (R508). -/
structure Opd where
  kinds : List Nat := []
  width : Nat := 1
  align : Nat := 1
  deriving DecidableEq, Repr

/-- What an opcode allows (Table 11-3, Table 11-4, Table 11-8, Table 11-8a). `scalar` says that DK = S puts it in scalar
form (R509); `imm` that it uses IMM32 without a source of kind I. -/
structure Shape where
  d : Opd := {}
  a : Opd := {}
  b : Opd := {}
  c : Opd := {}
  modMask : Nat := 0
  auxMask : Nat := 0
  valid : Bool := true
  scalar : Bool := false
  imm : Bool := false
  deriving DecidableEq, Repr

/-- A destination of a vector or scalar register. -/
def opdVS : Opd := { kinds := [0, 1] }
/-- Any source but a predicate. -/
def opdSrc : Opd := { kinds := [0, 1, 3] }
/-- A scalar register or an immediate. -/
def opdSI : Opd := { kinds := [1, 3] }
/-- A vector register. -/
def opdV : Opd := { kinds := [0] }
/-- A scalar register. -/
def opdS : Opd := { kinds := [1] }
/-- A predicate. -/
def opdP : Opd := { kinds := [2] }
/-- An immediate field of a Madder instruction. -/
def opdI : Opd := { kinds := [3] }
/-- An operand with a width in registers, aligned to it (R506). -/
def Opd.wide (o : Opd) (n : Nat) : Opd := { o with width := n, align := n }

/-- Registers of a memory width code (Table 11-3, R506). -/
def widthRegs (w : Nat) : Nat := if w = 5 then 2 else if w = 6 then 4 else 1

/-- Bytes of a memory width code. -/
def widthBytes (w : Nat) : Nat :=
  match w with
  | 0 => 1
  | 1 => 1
  | 2 => 2
  | 3 => 2
  | 4 => 4
  | 5 => 8
  | _ => 16

/-- Sources of an ALU instruction of n operands. -/
def aluShape (n : Nat) : Shape :=
  { d := opdVS, a := opdSrc, b := if 2 ≤ n then opdSrc else {}, c := if 3 ≤ n then opdSrc else {}, scalar := true }

/-- FP arithmetic of n operands (Table 11-3 row 1). -/
def fpShape (n : Nat) (w : IWord) (rounds : Bool) : Shape :=
  { aluShape n with
    modMask := if n = 3 then 0x3F else 0x3B, auxMask := 7, valid := if rounds then w.aux ≤ 3 else w.aux = 0 }

/-- Coordinate registers of a sampler instruction (R532). -/
def coordCount (dim lod : Nat) (compare : Bool) : Nat :=
  let base := match dim with
    | 0 => 1
    | 1 => 2
    | 2 => 3
    | 3 => 3
    | 4 => 2
    | 5 => 3
    | _ => 4
  let grads := match dim with
    | 0 => 2
    | 1 => 4
    | 4 => 2
    | 5 => 4
    | _ => 6
  base + natOfBool compare + (match lod with
    | 0 => 0
    | 1 => 1
    | 2 => 1
    | _ => grads)

/-- A sampler instruction (R532). -/
def samplerShape (w : IWord) (sampler : Bool) : Shape :=
  { d := opdV.wide 4, a := { opdV with width := coordCount (w.mod % 8) (w.mod / 8 % 4) (bitNat w.mod 5) }
    b := { opdS with width := 8, align := 8 }, c := if sampler then { opdS with width := 4, align := 4 } else {}
    modMask := 0x3F, valid := w.mod % 8 ≤ 6 }

/-- A load or store in local, private or global space (Table 11-8a); `pair` says that A is a 64-bit VA. -/
def memShape (w : IWord) (store pair : Bool) : Shape :=
  let data := widthRegs (w.mod % 8)
  let base : Opd := { kinds := [0, 1] }
  { d := if store then {} else opdV.wide data, a := if pair then base.wide 2 else base, b := opdSrc
    c := if store then ({ kinds := [0, 1] } : Opd).wide data else {}, modMask := 7
    valid := if store then [0, 2, 4, 5, 6].contains (w.mod % 8) else w.mod % 8 ≤ 6 }

/-- An atomic (Table 11-8a, R530). -/
def atomShape (w : IWord) (pair : Bool) : Shape :=
  let n := if bitNat w.aux 2 then 2 else 1
  let base : Opd := { kinds := [0, 1] }
  let op := w.mod % 16
  { d := { (opdV.wide n) with kinds := [0, 3] }, a := if pair then base.wide 2 else base, b := opdSrc.wide n
    c := if op = 2 then opdSrc.wide n else {}, modMask := 0x3F, auxMask := 7, imm := true
    valid := op ≤ 10 && !(op == 10 && n == 2) && (pair || w.mod / 16 ≤ 1) }

/-- The formats of an MMA or MMAF operand: float code, or 0 for an integer with its INT4 bit (R553). -/
def pairOk (acode bcode : Nat) (aint4 bint4 : Bool) : Bool :=
  if acode = 0 && bcode = 0 then aint4 == bint4
  else if 3 ≤ acode && acode ≤ 6 then 3 ≤ bcode && bcode ≤ 6
  else acode == bcode && acode ≠ 0

/-- Registers of an MMAF operand fragment (R566). -/
def fragRegs (code : Nat) : Nat := if code = 5 || code = 6 then 6 else 8

/-- The operand forms of an opcode, none where it is undefined (R514). -/
def shapeOf (w : IWord) : Option Shape :=
  match w.op with
  | 0x00 => some {}
  | 0x01 => some (aluShape 1)
  | 0x02 => some { aluShape 2 with c := { kinds := if w.dk = 1 then [1] else [2] } }
  | 0x03 => some (aluShape 2)
  | 0x04 => some (aluShape 2)
  | 0x05 => some (aluShape 2)
  | 0x06 => some { aluShape 2 with modMask := 1 }
  | 0x07 => some (aluShape 3)
  | 0x08 => some { aluShape 2 with modMask := 1 }
  | 0x09 => some { aluShape 2 with modMask := 1 }
  | 0x0A => some (aluShape 2)
  | 0x0B => some (aluShape 2)
  | 0x0C => some (aluShape 2)
  | 0x0D => some (aluShape 1)
  | 0x0E => some (aluShape 2)
  | 0x0F => some (aluShape 2)
  | 0x10 => some (aluShape 2)
  | 0x11 => some { aluShape 3 with modMask := 1 }
  | 0x12 => some (aluShape 3)
  | 0x13 => some (aluShape 1)
  | 0x14 => some (aluShape 1)
  | 0x15 => some (aluShape 1)
  | 0x16 => some { aluShape 2 with d := { kinds := [1, 2] }, modMask := 0xF, valid := w.mod % 8 ≤ 5 }
  | 0x17 => some { aluShape 2 with d := opdVS.wide 2, a := opdSrc.wide 2, b := opdSrc.wide 2 }
  | 0x18 => some { aluShape 2 with d := opdVS.wide 2, c := opdSrc.wide 2, modMask := 1 }
  | 0x20 => some (fpShape 2 w true)
  | 0x21 => some (fpShape 2 w true)
  | 0x22 => some (fpShape 3 w true)
  | 0x23 => some (fpShape 2 w false)
  | 0x24 => some (fpShape 2 w false)
  | 0x25 => some { aluShape 2 with d := { kinds := [1, 2] }, modMask := 0x37 }
  | 0x26 => some { aluShape 1 with modMask := 9 }
  | 0x27 => some { aluShape 1 with modMask := 9 }
  | 0x28 => some { aluShape 1 with modMask := 9 }
  | 0x29 => some { aluShape 1 with modMask := 9 }
  | 0x2A => some { aluShape 1 with modMask := 9 }
  | 0x2B => some { aluShape 1 with modMask := 9 }
  | 0x2C => some { aluShape 1 with modMask := 9 }
  | 0x2D => some { aluShape 1 with modMask := 9 }
  | 0x2E => some { aluShape 1 with modMask := 0x29, auxMask := 7, valid := w.aux ≤ 4 }
  | 0x30 => some (fpShape 2 w true)
  | 0x31 => some (fpShape 2 w true)
  | 0x32 => some (fpShape 3 w true)
  | 0x33 => some (fpShape 2 w false)
  | 0x34 => some (fpShape 2 w false)
  | 0x35 => some { aluShape 2 with d := opdP.wide 2, modMask := 0x37, scalar := false }
  | 0x38 => some { aluShape 1 with modMask := 0x3F, auxMask := 7
                                   valid := w.aux ≤ 4 || (w.aux == 5 && w.mod / 8 == 0 && w.mod % 8 != 0) }
  | 0x39 => some { aluShape 1 with modMask := 0x3F, auxMask := 7, valid := w.aux ≤ 4 }
  | 0x3A => some { aluShape 1 with modMask := 0x3F, auxMask := 7, valid := w.aux ≤ 4 || (w.aux == 5 && w.mod % 8 != 0) }
  | 0x3B => some { d := opdS.wide 2, a := opdSrc, b := opdSI, modMask := 0xF, valid := 3 ≤ w.mod % 8 }
  | 0x3C => some { aluShape 1 with b := opdS, c := opdS, modMask := 7, auxMask := 7
                                   valid := 3 ≤ w.mod % 8 && (w.aux == 0 || w.aux == 5) }
  | 0x3D => some { aluShape 1 with b := opdS, c := opdS, modMask := 7, valid := 3 ≤ w.mod % 8 }
  | 0x40 => some { aluShape 2 with modMask := 3 }
  | 0x41 => some { d := opdS, a := opdV, b := opdSI }
  | 0x42 => some { d := opdS, c := opdP }
  | 0x43 => some { d := opdS, a := opdSrc, modMask := 0xF, valid := w.mod % 16 ≤ 10 }
  | 0x44 => some { d := if w.mod = 0 then opdV else opdS, modMask := 0x3F, valid := w.mod ≤ 8 }
  | 0x45 => some { d := opdP, a := opdP, b := opdP, modMask := 0xF }
  | 0x46 => some { d := opdP, a := opdS }
  | 0x50 => some (memShape w false true)
  | 0x51 => some (memShape w true true)
  | 0x52 => some { d := opdS.wide (widthRegs (w.mod % 8)), a := opdS.wide 2, b := opdSI, modMask := 7
                   valid := 4 ≤ w.mod % 8 && w.mod % 8 ≤ 6 }
  | 0x53 => some (memShape w false false)
  | 0x54 => some (memShape w true false)
  | 0x55 => some (memShape w false false)
  | 0x56 => some (memShape w true false)
  | 0x57 => some (atomShape w true)
  | 0x58 => some (atomShape w false)
  | 0x59 => some { modMask := 3 }
  | 0x5A => some {}
  | 0x60 => some (samplerShape w true)
  | 0x61 => some (samplerShape w false)
  | 0x62 => some (samplerShape w true)
  | 0x63 => some (samplerShape w false)
  | 0x64 => some { d := opdV.wide 4, a := opdI, modMask := 7, valid := w.a ≤ 31 }
  | 0x65 => some { d := opdI, a := opdV.wide 4, valid := w.d ≤ 34 && w.bk == 3 && w.b == 0 && w.ck == 3 && w.c == 0 }
  | 0x66 => some { d := opdI, a := opdV.wide 4, valid := w.d ≤ 9 || w.d == 16 }
  | 0x67 => some {}
  | 0x70 => some { imm := true }
  | 0x71 => some { a := { kinds := [0, 1] } }
  | 0x72 => some { d := opdVS, imm := true }
  | 0x73 => some {}
  | 0x74 => some { a := opdS }
  | 0x80 => some { d := opdI, a := opdS.wide 2, b := opdSI, modMask := 0x3F, auxMask := 5,
                   valid := w.d ≤ 7 && w.mod / 8 ≤ 4 && (w.mod % 8 == 0 || w.aux == 0) &&
                     !((w.mod / 8 == 1 || w.mod / 8 == 2) && (w.mod % 8 == 1 || w.mod % 8 == 2)) &&
                     !(w.mod / 8 == 2 && w.mod % 8 == 0) }
  | 0x81 => some { d := opdI, a := opdI, b := opdI, modMask := 1, valid := w.a ≤ 7 && w.b ≤ 7 }
  | 0x82 => some { a := opdS.wide 2, b := opdSI, c := opdI, modMask := 7, auxMask := 7
                   valid := w.aux ≤ 4 || (w.aux == 5 && w.mod % 8 != 0) }
  | 0x83 => some { d := opdI }
  | 0x84 => some { d := { opdV with width := 8, align := 8 }, a := { opdV with width := fragRegs (w.mod % 8), align := 8 }
                   b := { opdV with width := fragRegs (w.mod / 8), align := 8 }, c := { kinds := [0, 3], width := 8, align := 8 }
                   modMask := 0x3F, auxMask := 7
                   valid := pairOk (w.mod % 8) (w.mod / 8) (bitNat w.aux 2) (bitNat w.aux 2) && (w.mod % 8 == 0 || w.aux == 0) }
  | 0x85 => some {}
  | _ => none

/-- An instruction is in scalar form (R509). -/
def IWord.scalarForm (w : IWord) : Bool := w.dk == 1 && ((shapeOf w).map Shape.scalar).getD false

/-- The four operand positions with what the opcode allows there: (kind, field, form). -/
def positions (w : IWord) (sh : Shape) : List (Nat × Nat × Opd) :=
  [(w.dk, w.d, sh.d), (w.ak, w.a, sh.a), (w.bk, w.b, sh.b), (w.ck, w.c, sh.c)]

/-- A position that may hold a vector register or none: the old value of an atomic, the input fragment of MMAF. -/
def orNone (o : Opd) : Bool := o.kinds == [0, 3]

/-- An unused position that is not encoded as none (R508). -/
def unusedBad (p : Nat × Nat × Opd) : Bool :=
  (p.2.2.kinds.isEmpty && !(p.1 == 3 && p.2.1 == 0)) || (orNone p.2.2 && p.1 == 3 && p.2.1 != 0)

/-- A kind that is not allowed in its position. -/
def kindBad (p : Nat × Nat × Opd) : Bool := !p.2.2.kinds.isEmpty && !p.2.2.kinds.contains p.1

/-- A scalar register at or above 64, a predicate field above 7, or a misaligned group of registers (R505, R506). -/
def fieldBad (p : Nat × Nat × Opd) : Bool :=
  !p.2.2.kinds.isEmpty && match p.1 with
    | 0 => p.2.1 % p.2.2.align != 0
    | 1 => p.2.1 ≥ 64 || p.2.1 % p.2.2.align != 0
    | 2 => p.2.1 ≥ 8 || p.2.1 % p.2.2.align != 0
    | _ => false

/-- A source of kind I that the instruction uses. -/
def usesImm (w : IWord) (sh : Shape) : Bool :=
  sh.imm || (((positions w sh).drop 1).any fun p => !p.2.2.kinds.isEmpty && p.1 == 3 && p.2.2 != opdI && !orNone p.2.2)

/-- Graphics instructions and the kind of program that each belongs to (R534). -/
def graphicsBad (w : IWord) (k : GroupKind) : Bool :=
  let frag := match k with
    | .fragment .. => true
    | _ => false
  let vert := match k with
    | .vertex _ => true
    | _ => false
  match w.op with
  | 0x64 => !frag
  | 0x65 => !vert
  | 0x66 => !frag
  | 0x67 => !frag
  | _ => false

/-- The lowest reason of Table 11-11 that makes an encoding illegal, by its encoding, the kind of program and the active
mask; BRX targets are judged when the instruction executes. -/
def illegalReason (w : IWord) (k : GroupKind) (active : Word) : Option Nat :=
  match shapeOf w with
  | none => some 1
  | some sh =>
    let ps := positions w sh
    if w.res || w.mod &&& (0x3F - sh.modMask) != 0 || w.aux &&& (7 - sh.auxMask) != 0 || (w.op != 0x65 && ps.any unusedBad) then some 2
    else if ps.any kindBad || (w.scalarForm && (ps.drop 1).any fun p => !p.2.2.kinds.isEmpty && p.1 != 1 && p.1 != 3) then some 3
    else if ps.any fieldBad then some 4
    else if !sh.valid then some 5
    else if (w.op == 0x70 || w.op == 0x72) && !w.ext then some 6
    else if w.ext && !usesImm w sh then some 6
    else if graphicsBad w k then some 7
    else if (w.op == 0x5A && w.pen) || (w.op == 0x84 && active != 0xFFFFFFFF#32) then some 9
    else none

/-- A vector register named at or beyond 8 × VREGS (R511). -/
def vregRange (w : IWord) (vregs : Nat) : Bool :=
  match shapeOf w with
  | none => false
  | some sh => (positions w sh).any fun p => !p.2.2.kinds.isEmpty && p.1 == 0 && p.2.1 + p.2.2.width > 8 * vregs

/-! Registers -/

/-- A vector register of a lane. -/
def vreg (g : Group) (r lane : Nat) : Word := (g.v.getD r []).getD lane 0#32

/-- A scalar register. -/
def sreg (g : Group) (r : Nat) : Word := g.sregs.getD r 0#32

/-- A predicate of a lane. -/
def preg (g : Group) (r lane : Nat) : Bool := (g.preds.getD r 0#32).getLsbD lane

/-- The immediate that a field of kind I reads (R507). -/
def immOf (w : IWord) (field : Nat) : Word := if w.ext then w.imm else (BitVec.ofNat 8 field).signExtend 32

/-- A 32-bit source of a lane (Table 11-2, R507). -/
def src (g : Group) (w : IWord) (kind field lane : Nat) : Word :=
  match kind with
  | 0 => vreg g field lane
  | 1 => sreg g field
  | 2 => if preg g field lane then 1#32 else 0#32
  | _ => immOf w field

/-- A 64-bit source of a lane (R506, R507). -/
def src64 (g : Group) (w : IWord) (kind field lane : Nat) : Dword :=
  match kind with
  | 3 => (immOf w field).signExtend 64
  | _ => (src g w kind (field + 1) lane) ++ (src g w kind field lane)

/-- Sources A, B and C of a lane. -/
def srcA (g : Group) (w : IWord) (lane : Nat) : Word := src g w w.ak w.a lane
/-- Source B. -/
def srcB (g : Group) (w : IWord) (lane : Nat) : Word := src g w w.bk w.b lane
/-- Source C. -/
def srcC (g : Group) (w : IWord) (lane : Nat) : Word := src g w w.ck w.c lane

/-- A vector register of a lane written. -/
def setVreg (g : Group) (r lane : Nat) (x : Word) : Group := { g with v := g.v.modify r fun l => l.set lane x }

/-- A scalar register written. -/
def setSreg (g : Group) (r : Nat) (x : Word) : Group := { g with sregs := g.sregs.set r x }

/-- A predicate of a lane written. -/
def setPreg (g : Group) (r lane : Nat) (x : Bool) : Group :=
  let bit : Word := 1#32 <<< lane
  { g with preds := g.preds.modify r fun p => if x then p ||| bit else p &&& ~~~bit }

/-- Lanes of a mask, in ascending order. -/
def lanesOf (m : Word) : List Nat := (List.range 32).filter fun l => m.getLsbD l

/-- A mask of lanes. -/
def maskOf (l : List Nat) : Word := BitVec.ofNat 32 ((l.map fun k => 2 ^ k).sum)

/-- Threads that run (R463). -/
def runningLanes (g : Group) : List Nat := (List.range 32).filter fun l => g.sts.getD l .exited == .running

/-- The PC that a group issues at: the lowest of any running thread (R463). -/
def groupPc (g : Group) : Option Nat := leastNat ((runningLanes g).map fun l => g.pcs.getD l 0)

/-- The active mask at a PC (R463). -/
def activeMask (g : Group) (pc : Nat) : Word := maskOf ((runningLanes g).filter fun l => g.pcs.getD l 0 == pc)

/-- The lanes that execute an instruction in vector form (R512). -/
def runMask (g : Group) (w : IWord) (active : Word) : Word :=
  if w.pen then maskOf ((lanesOf active).filter fun l => preg g w.pred l != w.pneg) else active

/-- Per-lane results written to the destination register of the executing lanes, or once to a scalar register. -/
def writeResult (g : Group) (w : IWord) (lanes : List Nat) (f : Nat → Word) : Group :=
  if w.dk = 1 then setSreg g w.d (f 0)
  else lanes.foldl (fun g' l => setVreg g' w.d l (f l)) g

/-- Per-lane 64-bit results. -/
def writeResult64 (g : Group) (w : IWord) (lanes : List Nat) (f : Nat → Dword) : Group :=
  let lo := fun l => (f l).extractLsb' 0 32
  let hi := fun l => (f l).extractLsb' 32 32
  if w.dk = 1 then setSreg (setSreg g w.d (lo 0)) (w.d + 1) (hi 0)
  else lanes.foldl (fun g' l => setVreg (setVreg g' w.d l (lo l)) (w.d + 1) l (hi l)) g

/-- Per-lane conditions written to a predicate of the executing lanes, or once as 1 or 0 to a scalar register (R514). -/
def writeCond (g : Group) (w : IWord) (lanes : List Nat) (f : Nat → Bool) : Group :=
  if w.dk = 1 then setSreg g w.d (if f 0 then 1#32 else 0#32)
  else lanes.foldl (fun g' l => setPreg g' w.d l (f l)) g

/-- Threads of a mask moved to a PC. -/
def setPcs (g : Group) (lanes : List Nat) (f : Nat → Nat) : Group :=
  { g with pcs := g.pcs.zipIdx.map fun e => if lanes.contains e.2 then f e.2 else e.1 }

/-- Threads put into a status. -/
def setSts (g : Group) (lanes : List Nat) (x : ThreadSt) : Group :=
  { g with sts := g.sts.zipIdx.map fun e => if lanes.contains e.2 then x else e.1 }

end Sys2Proof.Machine
end

