-- ==== Sys2Proof/Machine/Flags.lean ====
section
/-!
DEFINITION. The numeric status of a thread group (Table 13-6, R607, R611), the stochastic generator (R614 to R617), and the
encoding and decoding of scaled blocks (R600 to R608).
-/

namespace Sys2Proof.Machine

/-- The sticky flags of Table 13-6. -/
inductive NumFlag where
  | negZeroLost | saturated | nanToZero | nanBlock | scaleClamped | escapeDeclined
  deriving DecidableEq, Repr

/-- The bit of a sticky flag (Table 13-6). -/
def NumFlag.bit : NumFlag → Nat
  | .negZeroLost => 0
  | .saturated => 1
  | .nanToZero => 2
  | .nanBlock => 3
  | .scaleClamped => 4
  | .escapeDeclined => 5

/-- A flag ORed into the pending flags. -/
def orFlag (flags : Nat) (f : NumFlag) (on : Bool) : Nat := if on then flags ||| 2 ^ f.bit else flags

/-- What one conversion adds to the pending state (R607, R611): a saturated or NaN-to-zero result, a lost negative zero,
a flushed element. -/
structure NumEvent where
  sat : Bool := false
  nanZero : Bool := false
  negZero : Bool := false
  flush : Bool := false
  deriving DecidableEq, Repr

/-- The pending state after a conversion (R611). -/
def Numeric.note (n : Numeric) (e : NumEvent) : Numeric :=
  { n with
    flags := orFlag (orFlag (orFlag n.flags .saturated e.sat) .nanToZero e.nanZero) .negZeroLost e.negZero
    flush := if e.flush then satAdd 32 n.flush 1 else n.flush }

/-! The stochastic generator -/

/-- One mixing step (R615). -/
def mixWord (h v : Word) : Word :=
  let h := (h ^^^ v) * 0xa5c36e4b#32
  let h := (h ^^^ (h >>> 16)) * 0x5f2d91c7#32
  h ^^^ (h >>> 13)

/-- A draw from the seed, the launch identity, a lane argument and a counter (R615, R617). -/
def drawWord (n : Numeric) (lane counter : Word) : Word :=
  mixWord (mixWord (mixWord (mixWord (mixWord n.seed n.id0) n.id1) n.id2) lane) counter

/-- The lane argument of a thread: j << 5 | lane (R615). -/
def laneArg (n : Numeric) (lane : Nat) : Word := BitVec.ofNat 32 (n.j * 32 + lane)

/-- Random bits per conversion by destination code (Table 13-7). -/
def srBits (code : Nat) : Nat := if code ≤ 2 then 16 else if code = 7 then 8 else 12

/-- The random bits of a lane's conversion to a code (R614, R617). -/
def laneRnd (n : Numeric) (lane code : Nat) : Rnd :=
  let w := srBits code
  { w := w, r := (drawWord n (laneArg n lane) (n.draws.getD lane 0#32)).toNat % 2 ^ w }

/-- The random bits of element (i, j) of a tile (R617). -/
def tileRnd (n : Numeric) (i j code : Nat) : Rnd :=
  let w := srBits code
  { w := w, r := (drawWord n (BitVec.ofNat 32 (0x100 + 16 * i + j)) n.madderDraw).toNat % 2 ^ w }

/-- A lane's draw counter advanced (R521, R617). -/
def Numeric.advance (n : Numeric) (lane : Nat) : Numeric := { n with draws := n.draws.modify lane (· + 1#32) }

/-! Conversions that count -/

/-- A finite non-zero value whose code is ±0 (R607). -/
def flushedTo (f : Fmt) (v : FVal) (code : Nat) : Bool := v.isNonzero && code % 2 ^ (f.exp + f.mant) = 0

/-- A conversion between float codes with what it adds to the pending state; equal codes copy, with FP32 and FP16 NaNs made canonical
(R520, R596, R597, R607). -/
def convertFloat (dst srcCode mode : Nat) (rnd : Rnd) (x : Nat) : Nat × NumEvent :=
  let f := fmtOf srcCode
  let g := fmtOf dst
  let v := fdecode f x
  if dst = srcCode then (if v = .nan && dst ≤ 1 then g.nanCode else x % 2 ^ g.width, {})
  else
    let c := narrow g mode rnd v
    (c.code, { sat := c.sat, nanZero := c.nanZero, flush := g.width < f.width && flushedTo g v c.code })

/-- A conversion from an integer code to a float code (R598, R607). -/
def convertInt (dst srcCode mode : Nat) (rnd : Rnd) (x : Nat) : Nat × NumEvent :=
  let g := fmtOf dst
  let v := ofInt (intOf srcCode x)
  let c := narrow g mode rnd v
  (c.code, { sat := c.sat, nanZero := c.nanZero, flush := g.width < intWidth srcCode && flushedTo g v c.code })

/-! Block scales -/

/-- emax of an element format (Table 13-4). -/
def emaxOf (code : Nat) : Int :=
  match code with
  | 3 => 8
  | 4 => 15
  | 5 => 4
  | _ => 2

/-- ilogb of a non-zero finite value (R594). -/
def ilogb : FVal → Int
  | .fin _ m e => ilogbOf m e
  | _ => 0

/-- What encoding a block's scale yields: scale code, escape descriptor, flags and escapes (R605). -/
structure ScaleRes where
  code : Nat
  desc : Nat := 0
  flags : List NumFlag := []
  escapes : Nat := 0
  deriving DecidableEq, Repr

/-- The lowest index whose magnitude is the greatest of a block. -/
def argMax : List FVal → Nat → Nat → FVal → Nat
  | [], _, best, _ => best
  | x :: xs, k, best, top => if fgt x.abs top then argMax xs (k + 1) k x.abs else argMax xs (k + 1) best top

/-- The scale code for a reference magnitude (R605). -/
def scaleFor (ref : FVal) (code : Nat) (res : ScaleRes) : ScaleRes :=
  if ref.isZero then { res with code := 0 }
  else
    let c := ilogb ref - emaxOf code + 127
    if c < 1 then { res with code := 1, flags := res.flags ++ [.scaleClamped] } else { res with code := c.toNat }

/-- The procedure of R605 on the 32 FP32 values of a block, an element code, the escape enable and the gap. -/
def encodeScale (xs : List FVal) (code : Nat) (esc : Bool) (gap : Nat) : ScaleRes :=
  let special := xs.any fun x => match x with
    | .fin .. => false
    | _ => true
  if special then { code := 0xFF, flags := [.nanBlock] }
  else if xs.all FVal.isZero then { code := 0, flags := if xs.any FVal.isNegZero then [.negZeroLost] else [] }
  else
    let m := argMax xs 0 0 (.fin false 0 0)
    let top := xs.getD m (.fin false 0 0)
    let ref := top.abs
    let rest := xs.zipIdx.filter fun e => e.2 != m
    let r := rest.foldl (fun acc e => if fgt e.1.abs acc then e.1.abs else acc) (FVal.fin false 0 0)
    let gapOk := r.isZero || ilogb top - ilogb r > (gap : Int)
    let h := toF16 0 ref
    let fits := !fgt (.fin false 1 (-14)) ref && h ≤ 0x7BFF
    if esc && gapOk && fits then
      scaleFor r code { code := 0, desc := m + 32 + toF16 0 top * 65536, escapes := 1 }
    else
      scaleFor ref code { code := 0, flags := if esc && gapOk then [.escapeDeclined] else [] }

/-- An escape descriptor that names an index (R603). -/
def escapeAt (desc k : Nat) : Bool := bitNat desc 5 && desc % 32 = k

/-- 2^(c - 127) times a value. -/
def scaleBy (v : FVal) (p : Int) : FVal :=
  match v with
  | .fin s m e => .fin s m (e + p)
  | x => x

/-- BQUANT of one element (R606). -/
def quantise (code mode : Nat) (rnd : Rnd) (c desc k : Nat) (v : FVal) : Nat × NumEvent :=
  if escapeAt desc k then (0, {})
  else if c = 0 then (0, { negZero := v.isNegZero, flush := v.isNonzero })
  else if c = 0xFF then (0, {})
  else
    let f := fmtOf code
    let r := narrow f mode rnd (scaleBy v (127 - (c : Int)))
    (r.code, { sat := r.sat, nanZero := r.nanZero, flush := flushedTo f v r.code })

/-- The exact value of a block element (R600, R604, R608). -/
def dequantise (v : FVal) (c desc k : Nat) : FVal :=
  if escapeAt desc k then (if c = 0xFF then .nan else f16 (desc / 65536))
  else if c = 0 then .fin false 0 0
  else if c = 0xFF then .nan
  else scaleBy v ((c : Int) - 127)

end Sys2Proof.Machine
end

