-- ==== Sys2Proof/Config.lean ====
section
/-!
DEFINITION. What a part fixes and the free values. DEV_REV is the one combination that the spec covers (R10, R12,
Table 00-5). The free values are opaque: nothing can evaluate them, so a statement that mentions one holds whatever
it is. Each is applied to a counter of the state (`State.free`) so that every use is a fresh value.
-/

namespace Sys2Proof.Config

/-- DEV_REV of a B1 part with Mordant ROM 2.1 (Table 00-5). -/
def devRev : Word := 0x11020100#32

/-- The JTAG IDCODE of a B1 part (R898). -/
def idcode : Word := 0x54860697#32

/-- A value that the spec leaves open, of 32 bits. DESIGN CHOICE, safe: log 7. -/
opaque freeWord : Nat → Word

/-- A choice that the spec leaves open, as a number. DESIGN CHOICE, safe: log 7. -/
opaque freeNat : Nat → Nat

/-- The power estimate of an interval in Q16.16 watts, from the activity counters and the sensors' readings. The spec states no
formula (R56). DESIGN CHOICE, safe: log 46. -/
opaque powerEstimate : List Nat → List (Option Nat) → Word

/-- The data of a token of the Mordant's interfaces, by its number. The spec gives the tokens no encoding (R826, R827).
DESIGN CHOICE, unsafe: log 18. -/
opaque tokenData : Nat → Dword

/-- A texel that a compressed format decodes to. The spec gives the encoding to the Khronos data-format specification,
which is no part of it: the four components as FP32 by format code, block bytes and position in the block.
DESIGN CHOICE, safe: log 31. -/
opaque compressedTexel : Nat → List Byte → Nat → Nat → (Word × Word × Word × Word)

/-- A byte of a workgroup's local store that the workgroup has not written: by workgroup and offset. The spec states no
contents of an allocation. DESIGN CHOICE, safe: log 38. -/
opaque localByte : Nat → Nat → Byte

end Sys2Proof.Config
end

