-- ==== Sys2Proof/Machine/GraphicsTypes.lean ====
section
/-!
DEFINITION. Frames, draws, batches and bins of the geometry front end (spec 14), and the tiles in progress of the tile
backends (spec 15).
-/

namespace Sys2Proof.Machine

/-- One attachment of a frame (Table 15-1). -/
structure Attach where
  format : Nat
  load : Nat
  store : Nat
  pitch : Nat
  va : Nat
  resolveVa : Nat
  resolvePitch : Nat
  clear : List Word
  deriving DecidableEq, Repr

/-- A vertex: its record's pool reference, whether clipping generated it, and its output slots of four components
(R638, Table 14-5). -/
structure Vert where
  ref : Nat := 0
  gen : Bool := false
  outs : List (Nat × List Word)
  deriving DecidableEq, Repr

/-- A binned primitive: kind (0 point, 1 line, 2 triangle), facing, CLIPPED, the number of its provoking vertex, PRIM_ID,
PRIM_SEQ, draw index, instance index, vertices, the provoking vertex of the original primitive, and its record's reference
(Table 14-5, R642). -/
structure Prim where
  kind : Nat
  front : Bool
  clipped : Bool
  provoke : Nat
  id : Nat
  seq : Nat := 0
  draw : Nat
  inst : Nat
  verts : List Vert
  flat : Vert
  ref : Nat := 0
  deriving DecidableEq, Repr

/-- A vertex batch of one instance (R636): its number, distinct indices in order of first use, and the primitives by lanes with
their provoking vertex and PRIM_ID. -/
structure Batch where
  number : Nat
  idx : List Nat
  prims : List (List Nat × Nat × Nat)
  deriving DecidableEq, Repr

/-- A draw in progress: its packet and TAG, its index in the frame, STATE_VA and the draw state block as read at its start
(R632), the fields of Table 14-1 that later work needs, the batches of each instance, the count of batches launched and
binned over all instances, the resident slots of the launched ones, and whether a poisoned index dropped a primitive. -/
structure Draw where
  pkt : Nat
  tag : Word
  index : Nat
  stateVa : Nat
  state : List Byte
  vprog : Nat
  argVa : Nat
  vregs : Nat
  topology : Nat
  instances : Nat
  firstInstance : Nat
  plan : List Batch
  launched : Nat := 0
  binned : Nat := 0
  slots : List Nat := []
  poisoned : Bool := false
  /-- How many entries of `overwritten` its packet found at its start (R480). -/
  code : Nat := 0
  deriving DecidableEq, Repr

/-- A frame (R629 to R662): the fields of FRAME_BEGIN, the tile size and grid, the pool's ring and counters, the pages by
ordinal with the next free unit, attachments, draws, bins with the primitives of each tile (the wide list is the entry
after the last tile), the bin blocks of each by reference in order with the count of its last one, the counts of the
status record, a stall with its grace time, a partial render flush in progress, FRAME_END's packet, tiles not yet taken,
and the flushed-tile bitmap. -/
structure Frame where
  pool : Nat
  table : Nat
  statusVa : Nat
  width : Nat
  height : Nat
  log2s : Nat
  sampleBytes : Nat
  frameId : Word
  edge : Nat
  ringVa : Nat
  ringLog2 : Nat
  first : Nat
  taken : Nat
  tag : Nat
  pages : List Nat := []
  ordinal : Nat := 0
  unit : Nat := 0
  attach : List (Nat × Attach) := []
  drawn : Bool := false
  draws : List Draw := []
  nextDraw : Nat := 0
  /-- Draws of the frame that are complete but whose state their primitives still need. -/
  kept : List Draw := []
  /-- Primitives by PRIM_SEQ. -/
  prims : List Prim := []
  bins : List (Nat × List Nat) := []
  blocks : List (Nat × (List Nat × Nat)) := []
  primsIn : Nat := 0
  primsBinned : Nat := 0
  primsCulled : Nat := 0
  primsClipped : Nat := 0
  flushes : Nat := 0
  /-- The stamp of the need and the grace time in ns of a stall in force (R654). -/
  stall : Option (Stamp × Nat) := none
  /-- The frame was saved while it was stalled and has resumed (R660). -/
  resumed : Bool := false
  flushing : Bool := false
  /-- LOW and PARTIAL are set with the next write of STATUS. -/
  low : Bool := false
  partial_ : Bool := false
  /-- FRAME_END's writes are on their way. -/
  closing : Bool := false
  endPkt : Option Nat := none
  /-- FRAME_END has handed its tiles out. -/
  rendering : Bool := false
  todo : List Nat := []
  bitmap : List Nat := []
  deriving DecidableEq, Repr

/-- A quad of fragments (R693): the primitive by PRIM_SEQ, its top-left pixel, the sample of SAMPLE_SHADING, and the
covered samples of its four pixels as masks. -/
structure Quad where
  prim : Nat
  x : Nat
  y : Nat
  sample : Option Nat := none
  cov : List Nat
  deriving DecidableEq, Repr

/-- A fragment thread group of a tile (R693): its number in the tile pass, draw index, quads, and its resident slot. -/
structure FragGroup where
  num : Nat
  draw : Nat
  quads : List Quad
  slot : Nat
  deriving DecidableEq, Repr

/-- The phases of a tile (R680). -/
inductive TilePhase where
  | load | list | flush
  deriving DecidableEq, Repr

/-- A tile in progress on a core (R679, R680): its queue and number, whether it belongs to a partial render flush, the
phase, the samples of each attachment by slot as raw values in pixel and sample order, the numbers of the primitives still to
process, the quads that wait for a group with their draw, the number of the next group, FLUSHES at the start of the pass, and
the groups not yet blended in order. -/
structure Tile where
  queue : QueueId
  tile : Nat
  part : Bool
  phase : TilePhase := .load
  samples : List (Nat × List Nat) := []
  todo : List Nat := []
  quads : List (Nat × Quad) := []
  nextGroup : Nat := 0
  pass : Nat := 0
  groups : List FragGroup := []
  deriving DecidableEq, Repr

/-- The geometry front end with the open frame of each queue and the frame that the Binner serves, and the tiles in
progress by core. -/
structure Gfx where
  frames : List (QueueId × Frame) := []
  bound : Option QueueId := none
  /-- Packets of queues for which a record that is written once per packet has been written (R713), with its code. -/
  noted : List (QueueId × Nat × Nat) := []
  tiles : List (Nat × Tile) := []
  deriving DecidableEq, Repr

end Sys2Proof.Machine
end

