-- ==== Sys2Proof/Machine/TransferTypes.lean ====
section
/-!
DEFINITION. The transfer channels (spec 16) and the compose service (spec 19).
-/

namespace Sys2Proof.Machine

/-- A transfer packet that holds or waits for a channel (Table 16-2): its fields, start stamp, bytes whose reads are issued,
pieces of read data with poison by offset, the staging buffer from an offset, bytes written, whether XFER_POISON is
written, and whether its queue's pre-emption stops it (R735). Offsets count the packet's bytes row by row. -/
structure XferOp where
  queue : QueueId
  pkt : Nat
  tag : Word
  type : Nat
  ch : Nat
  src : Nat
  dst : Nat
  len : Nat
  rows : Nat := 1
  srcPitch : Nat := 0
  dstPitch : Nat := 0
  swap : Nat := 0
  pattern : Dword := 0#64
  start : Stamp
  issued : Nat := 0
  pieces : List (Nat × List (Byte × Bool)) := []
  base : Nat := 0
  buf : List (Byte × Bool) := []
  written : Nat := 0
  poisoned : Bool := false
  stopping : Bool := false
  deriving DecidableEq, Repr

/-- The transfer-engine complex: the packet that holds each busy channel, waiting packets, the saved progress of pre-empted
ones, and by engine, class and side the channel after the one that the side last served (R724). -/
structure Xfer where
  active : List (Nat × XferOp) := []
  waiting : List XferOp := []
  saved : List XferOp := []
  turns : List ((Nat × Bool × Bool) × Nat) := []
  deriving DecidableEq, Repr

/-- The compose command in progress (R858): its slot and context, the pixels read ahead in order as raw words, and how many
pixels of the rectangle are read and written, row by row; and that a fault, poison or a timeout stopped it (R859). -/
structure ComposeOp where
  slot : SlotId
  ctx : CtxId
  buf : List Nat := []
  read : Nat := 0
  written : Nat := 0
  stopped : Bool := false
  deriving DecidableEq, Repr

end Sys2Proof.Machine
end

