-- ==== Sys2Proof/Machine/State.lean ====
section
/-!
DEFINITION. The state of the block, the reasons a step can stop, and the state after reset. Everything the spec
gives the block is a field of a unit's record; `pending` is the queue of commands waiting, `out` is what has left
the device, and `free` counts the uses of free values (the last three are the model's own).
-/

namespace Sys2Proof.Machine

/-- The faults of the model. -/
inductive Fault where
  /-- A memory command names a physical address beyond the usable capacity of the channels in service (R335).
  Raised by LPDDR_READ and LPDDR_WRITE_BACK. Safe: no translation of the device reaches such an address. -/
  | noSuchAddress
  deriving DecidableEq, Repr

/-- The refusals of the model. -/
inductive Refusal where
  /-- The command has no meaning in the model yet. Raised by arms of the dispatch alone. Safe. -/
  | notModelled (mnemonic : String)
  deriving DecidableEq, Repr

/-- The state of the block. -/
structure State where
  pending : List Instr := []
  life : Life := {}
  metro : Metro := {}
  gov : Gov := {}
  power : Power := {}
  portA : Port := {}
  portB : Port := {}
  fns : List (Nat × Fn) := []
  slots : List (SlotId × Slot) := []
  alloc : Alloc := {}
  ctxs : List (CtxId × Ctx) := []
  queues : List (QueueId × Queue) := []
  lpddr : Lpddr := {}
  vat : Vat := {}
  fabric : Fabric := {}
  traffic : Traffic := {}
  err : ErrQueue := {}
  forfeits : List Forfeit := []
  lock : Lockstep := {}
  cores : Cores := {}
  madders : Madders := {}
  gfx : Gfx := {}
  xfer : Xfer := {}
  compose : Option ComposeOp := none
  sensors : Sensors := {}
  i3c : I3c := {}
  jtag : Jtag := {}
  fuses : Fuses := {}
  out : List OutEvent := []
  free : Nat := 0
  deriving DecidableEq, Repr

/-- The outcome of a command of this block. -/
abbrev Out := Host.Outcome State Fault Refusal

/-- The state with RESET_N held low after the supplies have risen: the power-on reset state of Table 03-8 step 1.
DESIGN CHOICE, unsafe: log 5. DESIGN CHOICE, unsafe: log 35. -/
def State.reset : State := {}

end Sys2Proof.Machine
end

