-- ==== Sys2Proof/Machine/Ops.lean ====
section
/-!
DEFINITION. The named operations that every unit shares: the functions and ports (spec 04), the Metronome's stamps
(spec 02), error records (spec 18), MSI-X messages, mailbox slots (spec 05), power domains (spec 03) and the I3C
interrupt causes (spec 22).
-/

namespace Sys2Proof.Machine

/-! Functions and ports -/

/-- The port that carries a tenant (Table 04-2). -/
def portOf (fn : Nat) : PortId := if fn < 96 then .a else .b

/-- The administration function of a port (Table 04-2). -/
def adminOf : PortId → Nat
  | .a => 0
  | .b => 96

/-- PF1 of a port (Table 04-2). -/
def pf1Of : PortId → Nat
  | .a => 1
  | .b => 97

/-- The other port. -/
def otherPort : PortId → PortId
  | .a => .b
  | .b => .a

/-- The number of a port in LOC and FN_IDENT. -/
def portNum : PortId → Nat
  | .a => 0
  | .b => 1

/-- An administration function (Table 04-2). -/
def isAdmin (fn : Nat) : Bool := fn == 0 || fn == 96

/-- A physical function (R141). -/
def isPf (fn : Nat) : Bool := fn == 0 || fn == 1 || fn == 96 || fn == 97

/-- VFn of a port for a tenant that is a VF, 0 for a PF (Table 04-5). -/
def vfNum (fn : Nat) : Nat := if isPf fn then 0 else if fn < 96 then fn - 1 else fn - 97

/-- TotalVFs of a port's PF1 (R142). -/
def totalVfs : PortId → Nat
  | .a => 94
  | .b => 30

/-- The function that a VF number names on a port. -/
def fnOfVf (p : PortId) (n : Nat) : Nat := pf1Of p + n

/-- Every function of a port. -/
def fnsOf : PortId → List Nat
  | .a => List.range 96
  | .b => rangeFrom 96 32

/-- The device has the function: Port B is absent with PORTB_EN low (R31). -/
def fnExists (s : State) (fn : Nat) : Bool := fn < 96 || (fn < 128 && s.life.straps.portbEn)

/-- The device administrator (R31, R35). -/
def devAdmin (s : State) : Nat := if s.life.straps.adminSel && s.life.straps.portbEn then 96 else 0

/-- Mailbox slots of a function (R190). -/
def slotCount (fn : Nat) : Nat := if isAdmin fn then 8 else 4

/-- MSI-X vectors of a function (Table 04-7). -/
def vectorCount (fn : Nat) : Nat :=
  if fn == 0 then 64 else if fn == 1 then 104 else if fn < 96 then 20 else 64

/-- The registers of a function that nothing has written: a PF exists once its port does (R141).
DESIGN CHOICE, safe: log 42. -/
def fnDefault (fn : Nat) : Fn := if isPf fn then { phase := .ready } else {}

/-- The registers of a function. -/
def getFn (s : State) (fn : Nat) : Fn := tblGetD s.fns fn (fnDefault fn)

/-- The state with a function's registers set. -/
def setFn (s : State) (fn : Nat) (f : Fn) : State := { s with fns := tblSet s.fns fn f }

/-- The state with a function's registers changed. -/
def modFn (s : State) (fn : Nat) (g : Fn → Fn) : State := setFn s fn (g (getFn s fn))

/-- The registers of a port. -/
def getPort (s : State) : PortId → Port
  | .a => s.portA
  | .b => s.portB

/-- The state with a port's registers set. -/
def setPort (s : State) : PortId → Port → State
  | .a, p => { s with portA := p }
  | .b, p => { s with portB := p }

/-- The state with a port's registers changed. -/
def modPort (s : State) (p : PortId) (g : Port → Port) : State := setPort s p (g (getPort s p))

/-- The function is a tenant (R144, Table 22-2). -/
def isTenant (s : State) (fn : Nat) : Bool := fnExists s fn && (getFn s fn).phase == .ready

/-- The function whose Device Control 2, Max_Read_Request_Size and AtomicOp enable apply to a tenant: its own, or
PF1's for a VF (R164, R167, R170). -/
def ctlFn (fn : Nat) : Nat := if isPf fn then fn else pf1Of (portOf fn)

/-- Completion timeout T of a function in ns (Table 04-10). -/
def timeoutOf (s : State) (fn : Nat) : Nat :=
  match (getFn s (ctlFn fn)).cto with
  | 1 => 90000
  | 2 => 8000000
  | 5 => 50000000
  | 6 => 200000000
  | 9 => 800000000
  | 10 => 3000000000
  | 13 => 12000000000
  | 14 => 60000000000
  | _ => 40000000

/-! Time -/

/-- Some tile is in progress in a cluster. -/
def tilesInCluster (s : State) (c : Nat) : Bool := s.gfx.tiles.any fun e => e.1 / 4 == c

/-- Some transfer channel is active. -/
def channelsActive (s : State) : Bool := !s.xfer.active.isEmpty

/-- The Metronome advanced to the stamp of an event: it never goes back (R61), and it holds while it does not run or
its crystal reference is lost (R92). DESIGN CHOICE, safe: log 2. -/
def Metro.upTo (m : Metro) (t : Stamp) : Metro :=
  if m.running && !m.lost then { m with now := max m.now t } else m

/-- A domain has work, so it is not drained (Table 03-5): thread groups for a core, groups or live accumulators for a
Madder, a graphics packet, a tile, or an active channel; a Vat bank group never counts as idle. A compose command works on
core 0 and tile backend 0 (Table 19-5). DEDUCED, unsafe: log 20. -/
def domainBusy (s : State) (d : Nat) : Bool :=
  let gfxPkt := fun (q : Queue) => q.pkts.any fun p => 0x10 ≤ p.type && p.type < 0x40
  if s.compose.isSome && (d == 0 || d == 65) then true
  else if d < 24 then s.cores.groups.any fun e => e.2.core == d
  else if d < 48 then s.cores.groups.any fun e => e.2.core == d - 24
  else if d < 64 then true
  else if d == 64 then s.queues.any fun e => gfxPkt e.2
  else if d < 71 then tilesInCluster s (d - 65)
  else channelsActive s

/-- The stamp since which each domain has been drained (R115): the state left by the last event tells which domains
that event drained. DEDUCED, unsafe: log 20. -/
def settlePower (s : State) : Power :=
  { s.power with domains := s.power.domains.zipIdx.map fun e =>
    if domainBusy s e.2 then { e.1 with idleSince := none }
    else { e.1 with idleSince := some (e.1.idleSince.getD s.metro.now) } }

/-- How many distinct units of a list of (unit, context) pairs work for a context. -/
def unitsFor (l : List (Nat × CtxId)) (c : CtxId) : Nat := ((l.filter fun e => e.2 = c).map Prod.fst).eraseDups.length

/-- Busy times grown by the ns that pass until an event (R284, Table 06-9): each core with a resident group of the context,
each Madder with a staged operation of it, each sampler with a request of it. -/
def accrueBusy (s : State) (ns : Nat) : List (CtxId × Ctx) :=
  let cores := s.cores.groups.map fun e => (e.2.core, e.2.ctx)
  let samplers := (s.cores.groups.filter fun e => !e.2.samples.isEmpty).map fun e => (e.2.core, e.2.ctx)
  let madders := s.madders.ops.filterMap fun e =>
    if e.2.handed then (tblGet s.cores.groups e.2.group).map fun g => (e.2.core, g.ctx) else none
  s.ctxs.map fun e =>
    let k := e.2.counters
    (e.1, { e.2 with counters := { k with
      coreBusy := k.coreBusy + ns * unitsFor cores e.1
      madderBusy := k.madderBusy + ns * unitsFor madders e.1
      samplerBusy := k.samplerBusy + ns * unitsFor samplers e.1 } })

/-- A queue has no open submission with a deadline (R760). -/
def noDeadline (s : State) (q : QueueId) : Bool := !((tblGet s.queues q).any fun r => r.sub.isSome)

/-- By core and priority class, the stamp since which groups of queues without a deadline have held the core (R760). -/
def settleClasses (s : State) : List ((Nat × Nat) × Stamp) :=
  let held := (s.cores.groups.filterMap fun e =>
    if noDeadline s e.2.queue then some (e.2.core, ((tblGet s.queues e.2.queue).map Queue.prio).getD 0) else none).eraseDups
  held.map fun k => (k, tblGetD s.cores.classSince k s.metro.now)

/-- The state at the stamp of an event. DESIGN CHOICE, safe: log 2. -/
def State.upTo (s : State) (t : Stamp) : State :=
  let m := s.metro.upTo t
  { s with
    metro := m
    power := settlePower s
    ctxs := accrueBusy s (m.now - s.metro.now)
    cores := { s.cores with classSince := settleClasses s } }

/-- The stamp that an event of the state takes. -/
abbrev State.stamp (s : State) : Stamp := s.metro.now

/-! Conditions of the device -/

/-- The host ports are open: step 9 of Table 03-8 is complete. -/
def isOpen (s : State) : Bool := s.life.phase == .opened

/-- A warm device reset is in progress (R133). -/
def inWarm (s : State) : Bool := s.life.warm.isSome

/-- The device is in Sepia mode, from the decision on (FC_SEPIA, Table 19-4 step 1). -/
def inSepia (s : State) : Bool := s.lock.sepia

/-- The Mordant serves: start-up is complete and the watchdog has not halted copy A (R847). -/
def mordantServes (s : State) : Bool := isOpen s && s.lock.mode != .halted

/-- Metronome-timed actions take place: the count runs and the crystal reference is not lost (R92).
DESIGN CHOICE, safe: log 2. -/
def timed (s : State) : Bool := s.metro.running && !s.metro.lost

/-- Queues and tenants' commands wait for a warm device reset: the crystal reference is lost, or was lost since the last one (R93,
R94, R229). -/
def crystalStops (s : State) : Bool := s.metro.lost || s.metro.awaitWarm

/-- LPDDR5X is out of service after training (FC_LPDDR, Table 03-7). -/
def lpddrOut (s : State) : Bool := isOpen s && !s.lpddr.inService

/-- A port can carry a request of a function now (R171, R178). -/
def hostReady (s : State) (p : PortId) (fn : Nat) : Bool :=
  (getFn s fn).busMaster && (getPort s p).linkUp && !(getPort s p).inReset

/-- FAULT_N is asserted: an FC bit of Table 18-11, or a start-up case of Table 03-7 or R125. -/
def faultN (s : State) : Bool :=
  s.lock.sepia || s.metro.lost || lpddrOut s || s.life.phase == .fatal || s.life.lockFailed

/-! Error records -/

/-- One destination letter of Table 18-6 (R793). -/
inductive WinLetter where
  | t | p | o | d | b
  deriving DecidableEq, Repr

/-- The windows that a code's letters name for a subject (R793). A letter that names a function that does not exist
is dropped. -/
def destOf (s : State) (letters : List WinLetter) (tenant : Option Nat) (port : Option PortId) : Dest :=
  let hasA := fun (fn : Nat) => fn == 0
  let hasB := fun (fn : Nat) => fn == 96 && s.life.straps.portbEn
  let port' := match port with
    | some p => some p
    | none => tenant.map portOf
  let named : List Nat := letters.flatMap fun l => match l with
    | .t => []
    | .p => (port'.map adminOf).toList
    | .o => (port'.map fun p => adminOf (otherPort p)).toList
    | .d => [devAdmin s]
    | .b => [0, 96]
  { t := letters.contains .t && (tenant.map (isTenant s)).getD false
    a := named.any hasA
    b := named.any hasB }

/-- The functions whose windows a destination set names for a record's tenant. -/
def Dest.windows (d : Dest) (tenant : Option Nat) : List Nat :=
  let l := (if d.t then tenant.toList else []) ++ (if d.a then [0] else []) ++ (if d.b then [96] else [])
  l.eraseDups

/-- A forfeit in progress that covers a context, by position (R817). -/
def forfeitOf (s : State) (c : CtxId) : Option Nat :=
  s.forfeits.findIdx? fun f => f.ctxs.contains c || f.tenants.contains c.tenant

/-- A fault counted in the record of a kill or forfeit in progress (R817), saturating. -/
def countExtra (s : State) (k : Nat) : State :=
  { s with forfeits := s.forfeits.modify k fun f => { f with extra := satAdd 16 f.extra 1 } }

/-- A token of 64 data bits with the even parity of each byte (R828). -/
def tokenOf (d : Dword) : Token :=
  let odd := fun (k : Nat) => ((List.range 8).filter fun i => d.getLsbD (8 * k + i)).length % 2
  BitVec.ofNat 72 (d.toNat + 2 ^ 64 * (((List.range 8).map fun k => odd k * 2 ^ k).sum))

/-- The parity of a token is good (R829). -/
def tokenGood (x : Token) : Bool := tokenOf (x.extractLsb' 0 64) == x

/-- One handshake step of an interface: an input goes to copy A at once and to copy B two tokens later; an output of A is held for
two tokens, and the oldest is compared and released (R826, R827). -/
def TokenIface.step (x : TokenIface) (inp out : Option Token) : TokenIface × Option Token :=
  ({ toA := inp, toB := x.inRegs.headD none, inRegs := x.inRegs.drop 1 ++ [inp], outRegs := x.outRegs.drop 1 ++ [out] },
   x.outRegs.headD none)

/-- A checkpoint closes the replay log and the record of inputs, and makes the next mismatch a first one (R833, R838). -/
def Lockstep.checkpoint (l : Lockstep) : Lockstep := { l with log := [], inputs := [], sinceReplay := false }

/-- A released token enters the replay log; the 257th forces a checkpoint first (R834). -/
def Lockstep.release (l : Lockstep) (x : Token) : Lockstep :=
  if 256 ≤ l.log.length then { l.checkpoint with log := [x] } else { l with log := l.log ++ [x] }

/-- The six interfaces advance in unison by one handshake token (R826, R827): at most one input and one output arrive, each on its
interface, and the input is recorded for a replay (R836). While copy A runs alone the registers are bypassed (R846). -/
def Lockstep.advance (l : Lockstep) (inp out : Option (Nat × Token)) : Lockstep :=
  if l.mode ≠ .pair then l
  else
    let on := fun (t : Option (Nat × Token)) (k : Nat) => (t.filter fun e => e.1 == k).map Prod.snd
    let r := l.ifaces.zipIdx.map fun e => e.1.step (on inp e.2) (on out e.2)
    (r.filterMap Prod.snd).foldl Lockstep.release { l with ifaces := r.map Prod.fst, inputs := l.inputs ++ inp.toList }

/-- A token of the Mordant's inputs arrives (R826). DESIGN CHOICE, unsafe: log 18. -/
def mordantInput (s : State) (iface : Nat) : State :=
  let l := { s.lock with tokens := s.lock.tokens + 1 }
  { s with lock := l.advance (some (iface, tokenOf (Config.tokenData s.lock.tokens))) none }

/-- A token of the Mordant's outputs leaves copy A (R827). DESIGN CHOICE, unsafe: log 18. -/
def mordantOutput (s : State) (iface : Nat) : State :=
  let l := { s.lock with tokens := s.lock.tokens + 1 }
  { s with lock := l.advance none (some (iface, tokenOf (Config.tokenData s.lock.tokens))) }

/-- A handshake step of the Mordant in which nothing arrives: every interface carries an empty token (R826).
DESIGN CHOICE, safe: log 1. -/
def mordantIdle (s : State) : State := { s with lock := s.lock.advance none none }

/-- The Mordant takes a checkpoint; none is taken during a replay (R833, R838). -/
def takeCheckpoint (s : State) : State :=
  if s.lock.replaying || s.lock.mode == .halted then s else { s with lock := s.lock.checkpoint }

/-- The Mordant's record path takes a detected record (R796). -/
def pushRecord (s : State) (r : ErrRec) : State :=
  mordantInput { s with err := { s.err with detected := s.err.detected ++ [r] } } 2

/-- A condition is detected: a record of it waits to be stored, unless a kill or forfeit of its context is in
progress, which counts it instead (R796, R817). DEDUCED, unsafe: log 37. -/
def detect (s : State) (r : ErrRec) : State :=
  match r.tenant, r.ctx with
  | some t, some c =>
    match forfeitOf s { tenant := t, idx := c } with
    | some k => countExtra s k
    | none => pushRecord s r
  | _, _ => pushRecord s r

/-- A record of a code with its scope and destinations, stamped now. DEDUCED, unsafe: log 37. -/
def recOf (s : State) (code scope : Nat) (letters : List WinLetter) (tenant : Option Nat) : ErrRec :=
  { code := code, scope := scope, stamp := s.stamp, tenant := tenant, dest := destOf s letters tenant none }

/-- A device-level record (no subject). -/
def deviceRec (s : State) (code scope : Nat) (letters : List WinLetter) : ErrRec :=
  recOf s code scope letters none

/-- A record about a port, whose P and O letters name the port's administration functions. -/
def portRec (s : State) (code scope : Nat) (letters : List WinLetter) (p : PortId) : ErrRec :=
  { code := code, scope := scope, stamp := s.stamp, dest := destOf s letters none (some p),
    loc := { unit := .port, index := portNum p } }

/-- A record about a context. -/
def ctxRec (s : State) (code scope : Nat) (letters : List WinLetter) (c : CtxId) : ErrRec :=
  { recOf s code scope letters (some c.tenant) with ctx := some c.idx }

/-- A record about a queue. -/
def queueRec (s : State) (code scope : Nat) (q : QueueId) : ErrRec :=
  { ctxRec s code scope [.t] q.ctx with queue := some q.q, loc := { unit := .queueEngine } }

/-- DETAIL from its four 32-bit words (Table 18-4). -/
def detailOf (w0 w1 w2 w3 : Nat) : BitVec 128 :=
  BitVec.ofNat 128 (w0 % 2 ^ 32 + w1 % 2 ^ 32 * 2 ^ 32 + w2 % 2 ^ 32 * 2 ^ 64 + w3 % 2 ^ 32 * 2 ^ 96)

/-! Messages and what leaves the device -/

/-- Something leaves the device. DESIGN CHOICE, safe: log 4. -/
def emit (s : State) (e : OutEvent) : State := { s with out := s.out ++ [e] }

/-- The errors that Table 04-12 handles as advisory. -/
def advisoryError : AerKind → Bool
  | .unexpectedCompletion => true
  | .poisonedTlp => true
  | _ => false

/-- The message that an error of a function makes its port send under the AER settings (R180). PRESUMED, unsafe: log 57. -/
def Aer.message (x : Aer) (k : AerKind) : Option ErrLevel :=
  if x.masked.contains k then none
  else if k = .correctable then (if x.correctableOn then some .correctable else none)
  else if x.fatal.contains k then (if x.fatalOn then some .fatal else none)
  else if advisoryError k then (if x.correctableOn && !x.masked.contains .advisory then some .correctable else none)
  else if x.nonFatalOn then some .nonFatal
  else none

/-- An AER report of a function (R179): logged, and sent as the settings say (R180). DESIGN CHOICE, safe: log 42. -/
def aer (s : State) (fn : Nat) (k : AerKind) : State :=
  let x := (getFn s fn).aer
  let s := modFn s fn fun f => { f with aer := { x with status := insertOnce x.status k } }
  let s := emit s (.aer fn k)
  match x.message k with
  | some l => emit s (.errMessage fn l)
  | none => s

/-- MSI-X entry of a vector. -/
def msixEntry (f : Fn) (v : Nat) : MsixEntry := tblGetD f.msix v {}

/-- The port sends the message of a vector (R918). -/
def sendVector (s : State) (fn v : Nat) : State :=
  let e := msixEntry (getFn s fn) v
  emit s (.msix fn v e.addr e.data)

/-- Writes of a tenant with a number below a mark that its port has still to send (R157). -/
def writesToSend (s : State) (fn n : Nat) : Bool :=
  s.traffic.accesses.any fun e => decide (e.1 < n) && !e.2.dropped && e.2.stage != .answered &&
    (e.2.ctx.map CtxId.tenant) == some fn && match e.2.home, e.2.kind with
      | .host p _ _, .write .. => p == portOf fn
      | _, _ => false

/-- A vector's message waits: it is masked, its function is masked, its Bus Master Enable is clear, or writes that it follows have not
left the port (R156, R157, R171). -/
def vectorHeld (s : State) (fn v : Nat) : Bool :=
  let f := getFn s fn
  (msixEntry f v).mask || f.msixFnMask || !f.busMaster || f.awaits.any fun e => e.1 == v && writesToSend s fn e.2

/-- An event on a vector (R156): nothing while MSI-X Enable is 0, pending while it is held, a message otherwise. -/
def vectorEvent (s : State) (fn v : Nat) : State :=
  let f := getFn s fn
  if !f.msixEnable || (getPort s (portOf fn)).inReset then s
  else if vectorHeld s fn v then setFn s fn { f with pba := insertOnce f.pba v }
  else sendVector s fn v

/-- The pending vectors of a function that nothing holds any more are sent, one message each (R156, R171). -/
def sendPending (s : State) (fn : Nat) : State :=
  let f := getFn s fn
  if !f.msixEnable then s
  else
    let held := vectorHeld s fn
    let go := f.pba.filter fun v => !held v
    let left := f.awaits.filter fun e => writesToSend s fn e.2
    go.foldl (fun s v => sendVector s fn v) (setFn s fn { f with pba := f.pba.filter held, awaits := left })

/-- The pending vectors of every function that nothing holds any more are sent. -/
def flushVectors (s : State) : State := (s.fns.map Prod.fst).foldl sendPending s

/-! I3C interrupt causes -/

/-- The target's in-band interrupt request brought up to date (R935): withdrawn where nothing enabled is pending, events are
disabled or there is no address; a cause that comes before the acceptance joins its data byte (R939).
PRESUMED, unsafe: log 33. -/
def ibiRequest (s : State) : State :=
  let i := s.i3c
  let v := i.ibiPend &&& i.ibiEn
  if v = 0#8 || !i.eventsEnabled || i.dynAddr.isNone then { s with i3c := { i with request := none } }
  else match i.request, i.accepted with
    | some b, _ => { s with i3c := { i with request := some (b ||| v) } }
    | none, some b => if v &&& ~~~b = 0#8 then s else { s with i3c := { i with request := some v } }
    | none, none => { s with i3c := { i with request := some v } }

/-- Two events of a stamp are of the same step while the Metronome counts (R5). DEDUCED, unsafe: log 49. -/
def sameStep (s : State) (t : Stamp) : Bool := timed s && s.stamp == t

/-- A cause of Table 22-9 sets its bit of IBI_PEND (R933). -/
def ibiCause (s : State) (bit : Nat) : State :=
  let v := BitVec.ofNat 8 (2 ^ bit)
  let set := (if sameStep s s.i3c.pendSet.2 then s.i3c.pendSet.1 ||| v else v, s.stamp)
  ibiRequest { s with i3c := { s.i3c with ibiPend := s.i3c.ibiPend ||| v, pendSet := set } }

/-- The FAULT cause when FAULT_N goes from released to asserted between two states (Table 22-9 bit 1). -/
def faultEdge (before after : State) : State :=
  if !faultN before && faultN after then ibiCause after 1 else after

/-! Mailbox slots -/

/-- A slot's registers. -/
def getSlot (s : State) (k : SlotId) : Slot := tblGetD s.slots k {}

/-- The state with a slot's registers set. -/
def setSlot (s : State) (k : SlotId) (v : Slot) : State := { s with slots := tblSet s.slots k v }

/-- The NOTIFY message of a slot that reached DONE or REFUSED (R199). -/
def slotNotify (s : State) (k : SlotId) : State :=
  if bitOf ((getSlot s k).cmd.headD 0#32) 16 then vectorEvent s k.fn (1 + k.slot) else s

/-- A slot returns to IDLE with SEQ 0 (R235). -/
def slotIdle (v : Slot) : Slot :=
  { v with st := .idle, cause := 0, goLost := false, goCause := 0, seq := 0#32, started := false }

/-- A reset that reaches the slot's tenant is in progress: the slot's result is never readable (R173, R227). -/
def slotHidden (s : State) (k : SlotId) : Bool := s.forfeits.any fun f => f.tenants.contains k.fn

/-- A result of a slot leaves the Mordant, and the completion of its command is a checkpoint (R827, R833). -/
def slotOutput (s : State) : State := takeCheckpoint (mordantOutput s 0)

/-- A command completes: the results, then DONE (R198), then the message of R199; under a reset of its tenant the slot is IDLE
(R173, R227). DESIGN CHOICE, unsafe: log 44. -/
def slotDone (s : State) (k : SlotId) (res : List Word) : State :=
  let v := getSlot s k
  if slotHidden s k then setSlot s k (slotIdle v)
  else slotNotify (setSlot (slotOutput s) k { v with res := (res ++ List.replicate 6 0#32).take 6, st := .done, cause := 0, started := false }) k

/-- A command is refused with a cause (R189, R221). -/
def slotRefuse (s : State) (k : SlotId) (cause : Nat) : State :=
  let v := getSlot s k
  if slotHidden s k then setSlot s k (slotIdle v)
  else slotNotify (setSlot (slotOutput s) k { v with st := .refused, cause := cause, started := false }) k

/-- The command that a slot carried under a SEQ completes: nothing where the slot no longer carries it (R227, R230). -/
def slotFinish (s : State) (k : SlotId) (seq : Word) (res : List Word) : State :=
  let v := getSlot s k
  if v.st = .busy && v.started && v.seq = seq then slotDone s k res else s

/-! Contexts and queues -/

/-- A context, when it exists. -/
def getCtx (s : State) (c : CtxId) : Option Ctx := tblGet s.ctxs c

/-- The state with a context changed. -/
def modCtx (s : State) (c : CtxId) (g : Ctx → Ctx) : State := { s with ctxs := tblModify s.ctxs c g }

/-- A queue, when it exists. -/
def getQueue (s : State) (q : QueueId) : Option Queue := tblGet s.queues q

/-- The state with a queue changed. -/
def modQueue (s : State) (q : QueueId) (g : Queue → Queue) : State := { s with queues := tblModify s.queues q g }

/-- The contexts of a tenant. -/
def ctxsOf (s : State) (fn : Nat) : List CtxId := (s.ctxs.map Prod.fst).filter fun c => c.tenant = fn

/-- The queues of a context. -/
def queuesOf (s : State) (c : CtxId) : List QueueId := (s.queues.map Prod.fst).filter fun q => q.ctx = c

/-- The owner encoding of a context (Table 08-1, Table 06-7). -/
def ownerCode (c : CtxId) : Nat := 1 + 64 * c.tenant + c.idx

/-! Power domains -/

/-- A domain's record. -/
def getDom (s : State) (d : Nat) : Domain := s.power.domains.getD d {}

/-- The state with a domain changed. -/
def modDom (s : State) (d : Nat) (g : Domain → Domain) : State :=
  { s with power := { s.power with domains := s.power.domains.modify d g } }

/-- A domain is on. -/
def domOn (s : State) (d : Nat) : Bool := (getDom s d).st == .on

/-- A domain in another state since a stamp. -/
def Domain.change (x : Domain) (st : DomState) (t : Stamp) : Domain :=
  { x with st := st, changedAt := t, changedBefore := x.changedAt, byIdle := false }

/-- A domain that an idle evaluation switches off at the stamp of new work stays on (R122). -/
def Domain.stay (x : Domain) (t : Stamp) : Domain :=
  if x.st = .switchingOff && x.byIdle && x.changedAt = t then
    { x with st := .on, changedAt := x.changedBefore, byIdle := false, idleSince := none }
  else x

/-- A domain for which there is work: it wakes, or wakes once it is off (R109, R123); under FORCE_OFF the work waits (R114). -/
def Domain.wake (x : Domain) (t : Stamp) : Domain :=
  match x.st with
  | .off => if x.policy = .forceOff then x else x.change .waking t
  | .switchingOff => { x with wakeAfter := x.policy ≠ .forceOff }
  | _ => x

/-- Work for a domain decides its wake, or keeps it and a core's Madder on (R109, R114, R122, R123).
DEDUCED, unsafe: log 20. -/
def requestWake (s : State) (d : Nat) : State :=
  let t := s.metro.now
  let s := modDom s d fun x => (x.stay t).wake t
  if d < 24 && domOn s d then modDom s (24 + d) fun x => x.stay t else s

/-- The class of a domain for IDLE_OFF (Table 05-8). -/
def domClass (d : Nat) : Nat :=
  if d < 24 then 0 else if d < 48 then 1 else if d < 64 then 2 else if d == 64 then 3 else if d < 71 then 4 else 5

/-- Bank group of a slice. -/
def bankOf (slice : Nat) : Nat := slice / 3

/-- A bank group is on. -/
def bankOn (s : State) (g : Nat) : Bool := domOn s (48 + g)

end Sys2Proof.Machine
end

