-- ==== Sys2Proof/Machine/MemOps.lean ====
section
/-!
DEFINITION. Device memory: LPDDR cells, the zero map and poison (spec 07), translation (R299 to R305), the Vat's
lines, quotas and replacement (spec 08), scratchpad segments, and reading and writing at a home.
-/

namespace Sys2Proof.Machine

/-! LPDDR cells: a list of address and byte with rising addresses and no zero byte listed; an unlisted byte reads 0 -/

/-- The byte at an address. DESIGN CHOICE, unsafe: log 6. -/
def cellGet : List Host.Cell → Nat → Byte
  | [], _ => 0#8
  | (a', b) :: rest, a => if a' = a then b else cellGet rest a

/-- The cells with one byte written, in canonical form. -/
def cellSet : List Host.Cell → Nat → Byte → List Host.Cell
  | [], a, b => if b = 0#8 then [] else [(a, b)]
  | (a', b') :: rest, a, b =>
    if a < a' then (if b = 0#8 then (a', b') :: rest else (a, b) :: (a', b') :: rest)
    else if a = a' then (if b = 0#8 then rest else (a, b) :: rest)
    else (a', b') :: cellSet rest a b

/-- The cells with a range of bytes reading 0. -/
def cellsZero (l : List Host.Cell) (base len : Nat) : List Host.Cell :=
  l.filter fun c => !(base ≤ c.1 && c.1 < base + len)

/-- The canonical form: addresses strictly rising and no listed byte 0. -/
def Memory.wf : List Host.Cell → Bool
  | [] => true
  | [(_, b)] => b ≠ 0#8
  | (a, b) :: (a', b') :: rest => b ≠ 0#8 && a < a' && Memory.wf ((a', b') :: rest)

/-- A sector from 32 little-endian bytes. -/
def sectorOfBytes (bs : List Byte) : Sector := BitVec.ofNat 256 (leNat (bs.take 32))

/-- Byte k of a sector. -/
def sectorByte (d : Sector) (k : Nat) : Byte := d.extractLsb' (8 * k) 8

/-- The 32 bytes of a sector. -/
def sectorBytes (d : Sector) : List Byte := (List.range 32).map (sectorByte d)

/-- The sector at a 32-byte-aligned address of the cells. -/
def cellsSector (l : List Host.Cell) (pa : Nat) : Sector := sectorOfBytes ((rangeFrom pa 32).map (cellGet l))

/-- A sector with the bytes of `new` where the mask has 1. -/
def mergeSector (old new : Sector) (mask : BitVec 32) : Sector :=
  sectorOfBytes ((List.range 32).map fun k => if mask.getLsbD k then sectorByte new k else sectorByte old k)

/-- The cells with a sector's masked bytes written. -/
def cellsWriteSector (l : List Host.Cell) (pa : Nat) (d : Sector) (mask : BitVec 32) : List Host.Cell :=
  (List.range 32).foldl (fun l k => if mask.getLsbD k then cellSet l (pa + k) (sectorByte d k) else l) l

/-- A mask with every byte of a sector. -/
def fullMask : BitVec 32 := 0xFFFFFFFF#32

/-! Capacity -/

/-- LPDDR5X channels in service (R31, R33). -/
def channels (s : State) : Nat := if s.life.straps.memHalf then 8 else 16

/-- Usable capacity in bytes (R335). DESIGN CHOICE, safe: log 36. -/
def usableBytes (s : State) : Nat :=
  let raw := channels s * (if s.lpddr.density2g then 2 ^ 31 else 2 ^ 30)
  if s.lpddr.ecc then raw * 15 / 16 else raw

/-- The device pool in bytes: the usable capacity less the reserved region (R336). -/
def poolBytes (s : State) : Nat := usableBytes s - 2 ^ 29

/-- The device pool in 2 MiB units (R336, R360). -/
def poolUnits (s : State) : Nat := poolBytes s / 2 ^ 21

/-- The channel that a physical address maps to (R334). -/
def channelOf (s : State) (pa : Nat) : Nat :=
  if s.life.straps.memHalf then
    bitsNat pa 10 8 ^^^ bitsNat pa 14 12 ^^^ bitsNat pa 18 16 ^^^ bitsNat pa 22 20
  else bitsNat pa 11 8 ^^^ bitsNat pa 15 12 ^^^ bitsNat pa 19 16 ^^^ bitsNat pa 23 20

/-- The channel-local address of a physical address (R334). DESIGN CHOICE, unsafe: log 6. -/
def channelLocal (s : State) (pa : Nat) : Nat :=
  if s.life.straps.memHalf then pa / 2 ^ 11 * 256 + pa % 256 else pa / 2 ^ 12 * 256 + pa % 256

/-! The memory controller -/

/-- A 4 KiB block is marked in the zero map (R311). -/
def zeroMarked (l : Lpddr) (pa : Nat) : Bool :=
  match tblGet l.zeroMap (pa / 2 ^ 21) with
  | some cleared => !cleared.contains (pa / 4096 % 512)
  | none => false

/-- The first write to a marked block zeroes it and clears its bit (R311). -/
def zeroBlock (l : Lpddr) (pa : Nat) : Lpddr :=
  if zeroMarked l pa then
    let base := pa / 4096 * 4096
    { l with
      cells := cellsZero l.cells base 4096
      poison := l.poison.filter fun a => !(base ≤ a && a < base + 4096)
      zeroMap := tblModify l.zeroMap (pa / 2 ^ 21) fun c => insertOnce c (pa / 4096 % 512) }
  else l

/-- A sector of a block whose zero-map word was lost and that nothing has written whole since (Table 07-8). -/
def badBlockSector (l : Lpddr) (pa : Nat) : Bool :=
  match tblGet l.badBlocks (pa / 4096) with
  | some written => !written.contains (pa % 4096 / 32)
  | none => false

/-- A sector as the DRAM returns it: poison while out of service (R965), zero for a marked block (R311), poison for a
sector marked so (R345, R346). DESIGN CHOICE, unsafe: log 6. -/
def dramRead (l : Lpddr) (pa : Nat) : Sector × Bool :=
  if !l.inService then (0#256, true)
  else if zeroMarked l pa then (0#256, false)
  else (cellsSector l.cells pa, l.poison.contains pa || badBlockSector l pa)

/-- A sector marked as poison: the check pattern with inline ECC (R345), an entry of the list of 64 without (R346).
The flag says that the list was full and the poison is lost. -/
def markPoison (l : Lpddr) (pa : Nat) : Lpddr × Bool :=
  if l.poison.contains pa then (l, false)
  else if l.ecc || l.poison.length < 64 then ({ l with poison := l.poison ++ [pa] }, false)
  else (l, true)

/-- A masked write of one sector (R311, R344 to R346): dropped while out of service (R965). The flag says that poison
was lost. -/
def dramWrite (l : Lpddr) (pa : Nat) (d : Sector) (mask : BitVec 32) (poison : Bool) : Lpddr × Bool :=
  if !l.inService then (l, false)
  else
    let l := zeroBlock l pa
    let l := { l with cells := cellsWriteSector l.cells pa d mask }
    if poison then markPoison l pa
    else if mask = fullMask then
      ({ l with
          poison := l.poison.filter fun a => a ≠ pa
          badBlocks := tblModify l.badBlocks (pa / 4096) fun w => insertOnce w (pa % 4096 / 32) }, false)
    else (l, false)

/-- LPDDR as it will stand once the write-backs in flight to a sector have arrived: the home slice orders later
accesses after them (R375). -/
def lpddrAfter (s : State) (pa : Nat) : Lpddr :=
  (s.traffic.writeBacks.filter fun e => e.2.pa = pa && e.2.stage = .sent).foldl
    (fun l e => (dramWrite l e.2.pa e.2.data e.2.mask e.2.poison).1) s.lpddr

/-- A write leaves a home slice for its memory NI (R366, R375). -/
def sendWriteBack (s : State) (w : WriteBack) : State :=
  let w := { w with stamp := s.stamp }
  { s with traffic := { s.traffic with
      writeBacks := s.traffic.writeBacks ++ [(s.traffic.nextAccess, w)], nextAccess := s.traffic.nextAccess + 1 } }

/-- Who asks a slice for a line: the owner that the line gets (R369), the priority of what the allocation causes (Table 09-5),
whether it is a TILE line (R389), and the slice's choice of a victim. -/
structure Asker where
  owner : Nat := 0
  pri : Nat := 0
  tile : Bool := false
  lru : Nat := 0
  deriving DecidableEq, Repr

/-! Vat addressing and lines -/

/-- Slice of a physical address (R361). -/
def sliceOf (pa : Nat) : Nat := pa / 128 % 48

/-- Tag of a physical address (R361). -/
def tagOf (pa : Nat) : Nat := pa / 128 / 48 / 1024

/-- Set of a physical address (R361). -/
def setOf (pa : Nat) : Nat :=
  let q := pa / 128 / 48
  (q % 1024) ^^^ (q / 1024 % 1024)

/-- Sector of a physical address within its line (R361). -/
def sectorOf (pa : Nat) : Nat := pa / 32 % 4

/-- The physical address of a line. -/
def linePa (ln : Line) : Nat := ((ln.tag * 1024 + (ln.set ^^^ (ln.tag % 1024))) * 48 + ln.slice) * 128

/-- The line holds a physical address's line number. -/
def lineIs (pa : Nat) (ln : Line) : Bool := ln.slice == sliceOf pa && ln.set == setOf pa && ln.tag == tagOf pa

/-- The line that caches an address. -/
def findLine (s : State) (pa : Nat) : Option Line := s.vat.lines.find? (lineIs pa)

/-- The line with its sector k. -/
def lineSector (ln : Line) (k : Nat) : LineSector := ln.sectors.getD k {}

/-- The lines with the line of a physical address replaced. -/
def putLine (ls : List Line) (ln : Line) : List Line :=
  ls.map fun x => if x.slice = ln.slice ∧ x.set = ln.set ∧ x.way = ln.way then ln else x

/-- The state with a line replaced. -/
def setLine (s : State) (ln : Line) : State := { s with vat := { s.vat with lines := putLine s.vat.lines ln } }

/-- The state without a line. -/
def dropLine (s : State) (ln : Line) : State :=
  { s with vat := { s.vat with lines := s.vat.lines.filter fun x => !(x.slice == ln.slice && x.set == ln.set && x.way == ln.way) } }

/-- The dirty sectors of a line leave as write-backs of a priority (R366, Table 09-5). -/
def writeBackLine (s : State) (ln : Line) (pri : Nat) : State :=
  (List.range 4).foldl (fun s k =>
    let x := lineSector ln k
    if x.sd then sendWriteBack s { pa := linePa ln + 32 * k, data := x.data, mask := fullMask, poison := x.poison,
                                   place := some (ln.set, ln.way), owner := ln.owner, pri := pri }
    else s) s

/-- A line is written back and leaves. -/
def evictLine (s : State) (ln : Line) (pri : Nat) : State := dropLine (writeBackLine s ln pri) ln

/-- A line with no dirty sector (R366). -/
def cleanLine (ln : Line) : Line := { ln with sectors := ln.sectors.map fun x => { x with sd := false } }

/-- Cache-role ways that take allocations: a conversion in progress stops allocation into its ways (R382, Table 08-3). -/
def cacheWays (s : State) : List Nat :=
  (List.range 16).filter fun w => !s.vat.convMask.getLsbD w && !((s.vat.converting.getD 0#16).getLsbD w)

/-- Ways in the scratchpad role. -/
def convWays (s : State) : List Nat := (List.range 16).filter fun w => s.vat.convMask.getLsbD w

/-- Lines that the Vat could hold in the cache role (R370). -/
def linesCache (s : State) : Nat := (cacheWays s).length * 49152

/-- A tenant's limit in lines (R370). -/
def tenantLimit (s : State) (fn : Nat) : Nat := linesCache s * (getFn s fn).grant.quota / 64

/-- A context's limit in lines (R370). -/
def ctxLimit (s : State) (c : CtxId) : Nat :=
  tenantLimit s c.tenant * ((getCtx s c).map Ctx.cacheQuota).getD 64 / 64

/-- The tenant of an owner code, none for the device. -/
def ownerTenant (o : Nat) : Option Nat := if o = 0 then none else some ((o - 1) / 64)

/-- The context of an owner code. -/
def ownerCtx (o : Nat) : Option CtxId := if o = 0 then none else some { tenant := (o - 1) / 64, idx := (o - 1) % 64 }

/-- Lines owned by an owner (R371). -/
def ownerCount (s : State) (o : Nat) : Nat := (s.vat.lines.filter fun ln => ln.owner == o).length

/-- Lines owned by a tenant's contexts (R371). -/
def tenantCount (s : State) (fn : Nat) : Nat := (s.vat.lines.filter fun ln => ownerTenant ln.owner == some fn).length

/-- An owner is over-limit when its count, or its tenant's, exceeds the limit (R372). -/
def overLimit (s : State) (o : Nat) : Bool :=
  match ownerCtx o with
  | none => false
  | some c => ownerCount s o > ctxLimit s c || tenantCount s c.tenant > tenantLimit s c.tenant

/-- The group of lines that an allocation replaces from, in the order of R372. -/
def victimGroup (s : State) (set : List Line) (owner : Nat) : List Line :=
  match ownerCtx owner with
  | some c =>
    if ownerCount s owner ≥ ctxLimit s c then set.filter fun ln => ln.owner == owner
    else if tenantCount s c.tenant ≥ tenantLimit s c.tenant then
      set.filter fun ln => ownerTenant ln.owner == some c.tenant
    else if set.any fun ln => overLimit s ln.owner then set.filter fun ln => overLimit s ln.owner
    else set
  | none => if set.any fun ln => overLimit s ln.owner then set.filter fun ln => overLimit s ln.owner else set

/-- The line of a group that leaves: never a TILE line; a NEXT line first; else the slice's choice `lru`, never the
line most recently allocated or hit while another is eligible (R372). DESIGN CHOICE, safe: log 39. -/
def chooseVictim (s : State) (slice set : Nat) (group : List Line) (lru : Nat) : Option Line :=
  let eligible := group.filter fun ln => !ln.tile
  match eligible.find? fun ln => ln.next with
  | some ln => some ln
  | none =>
    let mru := tblGet s.vat.mru (slice, set)
    let others := eligible.filter fun ln => some ln.way ≠ mru
    let pick := if others.isEmpty then eligible else others
    pick[lru % pick.length]?

/-- The slice's bank group is on (R395). -/
def sliceOn (s : State) (slice : Nat) : Bool := bankOn s (bankOf slice)

/-- Where an allocation goes: a cache-role way with no valid line, else the way of a victim (R372), within the TILE
limit of R390. -/
def chooseWay (s : State) (pa : Nat) (k : Asker) : Option (Nat × Option Line) :=
  let slice := sliceOf pa
  let set := setOf pa
  let here := s.vat.lines.filter fun ln => ln.slice == slice && ln.set == set
  let tileWays := (here.filter fun ln => ln.tile).length
  if !sliceOn s slice then none
  else if k.tile && tileWays ≥ max 1 ((cacheWays s).length / 4) then none
  else
    match (cacheWays s).find? fun w => !here.any fun ln => ln.way == w with
    | some w => some (w, none)
    | none => (chooseVictim s slice set (victimGroup s here k.owner) k.lru).map fun ln => (ln.way, some ln)

/-- The line most recently allocated or hit in its set (R372). -/
def touchLine (s : State) (ln : Line) : State :=
  { s with vat := { s.vat with mru := tblSet s.vat.mru (ln.slice, ln.set) ln.way } }

/-- A new line for an address: the victim's dirty sectors are written back and the way takes the line with no sector
valid. None where the chosen group holds no eligible line: the access then does not allocate (R372). -/
def allocLine (s : State) (pa : Nat) (k : Asker) : Option (State × Line) :=
  (chooseWay s pa k).map fun (w, victim) =>
    let s := match victim with
      | some ln => evictLine s ln k.pri
      | none => s
    let ln : Line := { slice := sliceOf pa, set := setOf pa, way := w, tag := tagOf pa, owner := k.owner, tile := k.tile }
    (touchLine { s with vat := { s.vat with lines := s.vat.lines ++ [ln] } } ln, ln)

/-- A sector of a line filled from LPDDR, poison included (R343, R365). A sector that is valid stays. -/
def fillSector (s : State) (ln : Line) (k : Nat) (badFill : Bool) : Line :=
  if (lineSector ln k).sv then ln
  else
    let (d, p) := dramRead (lpddrAfter s (linePa ln + 32 * k)) (linePa ln + 32 * k)
    { ln with sectors := ln.sectors.set k { sv := true, sd := false, poison := p || badFill, data := d } }

/-- Every sector of a line filled (R365). -/
def fillLine (s : State) (ln : Line) (bad : List Bool) : Line :=
  (List.range 4).foldl (fun ln k => fillSector s ln k (bad.getD k false)) ln

/-- A sector as an access at its home reads it: the line's where it is valid, else LPDDR's. -/
def homeSector (s : State) (pa : Nat) : Sector × Bool :=
  let direct := dramRead (lpddrAfter s (pa / 32 * 32)) (pa / 32 * 32)
  match findLine s pa with
  | some ln => let x := lineSector ln (sectorOf pa); if x.sv then (x.data, x.poison) else direct
  | none => direct

/-- Bytes written to one sector: mask and data from (offset, byte) pairs relative to a base address. -/
def sectorPatch (base : Nat) (bytes : List (Nat × Byte)) (secPa : Nat) : Sector × BitVec 32 :=
  let inSec := bytes.filter fun e => secPa ≤ base + e.1 && base + e.1 < secPa + 32
  let at_ := fun k => (inSec.reverse.find? fun e => base + e.1 == secPa + k).map Prod.snd
  (sectorOfBytes ((List.range 32).map fun k => (at_ k).getD 0#8),
   BitVec.ofNat 32 (((List.range 32).map fun k => if (at_ k).isSome then 2 ^ k else 0).sum))

/-- A store's patch merged into a line's sector (R365, R393): whole sectors need no fill; a partial store fills first
and leaves a poisoned sector poisoned. -/
def patchLine (s : State) (ln : Line) (k : Nat) (d : Sector) (mask : BitVec 32) (poison : Bool) : Line :=
  if mask = 0#32 then ln
  else if mask = fullMask then
    { ln with sectors := ln.sectors.set k { sv := true, sd := true, poison := poison, data := d } }
  else
    let ln := fillSector s ln k false
    let x := lineSector ln k
    { ln with sectors := ln.sectors.set k { sv := true, sd := true, poison := x.poison || poison, data := mergeSector x.data d mask } }

/-- The four patches of a store within one line. -/
def linePatches (base : Nat) (bytes : List (Nat × Byte)) (pa : Nat) : List (Sector × BitVec 32) :=
  (List.range 4).map fun k => sectorPatch base bytes (pa / 128 * 128 + 32 * k)

/-- A store to a device line, to a line that is resident, or allocated where `alloc` allows, else written to LPDDR
through the slice (R365, R369, R372, R375, R395, R401). -/
def storeLine (s : State) (pa : Nat) (asker : Asker) (bytes : List (Nat × Byte)) (poison stream : Bool) : State :=
  let ps := linePatches pa bytes pa
  let write := fun (s : State) (ln : Line) =>
    let ln := (List.range 4).foldl (fun ln k =>
      let p := ps.getD k (0#256, 0#32)
      patchLine s ln k p.1 p.2 poison) ln
    let ln := { ln with owner := asker.owner, next := if stream && !ln.tile then true else ln.next }
    touchLine (setLine s ln) ln
  match findLine s pa with
  | some ln => write s ln
  | none =>
    match (if stream then none else allocLine s pa { asker with tile := false }) with
    | some (s, ln) => write s ln
    | none =>
      (List.range 4).foldl (fun s k =>
        let p := ps.getD k (0#256, 0#32)
        if p.2 = 0#32 then s
        else sendWriteBack s { pa := pa / 128 * 128 + 32 * k, data := p.1, mask := p.2, poison := poison,
                               writer := ownerCtx asker.owner, owner := asker.owner, pri := asker.pri }) s

/-! Scratchpad segments -/

/-- Bytes of a segment (R385). -/
def segBytes : Nat := 2 ^ 18

/-- A segment's sector as read. A free segment reads as zero (R387). -/
def segSector (s : State) (addr : Nat) : Sector × Bool :=
  match tblGet s.vat.segs (addr / segBytes) with
  | some g => (tblGetD g.data (addr % segBytes / 32) 0#256, g.poison.contains (addr % segBytes / 32))
  | none => (0#256, false)

/-- A masked write of one sector of a segment (R388, R393). -/
def segWrite (s : State) (addr : Nat) (d : Sector) (mask : BitVec 32) (poison : Bool) : State :=
  let k := addr % segBytes / 32
  { s with vat := { s.vat with segs := tblModify s.vat.segs (addr / segBytes) fun g =>
      { g with
        data := tblSet g.data k (mergeSector (tblGetD g.data k 0#256) d mask)
        poison := if poison then insertOnce g.poison k
                  else if mask = fullMask then removeAll g.poison k else g.poison } } }

/-- A store to a segment. -/
def storeSeg (s : State) (addr : Nat) (bytes : List (Nat × Byte)) (poison : Bool) : State :=
  (linePatches addr bytes addr).zipIdx.foldl (fun s pk =>
    if pk.1.2 = 0#32 then s else segWrite s (addr / 128 * 128 + 32 * pk.2) pk.1.1 pk.1.2 poison) s

/-! Reading and writing at a home -/

/-- A byte at a device home with its poison. -/
def homeByte (s : State) (h : Home) (k : Nat) : Byte × Bool :=
  match h with
  | .device pa => let x := homeSector s (pa + k); (sectorByte x.1 ((pa + k) % 32), x.2)
  | .scratch a => let x := segSector s (a + k); (sectorByte x.1 ((a + k) % 32), x.2)
  | .host .. => (0#8, false)

/-- Bytes at a device home: the data, and whether any sector read is poison. DESIGN CHOICE, safe: log 4. -/
def homeRead (s : State) (h : Home) (len : Nat) : List Byte × Bool :=
  let l := (List.range len).map (homeByte s h)
  (l.map Prod.fst, l.any Prod.snd)

/-- Some work fetches or will fetch instructions. -/
def programsRun (s : State) : Bool :=
  !(s.cores.groups.isEmpty && s.cores.dispatches.isEmpty && s.cores.saved.isEmpty && s.gfx.frames.isEmpty)

/-- A host-memory home. -/
def Home.isHost : Home → Bool
  | .host .. => true
  | _ => false

/-- The 8-byte unit of a home that an offset lies in. -/
def Home.unit (h : Home) (off : Nat) : Home :=
  match h with
  | .device pa => .device ((pa + off) / 8 * 8)
  | .scratch a => .scratch ((a + off) / 8 * 8)
  | h => h

/-- The 8-byte units of a home that bytes lie in. -/
def unitsOf (h : Home) (bytes : List (Nat × Byte)) : List Home :=
  if h.isHost then [] else (bytes.map fun e => h.unit e.1).eraseDups

/-- The 8-byte units that a write at a device home is about to change are remembered for the programs that run (R480).
DESIGN CHOICE, safe: log 14. -/
def noteOld (s : State) (h : Home) (owner : Nat) (bytes : List (Nat × Byte)) : State :=
  let old := (unitsOf h bytes).map fun u => ({ home := u, bytes := (homeRead s u 8).1, owner := owner } : OldUnit)
  { s with cores := { s.cores with overwritten := if programsRun s then s.cores.overwritten ++ old else [] } }

/-- A free choice of a replacement victim. DESIGN CHOICE, safe: log 7. DESIGN CHOICE, safe: log 39. -/
def freeLru (s : State) : Nat × State := (Config.freeNat s.free, { s with free := s.free + 1 })

/-- The eight bytes of a 64-bit word as a store. -/
def wordBytes (v : Dword) : List (Nat × Byte) := (leBytes 8 v.toNat).zipIdx.map fun e => (e.2, e.1)

/-! Translation -/

/-- What an access needs of its leaf (Table 07-4). -/
inductive AccessNeed where
  | load | store | atomic | fetch | bar2Read | bar2Write
  deriving DecidableEq, Repr

/-- Translation faults (Table 07-8). -/
inductive XFault where
  | range | unmapped | perm | orphaned | tablePoison
  deriving DecidableEq, Repr

/-- Error codes of translation faults (Table 18-6). -/
def XFault.code : XFault → Nat
  | .range => 0x0300
  | .unmapped => 0x0301
  | .perm => 0x0302
  | .orphaned => 0x0303
  | .tablePoison => 0x0304

/-! Translation tables -/

/-- VA bits below an entry of a level (Table 07-2). -/
def levelShift (level : Nat) : Nat := 12 + 9 * level

/-- The table of a level that a walk of a VA reads: its level and the VA bits above it. -/
def tableKey (level va : Nat) : Nat × Nat := (level, va / 2 ^ levelShift (level + 1))

/-- The level of the entry that a leaf is. -/
def Leaf.level (l : Leaf) : Nat := if l.size = .p2m then 1 else 0

/-- The VAs that an entry translates. -/
def Leaf.span (l : Leaf) : Nat := 2 ^ levelShift l.level

/-- The entry translates a VA. -/
def Leaf.covers (l : Leaf) (va : Nat) : Bool := l.va ≤ va && va < l.va + l.span

/-- The leaf that maps a VA. -/
def findLeaf (c : Ctx) (va : Nat) : Option Leaf := c.leaves.find? fun l => l.covers va

/-- TGT and the address of a leaf's page (Table 07-3). -/
def LeafTarget.fields : LeafTarget → Nat × Nat
  | .device a => (0, a)
  | .host a => (1, a)
  | .shareHost a => (2, a)
  | .scratch a => (3, a)

/-- The word of a leaf, or of an entry whose page is orphaned (Table 07-3, R302). -/
def Leaf.word (l : Leaf) : Dword :=
  if l.orphaned then 2#64
  else
    let f := l.target.fields
    BitVec.ofNat 64 (3 + 4 * natOfBool (l.size == .p64k) + 8 * natOfBool l.w + 16 * natOfBool l.x + 32 * natOfBool l.ap +
      64 * f.1 + f.2 % 2 ^ 52 / 2 ^ 12 * 2 ^ 12 + 2 ^ 63 * natOfBool l.share.isSome)

/-- The base of the reserved region (R336). -/
def reservedBase (s : State) : Nat := poolBytes s

/-- The physical address of a page of the table area: the upper 256 MiB of the reserved region (R336, R337).
DESIGN CHOICE, unsafe: log 61. -/
def tablePa (s : State) (page : Nat) : Nat := reservedBase s + 2 ^ 28 + 4096 * page

/-- The physical address of the entry that a walk reads in a table (R300). -/
def entryPa (s : State) (page level va : Nat) : Nat := tablePa s page + va / 2 ^ levelShift level % 512 * 8

/-- The word of the entry for a VA at a level: a leaf's, a pointer to the table below, or 0 (R300, R301, R302). -/
def entryWord (s : State) (x : Ctx) (level va : Nat) : Dword :=
  match x.leaves.find? fun l => l.level == level && l.covers va with
  | some l => l.word
  | none =>
    match (if level = 0 then none else tblGet x.tables (tableKey (level - 1) va)) with
    | some page => BitVec.ofNat 64 (1 + tablePa s page)
    | none => 0#64

/-- A sector of the reserved region reads as poison: in the line that holds it, else in LPDDR. -/
def structurePoison (s : State) (pa : Nat) : Bool :=
  let direct := s.lpddr.poison.contains (pa / 32 * 32)
  match findLine s pa with
  | some ln => let x := lineSector ln (sectorOf pa); if x.sv then x.poison else direct
  | none => direct

/-- The fault of an entry with V = 0, by its reason (R302). -/
def invalidFault (e : Dword) : XFault := if e.extractLsb' 1 3 = 1#3 then .orphaned else .unmapped

/-- The walk of a VA from a level down: the leaf's level and word, or the fault (R300, R302, Table 07-8). -/
def walk (s : State) (x : Ctx) (va : Nat) : Nat → Except XFault (Nat × Dword)
  | 0 =>
    match tblGet x.tables (tableKey 0 va) with
    | none => .error .unmapped
    | some page =>
      let e := entryWord s x 0 va
      if structurePoison s (entryPa s page 0 va) then .error .tablePoison
      else if !e.getLsbD 0 then .error (invalidFault e)
      else .ok (0, e)
  | level + 1 =>
    match tblGet x.tables (tableKey (level + 1) va) with
    | none => .error .unmapped
    | some page =>
      let e := entryWord s x (level + 1) va
      if structurePoison s (entryPa s page (level + 1) va) then .error .tablePoison
      else if !e.getLsbD 0 then .error (invalidFault e)
      else if e.getLsbD 1 then (if level = 0 then .ok (1, e) else .error .unmapped)
      else walk s x va level

/-- Table 07-4: what an access needs of the leaf's word. -/
def needMet (need : AccessNeed) (e : Dword) : Bool :=
  let dev := e.extractLsb' 6 2 == 0#2
  match need with
  | .load => true
  | .store => e.getLsbD 3
  | .atomic => e.getLsbD 3
  | .fetch => e.getLsbD 4
  | .bar2Read => e.getLsbD 5 && dev
  | .bar2Write => e.getLsbD 5 && e.getLsbD 3 && dev

/-- The bytes of the page that a leaf's word maps (Table 07-2). -/
def wordPage (level : Nat) (e : Dword) : Nat := if level = 1 then 2 ^ 21 else if e.getLsbD 2 then 2 ^ 16 else 2 ^ 12

/-- Where an access to a VA goes by its leaf's word (R303). A host share leaves on the exporter's port (Table 07-5). -/
def wordHome (s : State) (c : CtxId) (share : Option Nat) (level va : Nat) (e : Dword) : Option Home :=
  let addr := (e.extractLsb' 12 40).toNat * 4096 + va % wordPage level e
  match (e.extractLsb' 6 2).toNat with
  | 0 => some (.device addr)
  | 1 => some (.host (portOf c.tenant) c.tenant addr)
  | 2 =>
    match share.bind (tblGet s.alloc.shares ·) with
    | some sh => sh.exporter.map fun x => .host (portOf x) x addr
    | none => none
  | _ => some (.scratch addr)

/-- The translation of a VA for an access (R299 to R305). DESIGN CHOICE, unsafe: log 18. -/
def translate (s : State) (c : CtxId) (va : Nat) (need : AccessNeed) : Except XFault (Home × Leaf) :=
  if va ≥ 2 ^ 48 then .error .range
  else
    match getCtx s c with
    | none => .error .unmapped
    | some x =>
      match walk s x va 3 with
      | .error f => .error f
      | .ok (level, e) =>
        match findLeaf x va with
        | none => .error .unmapped
        | some l =>
          if !needMet need e then .error .perm
          else match wordHome s c l.share level va e with
            | none => .error .unmapped
            | some h => .ok (h, l)

/-! Changing translation tables -/

/-- Pages of the table area in use. -/
def usedTables (s : State) : List Nat := s.ctxs.flatMap fun e => e.2.tables.map Prod.snd

/-- A page of the table area that no table occupies. DESIGN CHOICE, unsafe: log 61. -/
def freeTable (s : State) : Nat :=
  ((List.range ((usedTables s).length + 1)).find? fun p => !(usedTables s).contains p).getD 0

/-- A page of the table area is written whole with entries of V = 0, which clears its poison (Table 07-8). -/
def wipeTable (s : State) (page : Nat) : State :=
  let inside := fun (pa : Nat) => tablePa s page ≤ pa && pa < tablePa s page + 4096
  let clean := fun (ln : Line) =>
    if inside (linePa ln) then { ln with sectors := ln.sectors.map fun x => { x with poison := false } } else ln
  { s with
    lpddr := { s.lpddr with poison := s.lpddr.poison.filter fun a => !inside a }
    vat := { s.vat with lines := s.vat.lines.map clean } }

/-- A context gets a table where it has none of that key (R300). -/
def addTable (s : State) (c : CtxId) (key : Nat × Nat) : State :=
  if ((getCtx s c).bind fun x => tblGet x.tables key).isSome then s
  else wipeTable (modCtx s c fun x => { x with tables := x.tables ++ [(key, freeTable s)] }) (freeTable s)

/-- The tables that some leaves lie under, the root apart (Table 07-2). -/
def leafTables (ls : List Leaf) : List (Nat × Nat) :=
  (ls.flatMap fun l => (if l.level = 0 then [tableKey 0 l.va] else []) ++ [tableKey 1 l.va, tableKey 2 l.va]).eraseDups

/-- A leaf is of a scratchpad segment. -/
def isSegLeaf (l : Leaf) : Bool := match l.target with
  | .scratch _ => true
  | _ => false

/-- A leaf lies under a table. -/
def underTable (key : Nat × Nat) (l : Leaf) : Bool := l.level ≤ key.1 && tableKey key.1 l.va == key

/-- The tables of a level that stay when some leaves go: those that they do not lie under, and those with a valid entry left, a
leaf or a pointer to a table below that stays (R317). -/
def levelStays (x : Ctx) (out kept : List Leaf) (below : List (Nat × Nat)) (level : Nat) : List (Nat × Nat) :=
  (x.tables.map Prod.fst).filter fun key => key.1 == level &&
    (!(out.any (underTable key)) || (kept.any fun l => !l.orphaned && l.level == level && underTable key l) ||
      below.any fun b => (b.1 + 1, b.2 / 512) == key)

/-- A context without some of its leaves. A table that this leaves with no valid entry is freed with the entry that points to it,
but for the root (R317). DEDUCED, unsafe: log 50. -/
def removeLeaves (x : Ctx) (gone : Leaf → Bool) : Ctx :=
  let out := x.leaves.filter gone
  let kept := x.leaves.filter fun l => !gone l
  let t0 := levelStays x out kept [] 0
  let t1 := levelStays x out kept t0 1
  let t2 := levelStays x out kept t1 2
  let tables := x.tables.filter fun e => e.1.1 == 3 || t0.contains e.1 || t1.contains e.1 || t2.contains e.1
  { x with tables := tables, leaves := kept.filter fun l => (tblGet tables (tableKey l.level l.va)).isSome }

/-! Writing at a home -/

/-- A write at a device home asks for an evaluation of every wait on one of its words (R246). -/
def noteWaits (s : State) (h : Home) (bytes : List (Nat × Byte)) : State :=
  let units := unitsOf h bytes
  let hit := fun (q : QueueId) (w : WaitRec) => match translate s q.ctx w.addr .load with
    | .ok (x, _) => units.contains (x.unit 0)
    | .error _ => false
  { s with queues := s.queues.map fun e => match e.2.wait with
      | some w => if hit e.1 w then (e.1, { e.2 with wait := some { w with due := true } }) else e
      | none => e }

/-- What a write at a home makes known: the old units of programs, and the waits that it concerns. -/
def noteWrite (s : State) (h : Home) (owner : Nat) (bytes : List (Nat × Byte)) : State :=
  noteWaits (noteOld s h owner bytes) h bytes

/-- Bytes written at a device home by an owner; within one 128-byte line. -/
def homeWrite (s : State) (h : Home) (k : Asker) (bytes : List (Nat × Byte)) (poison : Bool) : State :=
  let s := noteWrite s h k.owner bytes
  match h with
  | .device pa => storeLine s pa k bytes poison false
  | .scratch a => storeSeg s a bytes poison
  | .host .. => s

/-! Counted bytes of the query record (R284) -/

/-- Bytes counted for an access of a context: 32 for each sector. -/
def countBytes (s : State) (c : CtxId) (h : Home) (shared write : Bool) (sectors : Nat) : State :=
  let b := 32 * sectors
  modCtx s c fun x =>
    let k := x.counters
    { x with counters :=
      if shared then (if write then { k with wrShared := k.wrShared + b } else { k with rdShared := k.rdShared + b })
      else match h with
        | .device _ => if write then { k with wrLpddr := k.wrLpddr + b } else { k with rdLpddr := k.rdLpddr + b }
        | .scratch _ => if write then { k with wrScratch := k.wrScratch + b } else { k with rdScratch := k.rdScratch + b }
        | .host .. => if write then { k with wrHost := k.wrHost + b } else { k with rdHost := k.rdHost + b } }

/-- Sectors that a byte range touches. -/
def sectorsOf (addr len : Nat) : Nat := if len = 0 then 0 else (addr + len - 1) / 32 + 1 - addr / 32

end Sys2Proof.Machine
end

