-- ==== Sys2Proof/Machine/QueueOps.lean ====
section
/-!
DEFINITION. The bandwidth regulator's admission (spec 09) and the queue engine: fetching units, starting and
completing packets, chain errors, submissions and parking (spec 06).
-/

namespace Sys2Proof.Machine

/-! The regulator -/

/-- A partition's record. -/
def getPart (f : Fabric) (p : Nat) : Partition := f.parts.getD p {}

/-- The fabric with a partition changed. -/
def modPart (f : Fabric) (p : Nat) (g : Partition → Partition) : Fabric := { f with parts := f.parts.modify p g }

/-- Window length in ns. -/
def Partition.window (p : Partition) : Nat := p.cfg.windowUs * 1000

/-- Sectors a partition may commit in a window (R423). -/
def Partition.limit (p : Partition) : Nat := 2 * p.cfg.budget

/-- What the hub grants for a charge k (R426), with whether the oversize rule applies. -/
def hubGrant (p : Partition) (k : Nat) : Nat × Bool :=
  if p.oversize then (0, false)
  else if k > p.limit then (if p.committed = 0 then (k, true) else (0, false))
  else
    let g := min (max 8 k) (p.limit - p.committed)
    if g ≥ k then (g, false) else (0, false)

/-- One admission attempt of a charge at an NI in the current window (R426, R427): admitted or held. -/
def attempt (f : Fabric) (ni part k : Nat) : Bool × Fabric :=
  let p := getPart f part
  let c := tblGetD f.credit (ni, part) (0, 0)
  if c.1 ≥ k && c.2 == p.windowStart then
    (true, { modPart f part (fun p => { p with admitted := p.admitted + k }) with
      credit := tblSet f.credit (ni, part) (c.1 - k, c.2) })
  else
    let back := if c.2 == p.windowStart then c.1 else 0
    let p := { p with committed := p.committed - back }
    let g := hubGrant p k
    if g.1 = 0 then
      (false, { modPart f part (fun _ => { p with
          heldWindows := if p.heldNow then p.heldWindows else satAdd 16 p.heldWindows 1
          heldNow := true }) with credit := tblSet f.credit (ni, part) (0, p.windowStart) })
    else
      (true, { modPart f part (fun _ => { p with
          committed := p.committed + g.1
          oversize := p.oversize || g.2
          admitted := p.admitted + k }) with credit := tblSet f.credit (ni, part) (g.1 - k, p.windowStart) })

/-- An ungated charge is added to the window of its stamp (R430). -/
def chargeUngated (s : State) (part : Option Nat) (k : Nat) : State :=
  match part with
  | none => s
  | some p =>
    if (getPart s.fabric p).cfg.en then
      { s with fabric := modPart s.fabric p fun x => { x with committed := x.committed + k, admitted := x.admitted + k } }
    else s

/-- The partition that a context's accesses are charged to, when one is set and enabled (R424). -/
def chargePart (s : State) (c : CtxId) : Option Nat :=
  match (getCtx s c).bind Ctx.partition with
  | some p => if (getPart s.fabric p).cfg.en then some p else none
  | none => none

/-- The current window of a partition contains the stamp of an attempt (R427, R436): at a boundary the window ends
first. -/
def inPartWindow (s : State) (p : Nat) : Bool :=
  let x := getPart s.fabric p
  !x.cfg.en || s.stamp < x.windowStart + x.window

/-- NI of the queue engines: the client NI at router 3 (Table 09-1). -/
def systemNi : Nat := 48 + 3

/-! Accesses given up -/

/-- A write that its port holds since its function may issue no request (R171). -/
def heldWrite (s : State) (a : Access) : Bool :=
  match a.home, a.kind with
  | .host p fn _, .write .. => !hostReady s p fn
  | _, _ => false

/-- Accesses of discarded work (Table 18-8 step 2): held and unissued requests go, writes admitted to a home are still
performed unless their port holds them, reads on the link keep their tags, and data that returns is discarded (R171, R808). -/
def stopAccesses (s : State) (p : Access → Bool) : State :=
  let keep : Nat × Access → Option (Nat × Access) := fun e =>
    if !p e.2 then some e
    else match e.2.stage, e.2.kind with
      | .onLink .., _ => some (e.1, { e.2 with dropped := true })
      | _, .read => none
      | .admitted _, _ => if heldWrite s e.2 then none else some (e.1, { e.2 with dropped := true })
      | .filling _, _ => some (e.1, { e.2 with dropped := true })
      | .filled _, _ => some (e.1, { e.2 with dropped := true })
      | _, _ => none
  { s with traffic := { s.traffic with accesses := s.traffic.accesses.filterMap keep } }

/-- The evaluation of a wait in progress is given up. -/
def dropWait (s : State) (q : QueueId) : State := stopAccesses s fun a => a.client == .wait q

/-! Queue events, errors and submissions -/

/-- A vector's message is to follow the tenant's writes to host memory that its port has still to send (R157). -/
def afterWrites (s : State) (fn v : Nat) : State :=
  if (getFn s fn).msixEnable && writesToSend s fn s.traffic.nextAccess then
    modFn s fn fun f => { f with awaits := f.awaits ++ [(v, s.traffic.nextAccess)] }
  else s

/-- A queue event sends the bound vector, after the writes that it covers (R157, R263). -/
def queueEvent (s : State) (q : QueueId) : State :=
  match getQueue s q with
  | some r => if r.vector = 0 then s else vectorEvent (afterWrites s q.ctx.tenant r.vector) q.ctx.tenant r.vector
  | none => s

/-- A saturating 16-bit and 32-bit count of a submission met or missed (Table 06-9). -/
def countSubmission (s : State) (q : QueueId) (met : Bool) : State :=
  modCtx s q.ctx fun x =>
    let d := x.dlQueue.getD q.q (0, 0)
    { x with
      counters := if met then { x.counters with dlMet := satAdd 32 x.counters.dlMet 1 }
                  else { x.counters with dlMissed := satAdd 32 x.counters.dlMissed 1 }
      dlQueue := x.dlQueue.set q.q (if met then (satAdd 16 d.1 1, d.2) else (d.1, satAdd 16 d.2 1)) }

/-- A submission still open at its deadline is missed: MISSED, the event and the count (R266). -/
def declareMiss (s : State) (q : QueueId) : State :=
  countSubmission (queueEvent (modQueue s q fun r => { r with missed := true, subMissed := true }) q) q false

/-- The submission closes at the first park with nothing latched and every fetched packet complete (R265). -/
def closeSubmission (s : State) (q : QueueId) : State :=
  match getQueue s q with
  | none => s
  | some r =>
    match r.sub, r.chain with
    | some d, .atEnd _ =>
      if r.latched || !r.pkts.isEmpty then s
      else
        let c := max r.park r.lastDone
        let s' := modQueue s q fun r => { r with sub := none, subMissed := false }
        if r.subMissed then s'
        else if c < d then countSubmission s' q true
        else countSubmission (queueEvent (modQueue s' q fun r => { r with missed := true }) q) q false
    | _, _ => s

/-- A submission cancelled by reset or by entry to ERROR is not counted again (R267). -/
def cancelSubmission (r : Queue) : Queue := { r with sub := none, subMissed := false }

/-- The state a queue reports from what it holds (Table 06-7a). -/
def queueStateOf (r : Queue) : QueueState :=
  if r.st = .error then .error
  else if r.stops.contains .preempt then .stopped
  else if !r.stops.isEmpty && (r.pkts.all fun p => r.wait.any fun w => w.pkt == p.num) then .stopped
  else
    match r.wait with
    | some w => if r.pkts.all fun p => p.num = w.pkt then .waiting else .running
    | none =>
      match r.chain with
      | .none => .idle
      | .atEnd _ => if r.pkts.isEmpty then .parked else .running
      | .linkRead _ =>
        match r.lastEnd with
        | none => .idle
        | some e => if e && r.pkts.isEmpty then .parked else .running
      | .segment .. => .running

/-- A latched doorbell acts once the queue is not stopped and has no read or segment of its own: it reads the anchor or
re-reads the END link word, and the latch is cleared (R256, R257, R261). One that comes after END while packets are still in progress
acts at once. DESIGN CHOICE, unsafe: log 59. -/
def actLatch (r : Queue) : Queue :=
  if !r.latched || !r.stops.isEmpty || r.st = .error then r
  else match r.chain with
    | .none => { r with chain := .linkRead r.anchor, qPos := r.anchor, latched := false }
    | .atEnd va => { r with chain := .linkRead va, latched := false }
    | _ => r

/-- A queue is stopped by a reset of its context or by Sepia suspension (Table 06-7a). -/
def ctxStopped (s : State) (c : CtxId) : Bool := (forfeitOf s c).isSome || (getFn s c.tenant).suspended

/-- The queue's latch and reported state brought up to date, and its submission closed where R265 closes it; the latch of a queue whose
context is stopped stays (R261). -/
def settleQueue (s : State) (q : QueueId) : State :=
  let keeps := ctxStopped s q.ctx
  closeSubmission (modQueue s q fun r => let r := if keeps then r else actLatch r; { r with st := queueStateOf r }) q

/-- Entry to ERROR: the event is the caller's (R263). -/
def enterError (s : State) (q : QueueId) : State :=
  modQueue (dropWait s q) q fun r => cancelSubmission { r with st := .error, latched := false, wait := none }

/-- A chain error (R293). -/
def chainError (s : State) (q : QueueId) (code addr : Nat) (tag : Word) : State :=
  let s := detect s { queueRec s code 2 q with addr := .va addr, tag := tag }
  let s := modQueue s q fun r => { r with lastErr := code }
  queueEvent (enterError s q) q

/-- A packet completes (R263, Table 06-8). -/
def completePkt (s : State) (q : QueueId) (num : Nat) : State :=
  match getQueue s q with
  | none => s
  | some r =>
    match r.pkts.find? fun p => p.num = num with
    | none => s
    | some p =>
      let s := if r.wait.any fun w => w.pkt = num then dropWait s q else s
      let s := modQueue s q fun r =>
        { r with
          pkts := r.pkts.filter fun p => p.num ≠ num
          retired := r.retired + 1#32
          qTag := p.tag
          lastDone := s.stamp
          wait := r.wait.filter fun w => w.pkt ≠ num
          signal := r.signal.filter fun o => o.pkt ≠ num }
      let s := if p.notify then queueEvent s q else s
      settleQueue s q

/-- An error completion (R294): counted, recorded and sent; the queue enters ERROR unless ERR_CONT is set. -/
def errorPkt (s : State) (q : QueueId) (num code : Nat) (addr : RecAddr) (loc : Loc) (detail : BitVec 128) : State :=
  match getQueue s q with
  | none => s
  | some r =>
    match r.pkts.find? fun p => p.num = num with
    | none => s
    | some p =>
      let s := detect s { queueRec s code 1 q with addr := addr, tag := p.tag, loc := loc, detail := detail }
      let s := if r.wait.any fun w => w.pkt = num then dropWait s q else s
      let s := modQueue s q fun r =>
        { r with
          pkts := r.pkts.filter fun p => p.num ≠ num
          retired := r.retired + 1#32
          qTag := p.tag
          lastDone := s.stamp
          lastErr := code
          wait := r.wait.filter fun w => w.pkt ≠ num
          signal := r.signal.filter fun o => o.pkt ≠ num }
      let s := queueEvent s q
      if p.errCont then settleQueue s q else enterError s q

end Sys2Proof.Machine
end

