-- ==== Sys2Proof/Machine/ForfeitOps.lean ====
section
/-!
DEFINITION. Releasing what a context or a tenant holds, shared objects (spec 07), and the forfeit: its start and its
completion (spec 18, Table 18-8).
-/

namespace Sys2Proof.Machine

/-! Memory objects, segments and shares -/

/-- Units return to the device pool after the freed-unit sweep: every line that caches them is discarded, and write-backs of
them that are on their way, so that nothing cached can overwrite a later object's zeroing (R313, R380).
DEDUCED, unsafe: log 11. -/
def freeUnitsSweep (s : State) (units : List Nat) : State :=
  { s with
    vat := { s.vat with lines := s.vat.lines.filter fun ln => !units.contains (linePa ln / 2 ^ 21) }
    traffic := { s.traffic with writeBacks := s.traffic.writeBacks.filter fun e => !units.contains (e.2.pa / 2 ^ 21) }
    lpddr := { s.lpddr with
      usedUnits := s.lpddr.usedUnits.filter fun u => !units.contains u
      zeroMap := s.lpddr.zeroMap.filter fun e => !units.contains e.1 } }

/-- An object is freed (R313). -/
def freeObject (s : State) (handle : Nat) : State :=
  match tblGet s.lpddr.objects handle with
  | none => s
  | some o =>
    freeUnitsSweep { s with lpddr := { s.lpddr with objects := tblErase s.lpddr.objects handle } } o.units

/-- The object that holds a physical address's unit. -/
def objectAt (s : State) (pa : Nat) : Option Nat :=
  (s.lpddr.objects.find? fun e => e.2.units.contains (pa / 2 ^ 21)).map Prod.fst

/-- Some context maps a page of the object. -/
def objectMapped (s : State) (handle : Nat) : Bool :=
  s.ctxs.any fun e => e.2.leaves.any fun l => match l.target with
    | .device pa => objectAt s pa == some handle
    | _ => false

/-- Some share that has not ended exports the object (R314). -/
def objectShared (s : State) (handle : Nat) : Bool :=
  s.alloc.shares.any fun e => e.2.handle == handle && handle != 0 && e.2.exporter.isSome

/-- Objects whose tenant was forfeited are freed once nothing maps or shares them (R328, R813). -/
def reapObjects (s : State) : State :=
  let dead := s.lpddr.objects.filter fun e => e.2.ownerLost && !objectMapped s e.1 && !objectShared s e.1
  dead.foldl (fun s e => freeObject s e.1) s

/-- Segments of a context that are zeroed and freed (R387). -/
def freeSegs (s : State) (which : Segment → Bool) : State :=
  { s with vat := { s.vat with segs := s.vat.segs.map fun e => if which e.2 then (e.1, {}) else e } }

/-- Segments of a context are zeroed and stay held (Table 08-6). -/
def zeroSegs (s : State) (c : CtxId) : State :=
  { s with vat := { s.vat with segs := s.vat.segs.map fun e => if e.2.holder = some c then (e.1, { holder := some c }) else e } }

/-- The contexts of a share's importer, changed. -/
def mapImporter (s : State) (importer : Option Nat) (f : Ctx → Ctx) : State :=
  { s with ctxs := s.ctxs.map fun e => if some e.1.tenant = importer then (e.1, f e.2) else e }

/-- A context whose leaves of a share are rewritten with V = 0 and reason 0b001; no table is freed by it (R302, R329).
DEDUCED, unsafe: log 50. -/
def orphanLeaves (id : Nat) (x : Ctx) : Ctx :=
  { x with leaves := x.leaves.map fun l => if l.share = some id then { l with orphaned := true } else l }

/-! Waits that become unreachable -/

/-- The word of a wait can no longer be reached: its mapping is gone or lies behind a port in reset (R281). -/
def waitUnreachable (s : State) (q : QueueId) (w : WaitRec) : Bool :=
  match translate s q.ctx w.addr .load with
  | .error .unmapped => true
  | .error .orphaned => true
  | .error _ => false
  | .ok (.host p _ _, _) => (getPort s p).inReset
  | .ok _ => false

/-- Waits on words that became unreachable end in WAIT_UNREACHABLE (R281). -/
def recheckWaits (s : State) : State :=
  s.queues.foldl (fun s e =>
    match e.2.wait with
    | some w =>
      if (forfeitOf s e.1.ctx).isNone && waitUnreachable s e.1 w then
        errorPkt s e.1 w.pkt 0x0211 (.va w.addr) { unit := .queueEngine } 0#128
      else s
    | none => s) s

/-! Contexts -/

/-- A queue after a context reset (Table 06-12): IDLE at its anchor, its definition kept. -/
def resetQueue (r : Queue) : Queue :=
  { doorbell := r.doorbell, kind := r.kind, prio := r.prio, preempt := r.preempt, anchor := r.anchor,
    vector := r.vector, tailPoll := r.tailPoll, deadline := r.deadline, qPos := r.anchor, missed := r.missed,
    park := r.park, lastDone := r.lastDone,
    stops := r.stops.filter fun x => x = .d3hot || x = .crystal,
    st := if r.stops.any fun x => x = .d3hot || x = .crystal then .stopped else .idle }

/-- A context reset's effect on the context and its queues once its work is gone (Table 03-9, Table 06-12, Table
08-6): segments zeroed, detector counts that name the context 0. -/
def resetContext (s : State) (c : CtxId) : State :=
  let s := zeroSegs s c
  let s := modCtx s c fun x => { x with sems := [] }
  { s with
    queues := s.queues.map fun e => if e.1.ctx = c then (e.1, resetQueue e.2) else e
    vat := { s.vat with detectors := s.vat.detectors.map fun e => if e.2.ctx = some c then (e.1, { e.2 with count := 0 }) else e } }

/-- A context is destroyed: mappings, tables, segments, save area, queues and exclusive clusters go (R309, R387). -/
def destroyContext (s : State) (c : CtxId) : State :=
  let units := ((getCtx s c).map Ctx.saveUnits).getD []
  let s := freeSegs s fun g => g.holder = some c
  let s := freeUnitsSweep s units
  { s with
    ctxs := tblErase s.ctxs c
    queues := s.queues.filter fun e => e.1.ctx ≠ c
    cores := { s.cores with clusters := s.cores.clusters.map fun k => if k.excl = some c then { k with excl := none } else k }
    vat := { s.vat with detectors := s.vat.detectors.map fun e => if e.2.ctx = some c then (e.1, { e.2 with count := 0 }) else e } }

/-! Stopping work -/

/-- The queue for which an engine reads. -/
def readerQueue (s : State) : Reader → Option QueueId
  | .queue q => some q
  | .geometry q => some q
  | .fetch slot => (tblGet s.cores.groups slot).map Group.queue
  | .bins core => (tblGet s.gfx.tiles core).map Tile.queue
  | .compose _ => none
  | .args q _ => some q

/-- The queue for which an access is made (R238, R244). -/
def accessQueue (s : State) : Client → Option QueueId
  | .groupStore slot => (tblGet s.cores.groups slot).map Group.queue
  | .groupLoad slot _ => (tblGet s.cores.groups slot).map Group.queue
  | .madderStore slot => (tblGet s.cores.groups slot).map Group.queue
  | .publish slot => (tblGet s.cores.groups slot).map Group.queue
  | .sampler slot _ => (tblGet s.cores.groups slot).map Group.queue
  | .madderLoad slot _ => (tblGet s.cores.groups slot).map Group.queue
  | .xferRead q _ _ => some q
  | .xferWrite q _ _ => some q
  | .geometry q => some q
  | .tile core => (tblGet s.gfx.tiles core).map Tile.queue
  | .reader r => readerQueue s r
  | .signal q => some q
  | .wait q => some q
  | .composeWrite => none
  | .bar2 _ => none
  | .mordant _ => none
  | .broken .. => none

/-- The access is no work of a context: a host's own through BAR2, or the Mordant's. -/
def Client.outside : Client → Bool
  | .bar2 _ => true
  | .mordant _ => true
  | .broken .. => true
  | _ => false

/-- An access belongs to a queue of a set, or to a context of a set. -/
def accessIn (s : State) (qs : QueueId → Bool) (cs : CtxId → Bool) (a : Access) : Bool :=
  !a.client.outside && ((a.ctx.map cs).getD false || ((accessQueue s a.client).map qs).getD false)

/-- Thread groups, engines' work and accesses of queues are discarded where they stand (Table 18-8 step 2, R291, R492, R499,
R588, R672, R746, R781). -/
def stopQueues (s : State) (qs : QueueId → Bool) (cs : CtxId → Bool) : State :=
  let s := flushVectors (stopAccesses s (accessIn s qs cs))
  let gone := (s.cores.groups.filter fun e => qs e.2.queue).map Prod.fst
  let ds := (s.cores.dispatches.filter fun e => qs e.2.queue).map Prod.fst
  { s with
    cores := { s.cores with
      groups := s.cores.groups.filter fun e => !qs e.2.queue
      wgs := s.cores.wgs.filter fun e => !qs e.2.queue
      dispatches := s.cores.dispatches.filter fun e => !qs e.2.queue
      saved := s.cores.saved.filter fun e => !qs e.2.wg.queue
      reserve := s.cores.reserve.filter fun e => !ds.contains e.2 }
    madders := { s.madders with ops := s.madders.ops.filter fun e => !gone.contains e.2.group }
    gfx := { s.gfx with
      frames := s.gfx.frames.filter fun e => !qs e.1
      bound := if (s.gfx.bound.map qs).getD false then none else s.gfx.bound
      tiles := s.gfx.tiles.filter fun e => !qs e.2.queue }
    xfer :=
      { s.xfer with
        active := s.xfer.active.filter fun e => !qs e.2.queue
        waiting := s.xfer.waiting.filter fun o => !qs o.queue
        saved := s.xfer.saved.filter fun o => !qs o.queue }
    compose := s.compose.filter fun x => !cs x.ctx }

/-- The work of contexts is discarded (Table 18-8 step 2). -/
def stopWork (s : State) (p : CtxId → Bool) : State := stopQueues s (fun q => p q.ctx) p

/-! The forfeit -/

/-- Contexts that a part of a forfeit covers when it starts. -/
def partCtxs (s : State) : ForfeitPart → List CtxId
  | .kill c _ => [c]
  | .ctxReset c => [c]
  | .ctxDestroy c => [c]
  | .revokeReset c => [c]
  | .sepiaReset c => [c]
  | .tenantReset fn => ctxsOf s fn
  | .flr fn => ctxsOf s fn
  | .suspend fn => ctxsOf s fn
  | .portReset p _ _ => (s.ctxs.map Prod.fst).filter fun c => portOf c.tenant = p
  | .vfClear p => (s.ctxs.map Prod.fst).filter fun c => portOf c.tenant = p && !isPf c.tenant
  | .warm => s.ctxs.map Prod.fst

/-- Tenants that a part forfeits as a whole (R327). -/
def partTenants (s : State) : ForfeitPart → List Nat
  | .tenantReset fn => [fn]
  | .flr fn => [fn]
  | .suspend fn => [fn]
  | .portReset p _ _ => (fnsOf p).filter (isTenant s)
  | .vfClear p => (fnsOf p).filter fun fn => !isPf fn && isTenant s fn
  | .warm => (List.range 128).filter (isTenant s)
  | _ => []

/-- Two forfeits overlap (R818, R119). -/
def overlaps (f g : Forfeit) : Bool :=
  (f.ctxs.any g.ctxs.contains) || (f.tenants.any g.tenants.contains) ||
    (f.ctxs.any fun c => g.tenants.contains c.tenant) || (g.ctxs.any fun c => f.tenants.contains c.tenant)

/-- Two overlapping forfeits as one: the first one's stamp, the parts in order (R818). -/
def mergeForfeit (f g : Forfeit) : Forfeit :=
  { parts := f.parts ++ g.parts
    ctxs := (f.ctxs ++ g.ctxs).eraseDups
    tenants := (f.tenants ++ g.tenants).eraseDups
    stamp := f.stamp
    extra := satAdd 16 f.extra g.extra
    slots := f.slots ++ g.slots
    marks := f.marks ++ g.marks }

/-- A forfeit is decided (Table 18-8 steps 1 and 2): its set is marked, merged with the forfeits it overlaps, and the
set's work is discarded. DEDUCED, unsafe: log 11. -/
def startForfeit (s : State) (parts : List ForfeitPart) (slots : List (SlotId × Word × List Word)) : State :=
  let f : Forfeit :=
    { parts := parts, ctxs := (parts.flatMap (partCtxs s)).eraseDups, tenants := (parts.flatMap (partTenants s)).eraseDups,
      stamp := s.stamp, slots := slots }
  let hit := s.forfeits.filter (overlaps f)
  let rest := s.forfeits.filter fun g => !overlaps f g
  let f := match hit with
    | [] => f
    | g :: gs => mergeForfeit (gs.foldl mergeForfeit g) f
  stopWork { s with forfeits := rest ++ [f] } fun c => f.ctxs.contains c

/-- The forfeit sweep: every line owned by a context of the set is discarded, dirty or clean (R381).
DEDUCED, unsafe: log 11. -/
def forfeitSweep (s : State) (p : CtxId → Bool) : State :=
  { s with vat := { s.vat with lines := s.vat.lines.filter fun ln => !((ownerCtx ln.owner).map p).getD false } }

/-- A share whose party is forfeited as a whole (R327 to R329, R813): half-granted ends; granted by both becomes
ORPHANED and the remaining party is told; already ORPHANED with both gone ends. -/
def orphanShare (s : State) (id : Nat) (sh : Share) (gone : Nat → Bool) : State :=
  let eGone := (sh.exporter.map gone).getD false
  let iGone := (sh.importer.map gone).getD false
  if !eGone && !iGone then s
  else
    let sh' := { sh with exporterLost := sh.exporterLost || eGone, importerLost := sh.importerLost || iGone }
    if sh.st = .half || (sh'.exporterLost && sh'.importerLost) then
      { s with alloc := { s.alloc with shares := tblErase s.alloc.shares id } }
    else
      let s := { s with alloc := { s.alloc with shares := tblSet s.alloc.shares id { sh' with st := .orphaned } } }
      let s := if eGone && sh.handle = 0 then
          mapImporter s sh.importer (orphanLeaves id)
        else s
      let remaining := if eGone then sh.importer else sh.exporter
      if sh.st = .both then
        match remaining with
        | some r => detect s (recOf s 0x0305 0 [.t] (some r))
        | none => s
      else s

/-- Shares of tenants forfeited as a whole (Table 18-8 step 6). -/
def orphanShares (s : State) (gone : Nat → Bool) : State :=
  s.alloc.shares.foldl (fun s (e : Nat × Share) => orphanShare s e.1 e.2 gone) s

/-- A share that its importer still holds keeps an object alive after its exporter is gone (R328). -/
def objectKept (s : State) (handle : Nat) : Bool :=
  s.alloc.shares.any fun e => e.2.handle == handle && e.2.st == .orphaned && !e.2.importerLost

/-- An object of a forfeited tenant is freed, or kept without an owner while a share needs it (R328, R813). -/
def releaseObject (s : State) (handle : Nat) : State :=
  if objectKept s handle then
    { s with lpddr := { s.lpddr with objects := tblModify s.lpddr.objects handle fun o => { o with ownerLost := true } } }
  else freeObject s handle

/-- Writes that the Mordant made for the commands of a tenant's slots are forgotten once performed. -/
def dropMordant (s : State) (fn : Nat) : State :=
  { s with traffic := { s.traffic with accesses := s.traffic.accesses.filterMap fun e => match e.2.client with
      | .mordant k => if k.fn = fn then (if e.2.stage == .answered then none else some (e.1, { e.2 with dropped := true })) else some e
      | _ => some e } }

/-- A tenant loses its contexts, queues, objects and slots (Table 03-9, Table 06-12, Table 07-10, R235, R944). -/
def clearTenant (s : State) (fn : Nat) : State :=
  let s : State := (ctxsOf s fn).foldl destroyContext s
  let mine := (s.lpddr.objects.filter fun e => e.2.tenant == fn && !e.2.ownerLost).map Prod.fst
  let s : State := mine.foldl releaseObject s
  let s := dropMordant s fn
  let s := { s with slots := s.slots.map fun (e : SlotId × Slot) => if e.1.fn = fn then (e.1, slotIdle e.2) else e }
  let s := { s with err := { s.err with sel := tblSet s.err.sel fn 0 } }
  reapObjects (modFn s fn fun f =>
    { f with apCtx := 0, apEn := false, apVaHi := 0, apFaultRun := false, resetting := false })

/-- A port reset, an FLR or a tenant reset also discards the Metronome capture, which a warm device reset keeps (R62). -/
def resetTenant (s : State) (fn : Nat) : State := modFn (clearTenant s fn) fn fun f => { f with metroCap := none }

/-- A function's configuration space and MSI-X table at their reset values (Table 03-9, R944). -/
def clearConfig (f : Fn) : Fn :=
  { f with memEnable := false, busMaster := false, msixEnable := false, msixFnMask := false, msix := [], pba := [],
           awaits := [], bars := [], aer := {}, cto := 0, mrrs := 512, mps := 128, atomicEn := false, d3hot := false }

/-- A function that ceases to be a tenant: its grant returns and its window is emptied (R145, R819). -/
def ceaseTenant (s : State) (fn : Nat) : State :=
  let s := setFn s fn { fnDefault fn with fnCause := (getFn s fn).fnCause }
  { s with err := { s.err with
      stored := (s.err.stored.map fun r => { r with windows := removeAll r.windows fn }).filter fun r => !r.windows.isEmpty
      drop := tblErase s.err.drop fn
      sel := tblErase s.err.sel fn } }

/-- A killed context's queues enter ERROR with the kill's code in LAST_ERR, and their pre-emptions end (R781, R805, Table 18-12). -/
def killQueues (s : State) (c : CtxId) (code : Nat) : State :=
  (queuesOf s c).foldl (fun s q =>
    queueEvent (modQueue s q fun r =>
      cancelSubmission { r with
        st := .error, latched := false, wait := none, signal := none, pkts := [], lastErr := code
        stops := removeAll r.stops .preempt, preempting := none }) q) s

/-- The VFs of a port that NumVFs covers. -/
def coveredVfs (s : State) (p : PortId) : List Nat := (rangeFrom 1 (getPort s p).numVfs).map (fnOfVf p)

/-- The VFs that NumVFs covers and that are not there appear, where VF Enable is 1 (R145, R186). -/
def enableVfs (s : State) (p : PortId) : State :=
  if (getPort s p).vfEnable then
    (coveredVfs s p).foldl (fun s fn =>
      if (getFn s fn).phase == .absent then
        setFn s fn { fnDefault fn with phase := .enabling, fnCause := (getFn s fn).fnCause }
      else s) s
  else s

/-- A function as the reset of its port leaves it: its configuration space, and its grant, go (Table 03-9). -/
def portFn (f : Fn) : Fn := { clearConfig f with grant := {}, flr := false, flrForfeited := false }

/-- The effect of a part of a forfeit at its completion (Table 03-9). -/
def finishPart (s : State) : ForfeitPart → State
  | .kill c r => killQueues s c r.code
  | .ctxReset c => resetContext s c
  | .revokeReset c => resetContext s c
  | .sepiaReset c => resetContext s c
  | .ctxDestroy c => destroyContext s c
  | .tenantReset fn => resetTenant s fn
  | .flr fn =>
    let s := modFn (resetTenant s fn) fn fun f => { clearConfig f with flrForfeited := true }
    if isAdmin fn then modPort s (portOf fn) fun x => { x with tenBit := false }
    else if isPf fn then modPort s (portOf fn) fun x => { x with numVfs := 0, ari := false, vfBars := [] }
    else s
  | .suspend fn => resetTenant s fn
  | .vfClear p =>
    let vfs := (fnsOf p).filter fun fn => !isPf fn && (getFn s fn).phase != .absent
    enableVfs (vfs.foldl (fun s fn => ceaseTenant (resetTenant s fn) fn) s) p
  | .portReset p _ _ =>
    let s := (fnsOf p).foldl resetTenant s
    let s := (fnsOf p).foldl (fun s fn => if isPf fn then modFn s fn portFn else ceaseTenant s fn) s
    modPort s p fun x => { x with inReset := false, tenBit := false, ari := false, vfEnable := false, numVfs := 0, vfBars := [] }
  | .warm =>
    let slots := s.slots
    let s := (List.range 128).foldl (fun s fn => if fnExists s fn then clearTenant s fn else s) s
    { s with slots := slots }

/-- What a part makes of FN_CAUSE of a function: the width of its reset, and its cause (Table 03-10, R174). -/
def partCause (fn : Nat) : ForfeitPart → Option (Nat × Nat)
  | .tenantReset g => if g = fn then some (1, 4) else none
  | .suspend g => if g = fn then some (1, 5) else none
  | .flr g => if g = fn then some (2, 3) else none
  | .vfClear p => if portOf fn = p && !isPf fn then some (3, 4) else none
  | .portReset p cause _ => if portOf fn = p then some (4, cause) else none
  | .warm => some (5, 0)
  | _ => none

/-- FN_CAUSE that a forfeit leaves for a function: of the reset in progress, or of a wider one that took it over (R119, R136). -/
def forfeitCause (parts : List ForfeitPart) (fn : Nat) : Option (Nat × Nat) :=
  (parts.filterMap (partCause fn)).foldl (fun acc x => match acc with
    | none => some x
    | some y => if y.1 < x.1 then some x else some y) none

/-- FN_CAUSE of every function that a forfeit resets (R136). -/
def setCauses (s : State) (parts : List ForfeitPart) : State :=
  (List.range 128).foldl (fun s fn => match forfeitCause parts fn with
    | some x => if fnExists s fn then modFn s fn fun f => { f with fnCause := x.2 } else s
    | none => s) s

/-- CTX_FORFEIT reason of a part (R812); none where its own record names it. -/
def partReason : ForfeitPart → Option Nat
  | .ctxReset _ => some 1
  | .flr _ => some 2
  | .tenantReset _ => some 3
  | .vfClear _ => some 3
  | .ctxDestroy _ => some 4
  | .revokeReset _ => some 4
  | .suspend _ => some 5
  | .sepiaReset _ => some 5
  | .kill .. => none
  | .portReset .. => none
  | .warm => none

/-- The bit mask of context indices of a tenant in a set. -/
def ctxMask (l : List CtxId) (fn : Nat) : Nat := ((l.filter fun c => c.tenant = fn).map fun c => 2 ^ c.idx).sum

/-- CTX_FORFEIT records of a forfeit, one for each tenant (R812): the context mask, the reason, and the semaphores
marked and not reachable. DEDUCED, unsafe: log 11. -/
def forfeitRecords (s : State) (f : Forfeit) (reason : Nat) : List ErrRec :=
  let tenants := (f.ctxs.map CtxId.tenant ++ f.tenants).eraseDups
  tenants.map fun fn =>
    let marked := f.marks.count (fn, true)
    let unreached := f.marks.count (fn, false)
    let mask := ctxMask f.ctxs fn
    { code := 0x0010
      scope := if f.tenants.contains fn then 4 else 3
      stamp := f.stamp
      tenant := some fn
      dest := destOf s (if reason = 4 || reason = 5 then [.t, .p] else [.t]) (some fn) none
      loc := { unit := .mordant }
      extra := f.extra
      detail := detailOf mask (mask / 2 ^ 32) (reason + marked % 256 * 256 + unreached % 256 * 65536) 0 }

/-- The records that report a forfeit at its completion (R796, R812, R818): the kill's fault record, LINK_DOWN of a port
reset, or CTX_FORFEIT with the reason of the first part. -/
def completionRecords (s : State) (f : Forfeit) : List ErrRec :=
  let first := match f.parts.head? with
    | some (.kill _ r) => [{ r with extra := satAdd 16 r.extra f.extra }]
    | some (.portReset _ _ r) => [{ r with extra := satAdd 16 r.extra f.extra }]
    | some p => match partReason p with
      | some n => forfeitRecords s f n
      | none => []
    | none => []
  let later := (f.parts.drop 1).filterMap fun p => match p with
    | .portReset _ _ r => some r
    | _ => none
  first ++ later

/-- Writes and atomics of the set that left their clients are still on their way to their homes (Table 18-8 step 3); an atomic of
host memory is a request that is not waited for (R808). DEDUCED, unsafe: log 11. -/
def forfeitWritesLeft (s : State) (f : Forfeit) : Bool :=
  s.traffic.accesses.any fun e =>
    !e.2.client.spine && (e.2.ctx.map f.ctxs.contains).getD false && e.2.stage != .answered && match e.2.home, e.2.kind with
      | _, .write .. => true
      | .host .., _ => false
      | _, .atomic .. => true
      | _, .read => false

/-- Writes of the set that a port holds are discarded (R171). -/
def dropHeld (s : State) (f : Forfeit) : State :=
  flushVectors { s with traffic := { s.traffic with accesses := s.traffic.accesses.filter fun e =>
      !(!e.2.client.outside && (e.2.ctx.map f.ctxs.contains).getD false && e.2.stage != .answered && heldWrite s e.2) } }

/-- A command of an administration function that the reset reaches still runs, and its effects on others stand once it has
completed (R173, R227); one that a forfeit carries has had them. DESIGN CHOICE, unsafe: log 44. -/
def adminRuns (s : State) (f : Forfeit) : Bool :=
  let carried := s.forfeits.flatMap fun g => g.slots.map Prod.fst
  !f.parts.contains .warm && s.slots.any fun e =>
    let code := (e.2.cmd.headD 0#32).toNat % 2 ^ 16
    e.2.st == .busy && f.tenants.contains e.1.fn && 0x0100 ≤ code && code < 0x0300 && !carried.contains e.1

/-- A forfeit completes (Table 18-8 steps 6 and 7): shares, release, FN_CAUSE, records, and the slots that carried it.
DEDUCED, unsafe: log 11. -/
def finishForfeit (s : State) (k : Nat) : State :=
  match s.forfeits[k]? with
  | none => s
  | some f =>
    let s := orphanShares s fun fn => f.tenants.contains fn
    let recs := completionRecords s f
    let s := { s with forfeits := s.forfeits.eraseIdx k }
    let s := setCauses (f.parts.foldl finishPart s) f.parts
    let s := recs.foldl pushRecord s
    let s := f.slots.foldl (fun s sl => slotFinish s sl.1 sl.2.1 sl.2.2) s
    recheckWaits (reapObjects s)

end Sys2Proof.Machine
end

