-- ==== Sys2Proof/Machine/SepiaOps.lean ====
section
/-!
DEFINITION. Sepia entry as one shared operation: the decision (Table 19-4 steps 1 to 4) and the completion (steps 5
to 8), and when a function's registers answer (R148, R172, R185).
-/

namespace Sys2Proof.Machine

/-- Causes after which copy A runs alone (Table 19-3): LOCKSTEP_MISMATCH, COMPARATOR_UNVERIFIED, DELAY_PARITY. -/
def integrityCause (cause : Nat) : Bool := cause == 0x0009 || cause == 0x000A || cause == 0x000B

/-- A fatal start-up failure (R126): the PHYs stay in or return to Detect and FAULT_N is asserted. -/
def fatal (s : State) (code : Nat) : State :=
  { s with
    life := { s.life with phase := .fatal, startStatus := code, warm := none }
    portA := { s.portA with linkUp := false, speed := 0, width := 0 }
    portB := { s.portB with linkUp := false, speed := 0, width := 0 } }

/-- Copy A alone: copy B in reset, the delay registers bypassed, and the watchdog starts (R846, R847). -/
def aAlone (s : State) : State :=
  { s with lock := { s.lock with
      mode := .aAlone, ifaces := List.replicate 6 {}, log := [], inputs := [], withheld := [], testToken := none
      selfPending := none, replaying := false, heartbeat := s.stamp } }

/-- The slots at Sepia entry (R230): a class D command of an administration function in progress is REFUSED with SEPIA
(0x12), except the one that caused the entry; a suspended tenant's slots return to IDLE. -/
def sepiaSlots (s : State) (keep : Option SlotId) : State :=
  let s : State := { s with slots := s.slots.map fun e => if isAdmin e.1.fn then e else (e.1, slotIdle e.2) }
  (s.slots.map Prod.fst).foldl (fun s k =>
    if isAdmin k.fn && (getSlot s k).st == .busy && (getSlot s k).started && keep ≠ some k then slotRefuse s k 0x12 else s) s

/-- Tenants that Sepia entry suspends (Table 19-4 step 4). -/
def sepiaTenants (s : State) : List Nat := (List.range 128).filter fun fn => isTenant s fn && !isAdmin fn

/-- The forfeits of Sepia entry (Table 19-4 step 4). -/
def sepiaParts (s : State) : List ForfeitPart :=
  (sepiaTenants s).map ForfeitPart.suspend ++
    ((s.ctxs.map Prod.fst).filter fun c => isAdmin c.tenant).map ForfeitPart.sepiaReset

/-- A class Q command that has started is in service: ADM_SHARE is the one that can take more than one event (R230). -/
def classQRuns (s : State) : Bool :=
  s.slots.any fun e => e.2.st == .busy && e.2.started && (e.2.cmd.headD 0#32).toNat % 2 ^ 16 == 0x0104

/-- The device enters Sepia mode for a cause of Table 19-3 (R849). -/
def enterSepia (s : State) (cause : Nat) (slot : Option SlotId) : State :=
    let s0 := s
    let s : State := { s with lock := { s.lock with
        sepia := true, sepiaOut := true, entry := some { stamp := s.stamp, cause := cause, slot := slot } } }
    let s := if integrityCause cause then aAlone s else s
    let s := ibiCause s 0
    let s := faultEdge s0 s
    let s := sepiaSlots s slot
    let parts := sepiaParts s
    let s := (sepiaTenants s).foldl (fun s fn => modFn s fn fun f => { f with suspended := true }) s
    startForfeit s parts []

/-- An entry decided, or waiting, since the current stamp (R842). -/
def enteredNow (s : State) : Option SepiaEntry :=
  (if inSepia s then s.lock.entry else s.lock.waiting).filter fun e => sameStep s e.stamp

/-- A condition outside Sepia mode, or of the stamp of the entry, is one to enter for; once for each entry (R842, R843). -/
def mayEnter (s : State) (cause : Nat) : Bool :=
  isOpen s && !inWarm s && (!inSepia s || (enteredNow s).isSome) &&
    ((s.lock.entry.or s.lock.waiting).all fun e => e.cause != cause)

/-- Conditions of one stamp enter once, with the lowest code (R842); a SEPIA_ENTER that is not the cause ends REFUSED with SEPIA
(R230). -/
def lowestCause (s : State) (cause : Nat) : State :=
  match enteredNow s with
  | some e =>
    if cause < e.cause then
      let e' : SepiaEntry := { e with cause := cause, slot := none }
      let s : State := { s with lock := { s.lock with
          entry := s.lock.entry.map fun _ => e', waiting := s.lock.waiting.map fun _ => e' } }
      match e.slot with
      | some k => slotRefuse s k 0x12
      | none => s
    else s
  | none => s

/-- Sepia entry is decided for a cause of Table 19-3 (R849). It enters once (R842, R843), never before step 9 of Table
03-8 nor during a warm reset (R862); a lockstep fault in Sepia mode puts copy A alone (R843). It waits for a class Q command in
service (R230). -/
def decideSepia (s : State) (cause : Nat) (slot : Option SlotId) : State :=
  if !isOpen s || inWarm s then s
  else if inSepia s then lowestCause (if integrityCause cause && s.lock.mode == .pair then aAlone s else s) cause
  else if classQRuns s then
    let s := if integrityCause cause then aAlone s else s
    if s.lock.waiting.isSome then lowestCause s cause
    else { s with lock := { s.lock with waiting := some { stamp := s.stamp, cause := cause, slot := slot } } }
  else enterSepia s cause slot

/-- A Sepia entry that waited for a class Q command goes on once none is in service (R230). -/
def resumeSepia (s : State) : State :=
  match s.lock.waiting with
  | some e =>
    if classQRuns s then s
    else
      let s : State := { s with lock := { s.lock with waiting := none } }
      if isOpen s && !inWarm s && !inSepia s then enterSepia s e.cause e.slot else s
  | none => s

/-- Every segment is unmapped, zeroed and freed, and every way is cache (Table 08-6, Sepia entry). -/
def dropAllSegments (s : State) : State :=
  { s with
    ctxs := s.ctxs.map fun e => (e.1, removeLeaves e.2 isSegLeaf)
    vat := { s.vat with segs := [], convMask := 0#16, converting := none } }

/-- Bank groups from `lo` up are cleaned: dirty sectors are written back and the lines leave (Table 08-6). -/
def cleanBanks (s : State) (lo : Nat) : State :=
  let out := s.vat.lines.filter fun ln => bankOf ln.slice ≥ lo
  out.foldl (fun s ln => evictLine s ln 0) s

/-- Domains that Sepia mode keeps off (Table 19-4 steps 5 and 6, R853). -/
def sepiaOff (d : Nat) : Bool :=
  (1 ≤ d && d < 24) || (24 ≤ d && d < 48) || (49 ≤ d && d < 64) || d == 64 || (66 ≤ d && d < 71)

/-- The domains that Sepia mode keeps off are switched off, and every policy is overridden: the others follow AUTO (R853).
DEDUCED, unsafe: log 10. -/
def switchOffSepia (s : State) : State :=
  let off := fun (d : Domain) =>
    if d.st = .off then { d with idleSince := none, wakeAfter := false }
    else { d.change .off s.stamp with idleSince := none, wakeAfter := false }
  let ds := s.power.domains.zipIdx.map fun e => { (if sepiaOff e.2 then off e.1 else e.1) with policy := .auto }
  { s with power := { s.power with domains := ds } }

/-- The sample whose output is still to come, after parameters have changed and any episode has ended (R87, R98); its flags go with the
sticky ones at a warm device reset (Table 02-8). -/
def heldAfter (g : Gov) (f : GovParams → GovParams) (flags : Bool) : Option (GovLoop × GovSampleResult) :=
  g.held.map fun h =>
    ({ h.1 with episode := 0, episodeStart := none },
     { h.2 with episode := 0, params := f h.2.params, satHiNow := h.2.satHiNow && !flags, satLoNow := h.2.satLoNow && !flags
                clampNow := h.2.clampNow && !flags, staleNow := h.2.staleNow && !flags })

/-- The Governor at Sepia entry (R87). -/
def sepiaGovernor (s : State) : State :=
  let f := fun (p : GovParams) => { p with mode := 0, vFixed := 0x02BC0000#32, vLo := 0x02580000#32, vHi := 0x03840000#32 }
  { s with gov := { s.gov with
      committed := f s.gov.committed, inForce := f s.gov.inForce, commits := s.gov.commits.map fun c => (c.1, f c.2)
      held := heldAfter s.gov f false
      loop := { s.gov.loop with episode := 0, episodeStart := none } } }

/-- Sepia entry completes (Table 19-4 steps 5 to 8). Clusters return to shared mode (R869). -/
def completeSepia (s : State) (e : SepiaEntry) : State :=
  let s := switchOffSepia (cleanBanks (dropAllSegments s) 1)
  let s : State := { s with cores := { s.cores with clusters := s.cores.clusters.map fun k => { k with excl := none } } }
  let s := sepiaGovernor s
  let s := pushRecord s { deviceRec s 0x000C 6 [.b] with
    stamp := e.stamp, loc := { unit := .mordant }, detail := detailOf e.cause 0 0 0 }
  let s : State := { s with lock := { s.lock with entry := none, sepiaCause := e.cause, sepiaStamp := e.stamp } }
  match e.slot with
  | some k => slotFinish s k (getSlot s k).seq []
  | none => s

/-- A VF that a clear of VF Enable is still resetting (R145). -/
def vfClearing (s : State) (fn : Nat) : Bool :=
  !isPf fn && s.forfeits.any fun f => f.parts.contains (.vfClear (portOf fn))

/-- A function takes requests: the ports are open, the function exists and is not under FLR, and its port has a link and is out
of reset (R185). A VF exists while VF Enable is 1 (R144). -/
def fnReachable (s : State) (fn : Nat) : Bool :=
  isOpen s && fnExists s fn && (getFn s fn).phase == .ready && !(getFn s fn).flr &&
    (isPf fn || (getPort s (portOf fn)).vfEnable && !vfClearing s fn) &&
    (getPort s (portOf fn)).linkUp && !(getPort s (portOf fn)).inReset

/-- A function's BAR registers answer: its memory space is enabled and it is not in D3hot (R172, R940). -/
def barAnswers (s : State) (fn : Nat) : Bool := fnReachable s fn && (getFn s fn).memEnable && !(getFn s fn).d3hot

end Sys2Proof.Machine
end

