-- ==== Sys2Proof/Machine/TrafficOps.lean ====
section
/-!
DEFINITION. Accesses in flight as named operations, and the tags and completions of a host port (R164 to R171).
-/

namespace Sys2Proof.Machine

/-- The client NI of a host port (Table 09-1). -/
def portNi : PortId → Nat
  | .a => 48
  | .b => 55

/-- An access in flight. -/
def getAccess (s : State) (n : Nat) : Option Access := tblGet s.traffic.accesses n

/-- The state with an access changed. -/
def modAccess (s : State) (n : Nat) (g : Access → Access) : State :=
  { s with traffic := { s.traffic with accesses := tblModify s.traffic.accesses n g } }

/-- The state without an access. -/
def removeAccess (s : State) (n : Nat) : State :=
  { s with traffic := { s.traffic with accesses := tblErase s.traffic.accesses n } }

/-- A new access in flight. DESIGN CHOICE, safe: log 22. -/
def addAccess (s : State) (a : Access) : State :=
  { s with traffic := { s.traffic with
      accesses := s.traffic.accesses ++ [(s.traffic.nextAccess, a)], nextAccess := s.traffic.nextAccess + 1 } }

/-- A high-priority channel (Table 16-1). -/
def isHighChannel (ch : Nat) : Bool := ch % 16 < 4

/-- The channel that a side of an engine chooses among those with a beat ready: a high-priority one first, round-robin within a class
(R724). -/
def servedBeat (s : State) (engine : Nat) (write : Bool) (ready : List Nat) : Option Nat :=
  let high := ready.any isHighChannel
  let turn := tblGetD s.xfer.turns (engine, high, write) 0
  leastBy (fun c => (c + 16 - turn) % 16) (ready.filter fun c => isHighChannel c == high)

/-- A side of a channel's engine has served the channel. -/
def beatServed (s : State) (ch : Nat) (write : Bool) : State :=
  { s with xfer := { s.xfer with turns := tblSet s.xfer.turns (ch / 16, isHighChannel ch, write) (ch % 16 + 1) } }

/-- The channel whose write beat an access is, before the write side of its engine has sent it. -/
def Access.writeBeat (a : Access) : Option Nat :=
  match a.client with
  | .xferWrite _ ch _ => if a.stage == .atNi && !a.dropped then some ch else none
  | _ => none

/-- A transfer's write waits for its engine's write side to choose its channel (R724); every other access is at its NI. -/
def beatTurn (s : State) (a : Access) : Bool :=
  match a.writeBeat with
  | some ch =>
    let ready := s.traffic.accesses.filterMap fun e => e.2.writeBeat.filter fun c => c / 16 == ch / 16
    servedBeat s (ch / 16) true ready.eraseDups == some ch
  | none => true

/-- The accesses that carry the pieces of a BAR2 read, where each is answered. -/
def hostReqParts (s : State) (id : Nat) (r : HostReq) : List (Option Access) :=
  r.pieces.map fun p => (s.traffic.accesses.find? fun e =>
    !e.2.dropped && e.2.client == .bar2 id && e.2.va == p.1 && e.2.stage == .answered).map Prod.snd

/-- A BAR2 read is completed to its host once each of its pieces is answered; a poisoned piece sets EP (R151, R153). -/
def completeHostReq (s : State) (id : Nat) : State :=
  match tblGet s.traffic.hostReqs id with
  | none => s
  | some r =>
    let parts := hostReqParts s id r
    if parts.any Option.isNone then s
    else
      let data := (r.pieces.zip parts).flatMap fun e => match e.2 with
        | some a => ((a.bytes.drop e.1.2.1).take e.1.2.2)
        | none => []
      let bad := parts.any fun a => (a.map Access.poison).getD false
      emit { s with traffic := { s.traffic with
          accesses := s.traffic.accesses.filter fun e => e.2.client != .bar2 id
          hostReqs := tblErase s.traffic.hostReqs id } } (.cpl r.fn .success data bad)

/-- The poison of a byte of an answered line. -/
def bytePoison (a : Access) (k : Nat) : Bool := a.poison && (a.fillPoison.isEmpty || a.fillPoison.getD (k / 32) false)

/-- The sectors of an answered fetch, by VA. -/
def fetchedSectors (a : Access) : List (Nat × List (Byte × Bool)) :=
  a.secs.map fun k => (a.va + 32 * k, (List.range 32).map fun i => (a.bytes.getD (32 * k + i) 0#8, bytePoison a (32 * k + i)))

/-- Sectors of its program reach the group in a slot (R503). -/
def takeFetches (s : State) (slot : Nat) : State :=
  let mine : Nat × Access → Bool := fun e => e.2.client == .reader (.fetch slot) && e.2.stage == .answered
  let new := (s.traffic.accesses.filter mine).flatMap fun e => fetchedSectors e.2
  { s with
    traffic := { s.traffic with accesses := s.traffic.accesses.filter fun e => !mine e }
    cores := { s.cores with groups := tblModify s.cores.groups slot fun g =>
      { g with lines := new.foldl (fun l e => tblSet l e.1 e.2) g.lines } } }

/-- What an answer does beside reaching its client: a BAR2 read goes on to the host, a fetch to its group. -/
def deliver (s : State) : Client → State
  | .bar2 id => completeHostReq s id
  | .reader (.fetch slot) => takeFetches s slot
  | _ => s

/-- An access's answer reaches its client NI: data of a forfeited set is discarded there (R808). The stamp stays that of its
admission, from which R443 counts. -/
def answerAccess (s : State) (n : Nat) (bytes : List Byte) (poison : Bool) : State :=
  match getAccess s n with
  | none => s
  | some a =>
    if a.dropped then removeAccess s n
    else deliver (modAccess s n fun a => { a with stage := .answered, bytes := bytes, poison := poison }) a.client

/-- Every earlier access of the same thread to the same address has taken effect (R476).
DESIGN CHOICE, safe: log 19. -/
def ordered (s : State) (a : Access) : Bool :=
  a.after.all fun k => match getAccess s k with
    | some b => b.stage == .answered || b.dropped
    | none => true

/-- An answer of poison. -/
def answerPoison (s : State) (n : Nat) : State :=
  answerAccess (modAccess s n fun a => { a with fillPoison := List.replicate 4 true }) n
    (List.replicate (((getAccess s n).map Access.len).getD 0) 0#8) true

/-- The port and requesting function of an access to host memory. -/
def Access.hostOf (a : Access) : Option (PortId × Nat) :=
  match a.home with
  | .host p fn _ => some (p, fn)
  | _ => none

/-- The sectors of its line that an access uses (R471). -/
def usedSectors (a : Access) (pa : Nat) : List Nat :=
  if a.secs.isEmpty then (List.range 4).filter fun k => sectorOf pa ≤ k && k < sectorOf pa + sectorsOf pa a.len
  else a.secs

/-- The bytes of host memory that a request asks for: from its first used sector to its last (R471), as an offset and a
length. -/
def Access.hostSpan (a : Access) : Nat × Nat :=
  match a.secs.head?, a.secs.getLast? with
  | some lo, some hi => (32 * lo, 32 * (hi + 1 - lo))
  | _, _ => (0, a.len)

/-- The answer of an access from the data that a completion brought: placed at the request's offset, or the old words of an
atomic. -/
def Access.answerOf (a : Access) (data : List Byte) : List Byte :=
  match a.kind with
  | .atomic _ wide words =>
    let n := (if wide then 8 else 4) * words.length
    (data ++ List.replicate n 0#8).take n
  | _ => (List.replicate a.hostSpan.1 0#8 ++ data ++ List.replicate a.len 0#8).take a.len

/-- Bytes that the completions of a request bring in all: those of a read's span, or the old words of an atomic (R164). -/
def Access.asked (a : Access) : Nat :=
  match a.kind with
  | .atomic _ wide words => (if wide then 8 else 4) * words.length
  | _ => a.hostSpan.2

/-- Sectors of the line that a range of the answer touches, from offset `lo` to `hi` of the request's span. -/
def Access.spanSectors (a : Access) (lo hi : Nat) : List Bool :=
  (List.range 4).map fun k => decide (32 * k < a.hostSpan.1 + hi) && decide (a.hostSpan.1 + lo < 32 * (k + 1))

/-- Poison by sector joined. -/
def orBools (x y : List Bool) : List Bool := (List.range 4).map fun k => x.getD k false || y.getD k false

/-- A host read or atomic ends with what its completions have brought: what is missing is poison (R168). -/
def endRequest (s : State) (n : Nat) (a : Access) : State :=
  let bad := if a.got < a.asked then orBools a.fillPoison (a.spanSectors a.got a.asked) else a.fillPoison
  answerAccess (modAccess s n fun x => { x with fillPoison := bad }) n (a.answerOf a.bytes) (bad.any id)

/-- A completion brings the next bytes of a request, poisoned or not; the last one ends it (R164, R168). -/
def takeCompletion (s : State) (n : Nat) (a : Access) (bytes : List Byte) (poison : Bool) : State :=
  let data := bytes.take (a.asked - a.got)
  let got := a.got + data.length
  let bad := if poison then orBools a.fillPoison (a.spanSectors a.got (max got (a.got + 1))) else a.fillPoison
  let a : Access := { a with bytes := a.bytes ++ data, got := got, fillPoison := bad }
  let s := modAccess s n fun _ => a
  if got ≥ a.asked then endRequest s n a else s

/-- The tag that an access holds on a link. -/
def Access.tagOf (a : Access) : Option Nat :=
  match a.stage with
  | .onLink tag _ => some tag
  | _ => none

/-- An access is in the middle of its update of host memory: an AtomicOp on the link, or a read and write that no other update may
come between (R277). -/
def Access.updating (a : Access) : Bool :=
  !a.dropped && match a.kind with
    | .read => a.lock && (a.tagOf.isSome || a.stage == .answered)
    | .write .. => a.lock
    | .atomic .. => a.tagOf.isSome

/-- Another update of the device is under way in the host line of an access that updates it too (R277). -/
def updateWaits (s : State) (n : Nat) (a : Access) : Bool :=
  (a.lock || a.kind != .read) && s.traffic.accesses.any fun e =>
    e.1 != n && e.2.client != a.client && e.2.home == a.home && e.2.updating

/-- A tag is outstanding or quarantined at a port. -/
def tagTaken (s : State) (p : PortId) (tag : Nat) : Bool :=
  (s.traffic.accesses.any fun e => (e.2.hostOf.map Prod.fst) == some p && e.2.tagOf == some tag) ||
    (s.traffic.quarantined.any fun q => q.port == p && q.tag == tag)

/-- Tags that a function holds on the link; a quarantined tag is no longer the tenant's (R165, R169). DESIGN CHOICE, unsafe: log 58. -/
def tagsHeld (s : State) (fn : Nat) : Nat :=
  (s.traffic.accesses.filter fun e => (e.2.hostOf.map Prod.snd) == some fn && e.2.tagOf.isSome).length

/-- The tag values of a port, and those reserved for priority class 3 (R165). -/
def tagAllowed (s : State) (p : PortId) (tag pri : Nat) : Bool :=
  if (getPort s p).tenBit then 0x100 ≤ tag && tag < 0x400 && (tag < 0x3E0 || pri == 3)
  else tag < 0x100 && (tag < 0xE0 || pri == 3)

/-- The tags a function may hold at once (R165, R166). -/
def tagLimit (s : State) (fn : Nat) : Nat :=
  let l := (getFn s fn).grant.tagLimit
  if (getPort s (portOf fn)).tenBit then l else min l 224

/-- A tag is quarantined until a completion comes or 4T after the request (R169). -/
def quarantineTag (s : State) (p : PortId) (fn tag since : Nat) : State :=
  { s with traffic := { s.traffic with quarantined := s.traffic.quarantined ++
      [{ port := p, tag := tag, fn := fn, since := since, returns := since + 4 * timeoutOf s fn }] } }

/-- A record of a tag in the requesting tenant's window (Table 04-12, Table 18-4). -/
def tagRec (s : State) (code tag fn : Nat) : ErrRec :=
  { recOf s code 0 [.t] (some fn) with
    loc := { unit := .port, index := portNum (portOf fn) }, detail := detailOf tag fn 0 0 }

/-- A record about a host transfer in a tenant's window with no detail (Table 04-12). -/
def hostRec (s : State) (code fn : Nat) : ErrRec :=
  { recOf s code 0 [.t] (some fn) with loc := { unit := .port, index := portNum (portOf fn) } }

/-- A queue is being pre-empted. -/
def beingStopped (s : State) (q : QueueId) : Bool := (getQueue s q).any fun r => r.preempting.isSome

/-- A host read times out while a stop of its queue waits for it (R774): a thread group's read is recorded as not
performed; a transfer goes back to the first byte not received; a fetch is made again, and an evaluation was not made. The queue that is stopped, and the state after; none where
no stop waits for the access. -/
def incompleteRead (s : State) (n : Nat) (a : Access) : Option (QueueId × State) :=
  let slotRead := fun (slot : Nat) =>
    match tblGet s.cores.groups slot with
    | some g =>
      if g.stopping then
        let s := removeAccess s n
        some (g.queue, { s with cores := { s.cores with groups := tblModify s.cores.groups slot fun g =>
          { g with replays := g.replays ++ [a] } } })
      else none
    | none => none
  match a.kind, a.client with
  | .read, .groupLoad slot _ => slotRead slot
  | .read, .sampler slot _ => slotRead slot
  | .read, .madderLoad slot _ => slotRead slot
  | .read, .xferRead q ch off =>
    match tblGet s.xfer.active ch with
    | some o =>
      if o.stopping then
        let later : Nat × Access → Bool := fun e => match e.2.client with
          | .xferRead _ ch' off' => ch' == ch && off' > off
          | _ => false
        let mark : Nat × Access → Nat × Access := fun e =>
          if later e then (e.1, { e.2 with dropped := true }) else e
        let back : XferOp → XferOp := fun o =>
          { o with issued := min o.issued off, pieces := o.pieces.filter fun e => e.1 < off }
        let s := removeAccess s n
        some (q, { s with
          traffic := { s.traffic with accesses := s.traffic.accesses.map mark }
          xfer := { s.xfer with active := tblModify s.xfer.active ch back } })
      else none
    | none => none
  | .read, .reader (.queue q) => if beingStopped s q && !a.dropped then some (q, removeAccess s n) else none
  | .read, .wait q =>
    if beingStopped s q && !a.dropped then
      some (q, modQueue (removeAccess s n) q fun r => { r with wait := r.wait.map fun w => { w with due := true } })
    else none
  | _, _ => none

/-- A timeout takes effect: record and AER report, poison to the consumer, tag quarantined (R168, R169); in place of the
poison, a read that a stop waits for ends INCOMPLETE-READ, with INC_READ and its record (R774). -/
def timeoutAccess (s : State) (n : Nat) : State :=
  match getAccess s n with
  | some a =>
    match a.stage, a.home with
    | .onLink tag since, .host p fn _ =>
      let s := aer (pushRecord s (tagRec s 0x0102 tag fn)) fn .completionTimeout
      match incompleteRead s n a with
      | some (q, s) =>
        let s := detect s { queueRec s 0x0710 0 q with detail := detailOf tag fn 0 0 }
        quarantineTag (modQueue s q fun r => { r with incRead := true }) p fn tag since
      | none =>
        let a : Access := { a with ended := some 0x0102 }
        quarantineTag (endRequest (modAccess s n fun _ => a) n a) p fn tag since
    | _, _ => s
  | none => s

/-- Outstanding requests of a port or a function that meet a test are quarantined at once with poison to their
consumers and no report (R181, R185). -/
def quarantineAll (s : State) (p : PortId → Nat → Bool) : State :=
  let out := s.traffic.accesses.filter fun e => match e.2.hostOf, e.2.tagOf with
    | some (q, fn), some _ => p q fn
    | _, _ => false
  out.foldl (fun s e =>
    match e.2.stage, e.2.home with
    | .onLink tag since, .host q fn _ => quarantineTag (answerPoison s e.1) q fn tag since
    | _, _ => s) s

/-- Requests that wait at a port for a tag end with poison (R181). -/
def poisonWaiting (s : State) (p : PortId) : State :=
  let out := s.traffic.accesses.filter fun e => match e.2.hostOf, e.2.stage with
    | some (q, _), .waitTag _ => q == p
    | some (q, _), .atNi => q == p
    | some (q, _), .held => q == p
    | some (q, _), .admitted _ => q == p
    | _, _ => false
  out.foldl (fun s e => answerPoison s e.1) s

end Sys2Proof.Machine
end

