-- ==== Sys2Proof/Machine/ShaderOps.lean ====
section
/-!
DEFINITION. The operations that every shader instruction shares: kills (R494 to R497), accesses entering the fabric
(R471 to R473, R426), publication of the numeric status (R612, R613), barriers and the exit of a group (R467, R481, R482), and
what holds an instruction back (R541, R574).
-/

namespace Sys2Proof.Machine

/-! Groups -/

/-- A resident thread group. -/
def getGroup (s : State) (slot : Nat) : Option Group := tblGet s.cores.groups slot

/-- The state with a group replaced. -/
def putGroup (s : State) (slot : Nat) (g : Group) : State :=
  { s with cores := { s.cores with groups := tblModify s.cores.groups slot fun _ => g } }

/-- The state with a group changed. -/
def modGroup (s : State) (slot : Nat) (f : Group → Group) : State :=
  { s with cores := { s.cores with groups := tblModify s.cores.groups slot f } }

/-- The NI of a shader core (Table 09-1): core n of cluster c at router (c + 1, n + 1). -/
def coreNi (core : Nat) : Nat := 48 + 8 * (core % 4 + 1) + core / 4 + 1

/-- The priority class of a queue. -/
def queuePrio (s : State) (q : QueueId) : Nat := ((getQueue s q).map Queue.prio).getD 0

/-! Faults and kills -/

/-- A context is killed (R494): the fault joins a kill or forfeit in progress, or starts the kill (R489, R817). -/
def killContext (s : State) (c : CtxId) (r : ErrRec) : State :=
  match forfeitOf s c with
  | some k => countExtra s k
  | none => startForfeit s [.kill c r] []

/-- The destination letters of a thread-group fault (Table 18-6). -/
def faultLetters (code : Nat) : List WinLetter :=
  if code = 0x0304 || code = 0x0514 || code = 0x0711 then [.t, .d] else [.t]

/-- The record of a fault of a thread group (R496, Table 18-4). -/
def groupRec (s : State) (slot : Nat) (g : Group) (code : Nat) (addr : RecAddr) (pc : Nat) (lanes : Word) (w : Insn)
    (low : Nat) : ErrRec :=
  { ctxRec s code 3 (faultLetters code) g.ctx with
    queue := some g.queue.q, tag := g.tag, addr := addr
    loc := { unit := .core, index := g.core, sched := g.sched, slot := slot }
    pc := BitVec.ofInt 32 ((pc : Int) - g.progVa), lanes := lanes
    detail := detailOf w.base.toNat (w.base.toNat / 2 ^ 32) (if bitOf w.base 8 then w.ext.toNat else 0) low }

/-- A fault of an instruction of a group kills its context. -/
def groupFault (s : State) (slot : Nat) (g : Group) (code : Nat) (addr : RecAddr) (pc : Nat) (lanes : Word) (w : Insn)
    (low : Nat := 0) : State :=
  killContext s g.ctx (groupRec s slot g code addr pc lanes w low)

/-! Accesses entering the fabric -/

/-- What an access does, as a need of Table 07-4. -/
def AccKind.need : AccKind → AccessNeed
  | .read => .load
  | .write .. => .store
  | .atomic .. => .atomic

/-- A write. -/
def AccKind.isWrite : AccKind → Bool
  | .write .. => true
  | _ => false

/-- Bytes counted for an admitted access (R284, R472), none for spine traffic: an atomic moves one sector each way for each sector it uses. -/
def countAccess (s : State) (a : Access) : State :=
  match (if a.client.spine then none else a.ctx) with
  | none => s
  | some c => match a.kind with
    | .read => countBytes s c a.home a.shared false a.need
    | .write .. => countBytes s c a.home a.shared true a.need
    | .atomic .. => countBytes (countBytes s c a.home a.shared false 1) c a.home a.shared true 1

/-- The stage of an access once admitted: a read or atomic of host memory waits for a tag at its port (R165); every other
access travels to its home. -/
def admittedStage (s : State) (a : Access) : Stage :=
  match a.home, a.kind with
  | .host .., .read => .waitTag s.stamp
  | .host .., .atomic .. => .waitTag s.stamp
  | _, _ => .admitted s.stamp

/-- What an access writes as it leaves its NI: a FENCE STAMP takes its stamp there (R243). -/
def leavingKind (s : State) (a : Access) : AccKind :=
  match a.client, a.kind with
  | .signal q, .write bytes poison =>
    if ((getQueue s q).bind Queue.signal).any fun o => o.kind == .stamp then
      .write ((bytes.zip (wordBytes (BitVec.ofNat 64 s.stamp))).map fun e => (e.1.1, e.2.2)) poison
    else a.kind
  | _, k => k

/-- An access is admitted now (R426, R472). -/
def admitted (s : State) (a : Access) : State × Access :=
  (countAccess s a, { a with stage := admittedStage s a, stamp := s.stamp, kind := leavingKind s a })

/-- The home is host memory behind a port in port reset. -/
def homeGone (s : State) : Home → Bool
  | .host p _ _ => (getPort s p).inReset
  | _ => false

/-- An access enters at its client NI: uncharged traffic goes on at once, charged traffic waits for its admission (R424,
R426, R429); a request to a port in port reset is never issued and ends with poison (R181). DESIGN CHOICE, safe: log 19. -/
def enterFabric (s : State) (a : Access) : State :=
  if homeGone s a.home then addAccess s { a with
      stage := .answered, stamp := s.stamp, bytes := List.replicate a.len 0#8, poison := true } |> (deliver · a.client)
  else match a.part with
  | some _ => addAccess s { a with stage := .atNi, stamp := s.stamp }
  | none => let r := admitted s a; addAccess r.1 r.2

/-- A leaf belongs to a shared object (Table 06-9). -/
def leafShared (l : Leaf) : Bool := l.share.isSome

/-- The home of the 128-byte line that an address lies in, from the home of the address. -/
def lineHome (h : Home) (va : Nat) : Home :=
  let o := va % 128
  match h with
  | .device pa => .device (pa - o)
  | .scratch a => .scratch (a - o)
  | .host p fn a => .host p fn (a - o)

/-- Distinct lines of a list of addresses, in order of first use. -/
def linesOf (vas : List Nat) : List Nat := (vas.map fun a => a / 128 * 128).eraseDups

/-- Sectors of a line that byte ranges of a width use (R471). -/
def lineSecs (line width : Nat) (vas : List Nat) : List Nat :=
  (List.range 4).filter fun k => vas.any fun a =>
    a / 128 * 128 = line && a < line + 32 * (k + 1) && line + 32 * k < a + width

/-- The request for one line of an instruction's accesses (R471, R472).
DESIGN CHOICE, safe: log 14. DESIGN CHOICE, safe: log 22. -/
def lineAccess (s : State) (client : Client) (ni : Nat) (c : CtxId) (pri line : Nat) (home : Home) (shared : Bool)
    (secs : List Nat) (kind : AccKind) : Access :=
  { client := client, ni := ni, ctx := some c, part := chargePart s c, pri := pri, home := home, va := line, len := 128
    kind := kind, shared := shared, secs := secs
    need := match kind with
      | .atomic .. => 2
      | _ => secs.length }

/-! Pending accesses of a group -/

/-- An access belongs to a group. -/
def clientSlot : Client → Option Nat
  | .groupLoad slot _ => some slot
  | .groupStore slot => some slot
  | .sampler slot _ => some slot
  | .madderLoad slot _ => some slot
  | .madderStore slot => some slot
  | .publish slot => some slot
  | .reader (.fetch slot) => some slot
  | _ => none

/-- An access is work of a group in flight: a fetch ahead and a publication that has been performed are none. -/
def workOf (slot : Nat) (a : Access) : Bool :=
  !a.dropped && clientSlot a.client == some slot && a.client != .reader (.fetch slot) &&
    !(a.client == .publish slot && a.stage == .answered)

/-- A group has an access in flight (R467, R765). -/
def groupBusy (s : State) (slot : Nat) : Bool := s.traffic.accesses.any fun e => workOf slot e.2

/-- What a group that leaves its slot has fetched ahead is given up, and its publication that was performed. -/
def dropFetches (s : State) (slot : Nat) : State :=
  stopAccesses s fun a => a.client == .reader (.fetch slot) || a.client == .publish slot

/-- A group leaves its slot. -/
def leaveSlot (s : State) (slot : Nat) : State :=
  let s := dropFetches s slot
  { s with cores := { s.cores with groups := tblErase s.cores.groups slot } }

/-- Stores of a group not yet acknowledged: at a device home, or also to host pages (Table 10-4). -/
def storesOut (s : State) (slot : Nat) (host : Bool) : Bool :=
  s.traffic.accesses.any fun e => !e.2.dropped && e.2.client == .groupStore slot && (host || !e.2.home.isHost)

/-- The conditions of a fence scope hold (Table 10-4). -/
def fenceMet (s : State) (slot : Nat) (g : Group) (scope : Nat) : Bool :=
  (scope < 1 || !storesOut s slot false) && (scope < 2 || (g.loads.isEmpty && g.samples.isEmpty)) &&
    (scope < 3 || !storesOut s slot true)

/-- Later accesses of a group may issue: its fence is met and no acquire holds them (R477, R478).
DESIGN CHOICE, safe: log 14. -/
def mayAccess (s : State) (slot : Nat) (g : Group) : Bool :=
  (match g.fence with
    | some k => fenceMet s slot g k
    | none => true) && g.hold.isNone

/-- A store of the group to one of the sectors awaits its acknowledgement (R473). -/
def sectorConflict (s : State) (slot : Nat) (line : Nat) (secs : List Nat) : Bool :=
  s.traffic.accesses.any fun e =>
    !e.2.dropped && e.2.client == .groupStore slot && e.2.va == line && secs.any e.2.secs.contains

/-- The bytes that a lane of a pending load or atomic accesses. -/
def loadBytes : LoadKind → Nat
  | .load width _ => widthBytes width
  | .atomic wide _ => if wide then 8 else 4

/-! The exit of a group -/

/-- A group whose threads have all exited. -/
def groupExited (g : Group) : Bool := g.sts.all fun x => x == .exited

/-- Groups of a workgroup that are resident and not exited. -/
def liveGroups (s : State) (wg : Nat) : Nat := (s.cores.groups.filter fun e => e.2.wg == wg && !groupExited e.2).length

/-- A dispatch has no work left: every workgroup placed, none resident with threads, none saved (R454). -/
def dispatchDone (s : State) (d : Nat) (x : Dispatch) : Bool :=
  x.next ≥ x.grid.1 * x.grid.2.1 * x.grid.2.2 && x.back.isEmpty &&
    !(s.cores.wgs.any fun e => e.2.dispatch == some d) && !(s.cores.saved.any fun e => e.2.wg.dispatch == some d)

/-- A dispatch that is done completes its packet (R454). -/
def finishDispatch (s : State) (d : Nat) : State :=
  match tblGet s.cores.dispatches d with
  | none => s
  | some x =>
    if dispatchDone s d x then
      completePkt { s with cores := { s.cores with dispatches := tblErase s.cores.dispatches d } } x.queue x.pkt
    else s

/-- A workgroup whose groups have all exited frees its local store (R456). -/
def finishWg (s : State) (wg : Nat) : State :=
  if liveGroups s wg ≠ 0 then s
  else match tblGet s.cores.wgs wg with
    | none => s
    | some x =>
      let s : State := { s with cores := { s.cores with wgs := tblErase s.cores.wgs wg } }
      match x.dispatch with
      | some d => finishDispatch s d
      | none => s

/-- A group has Madder operations whose tokens have still to act (R571). -/
def opsStaged (s : State) (slot : Nat) : Bool := s.madders.ops.any fun e => e.2.group == slot

/-- An exited group leaves its slot once every access it issued has completed and every Madder operation has committed or been
squashed (R467, R571). A vertex or fragment group stays until its engine has taken its outputs. -/
def reapGroup (s : State) (slot : Nat) : State :=
  match getGroup s slot with
  | none => s
  | some g =>
    if groupExited g && g.kind == .compute && !groupBusy s slot && !opsStaged s slot then
      leaveSlot s slot
    else s

/-! Barriers -/

/-- Every thread of a workgroup that has not exited waits at the barrier, and some thread does (R481, R482). -/
def barrierFull (s : State) (wg : Nat) : Bool :=
  let gs := s.cores.groups.filter fun e => e.2.wg == wg
  (gs.all fun e => e.2.sts.all fun x => x != .running) && gs.any fun e => e.2.sts.contains .barrier

/-- The scope of a fence together with one already pending. -/
def joinFence (a : Option Nat) (scope : Nat) : Option Nat := some (max (a.getD 0) scope)

/-- A full barrier releases every waiting thread with the ordering of a WORKGROUP fence (R481). -/
def releaseBarrier (s : State) (wg : Nat) : State :=
  if barrierFull s wg then
    { s with cores := { s.cores with groups := s.cores.groups.map fun e =>
        if e.2.wg = wg then
          (e.1, { e.2 with
            sts := e.2.sts.map fun x => if x = .barrier then .running else x
            fence := joinFence e.2.fence 1 })
        else e } }
  else s

/-! Publication of the numeric status -/

/-- The numeric status pointer (R610). -/
def nspOf (g : Group) : Option Nat :=
  let lo := (sreg g 62).toNat
  let hi := (sreg g 63).toNat
  if lo % 2 = 1 then some (hi % 2 ^ 16 * 2 ^ 32 + lo / 16 * 16) else none

/-- The pending state at 0 (R612). -/
def clearPending (g : Group) : Group := { g with num := { g.num with flush := 0, escapes := 0, flags := 0 } }

/-- What a publication does to the group's state. -/
inductive Published where
  | done (s : State) (g : Group)
  /-- The atomic is on its way, or has to wait. -/
  | held (s : State)
  /-- It faulted, and the context is killed. -/
  | killed (s : State)

/-- The words of a publication in its sector of the record at a VA (R612). -/
def statusWords (va : Nat) (n : Numeric) : List (Nat × Dword × Dword) :=
  let at_ := va % 128
  let word := fun (x : Nat) => BitVec.ofNat 64 x
  [(at_, word n.flush, 0#64), (at_ + 4, word n.flags, 1#64), (at_ + 8, word n.escapes, 0#64)]

/-- A publication waits as a global atomic of its group does: for a pending fence or acquire, a store to its sector, or a load or
atomic of its bytes (R473, R476, R478, R613). DESIGN CHOICE, safe: log 14. -/
def publishWaits (s : State) (slot : Nat) (g : Group) (va : Nat) : Bool :=
  !mayAccess s slot g || sectorConflict s slot (va / 128 * 128) [va % 128 / 32] ||
    g.loads.any fun l => l.lanes.any fun x => decide (x.2 < va + 12) && decide (va < x.2 + loadBytes l.kind)

/-- The publication of a group that is on its way or performed. -/
def publication (s : State) (slot : Nat) : Option (Nat × Access) :=
  s.traffic.accesses.find? fun e => !e.2.dropped && e.2.client == .publish slot

/-- Publication of the pending state (R612, R613, R626): an atomic of the group goes to the record's home with the pending
state, and what caused it goes on once it has been performed. DESIGN CHOICE, safe: log 14. -/
def publish (s : State) (slot : Nat) (g : Group) (pc : Nat) (w : Insn) : Published :=
  match nspOf g with
  | none => .done s (clearPending g)
  | some va =>
    let fault := fun (s : State) code => Published.killed (groupFault s slot g code (.va va) pc 0#32 w)
    match publication s slot with
    | some (n, a) =>
      if a.stage != .answered then .held s
      else if a.poison then fault (removeAccess s n) 0x0500
      else .done (removeAccess s n) g
    | none =>
      if publishWaits s slot g va then .held s
      else match translate s g.ctx va .atomic with
      | .error e => fault s e.code
      | .ok (.host .., _) => fault s 0x0506
      | .ok (h, l) =>
        let a := lineAccess s (.publish slot) (coreNi g.core) g.ctx (queuePrio s g.queue) (va / 128 * 128) (lineHome h va)
          (leafShared l) (lineSecs (va / 128 * 128) 12 [va]) (.atomic .status false (statusWords va g.num))
        .held (enterFabric (modGroup s slot clearPending) a)

/-- The last thread of a group exits (R467, R612): publication, then its workgroup's end and barrier. -/
def exitGroup (s : State) (slot : Nat) (g : Group) (pc : Nat) (w : Insn) : State :=
  match publish s slot g pc w with
  | .held s => s
  | .killed s => s
  | .done s g => reapGroup (finishWg (releaseBarrier (putGroup s slot g) g.wg) g.wg) slot

/-! Issue -/

/-- Registers that something outstanding will write: loads, samples, fragments of a Madder (R541). -/
def pendingRegs (s : State) (slot : Nat) (g : Group) : List (Nat × Nat) :=
  let span := fun (k r n : Nat) => (rangeFrom r n).map fun x => (k, x)
  (g.loads.flatMap fun l => match l.kind with
    | .load w scalar => span (if scalar then 1 else 0) l.reg (widthRegs w)
    | .atomic wide ret => if ret then span 0 l.reg (if wide then 2 else 1) else []) ++
  (g.samples.flatMap fun x => span 0 x.reg 4) ++
  ((s.madders.ops.filter fun e => e.2.group == slot).flatMap fun e => match e.2.kind with
    | .mmaf r .. => span 0 r 8
    | _ => [])

/-- An operand of the instruction waits for something outstanding (R541, R544). -/
def interlocked (s : State) (slot : Nat) (g : Group) (w : IWord) : Bool :=
  match shapeOf w with
  | none => false
  | some sh =>
    let pend := pendingRegs s slot g
    !pend.isEmpty && (positions w sh).any fun p =>
      !p.2.2.kinds.isEmpty && (rangeFrom p.2.1 p.2.2.width).any fun r => pend.contains (p.1, r)

/-- The group hands a Madder operation over before it issues again (R574). -/
def handingOff (s : State) (slot : Nat) : Bool := s.madders.ops.any fun e => e.2.group == slot && !e.2.handed

/-- A group may issue: it is not stopping, its core is on, its context is served and no hand-off waits.
DESIGN CHOICE, safe: log 14. -/
def groupReady (s : State) (slot : Nat) (g : Group) : Bool :=
  isOpen s && domOn s g.core && !g.stopping && (forfeitOf s g.ctx).isNone && !handingOff s slot

end Sys2Proof.Machine
end

