-- ==== Sys2Proof/Machine/Reads.lean ====
section
/-!
DEFINITION. Reads that an engine makes for a command of its own: a queue engine's chain, the front end's descriptors and indices,
instruction lines, launch arguments, bins, and compose pixels (R19, R249, R635). Each is an access like any other: it enters the
fabric, is charged and counted, takes a tag for host memory, and its command goes on once every line of it is answered.
-/

namespace Sys2Proof.Machine

/-- The pieces of a byte range within 128-byte lines: VA, offset in the range, and length. -/
def linePieces (va len : Nat) : List (Nat × Nat × Nat) :=
  ((List.range ((va + len + 127) / 128 - va / 128)).map fun k =>
    let lo := max va ((va / 128 + k) * 128)
    let hi := min (va + len) ((va / 128 + k + 1) * 128)
    (lo, lo - va, hi - lo)).filter fun e => e.2.2 ≠ 0

/-- How an engine reads: for whom, at which NI, under which context and priority class. -/
structure Engine where
  reader : Reader
  ni : Nat
  ctx : CtxId
  pri : Nat

/-- What a read of an engine has come to. -/
inductive Reading where
  /-- Some line is still on its way; the state has every missing request issued. -/
  | wait (s : State)
  | fault (e : XFault) (va : Nat)
  /-- The bytes, each with its poison. -/
  | ready (bytes : List (Byte × Bool))

/-- The engine's access for the sectors of a piece. -/
def findRead (s : State) (e : Engine) (va len : Nat) : Option (Nat × Access) :=
  let line := va / 128 * 128
  s.traffic.accesses.find? fun x =>
    !x.2.dropped && x.2.client == .reader e.reader && x.2.va == line && (lineSecs line len [va]).all x.2.secs.contains

/-- Accesses of a function's BAR2 writes that are not yet performed, which the port passes on before its doorbells take effect
(R253). -/
def barWrites (s : State) (c : CtxId) : List Nat :=
  (s.traffic.accesses.filter fun x => match x.2.client with
    | .bar2 _ => x.2.kind.isWrite && x.2.stage != .answered && (x.2.ctx.map CtxId.tenant) == some c.tenant
    | _ => false).map Prod.fst

/-- Writes of an engine to a line that its own read comes after. -/
def ownWrites (s : State) (r : Reader) (line : Nat) : List Nat :=
  match r with
  | .geometry q => (s.traffic.accesses.filter fun x =>
      x.2.client == .geometry q && x.2.va == line && x.2.stage != .answered && !x.2.dropped).map Prod.fst
  | .compose _ => (s.traffic.accesses.filter fun x =>
      x.2.client == .composeWrite && x.2.va == line && x.2.stage != .answered && !x.2.dropped).map Prod.fst
  | _ => []

/-- A read of one piece is issued. -/
def issueRead (s : State) (e : Engine) (need : AccessNeed) (va len : Nat) : State :=
  match translate s e.ctx va need with
  | .error _ => s
  | .ok (h, l) =>
    let line := va / 128 * 128
    let a := lineAccess s (.reader e.reader) e.ni e.ctx e.pri line (lineHome h va) (leafShared l) (lineSecs line len [va]) .read
    enterFabric s { a with after := barWrites s e.ctx ++ ownWrites s e.reader line }

/-- The bytes of a piece in its answered line. -/
def pieceBytes (va len : Nat) (a : Access) : List (Byte × Bool) :=
  (rangeFrom (va % 128) len).map fun k => (a.bytes.getD k 0#8, bytePoison a k)

/-- A read of a byte range by an engine: every line that is missing is issued; once all are answered the bytes are there. The
first piece that does not translate is a fault. DESIGN CHOICE, safe: log 12. -/
def engineRead (s : State) (e : Engine) (need : AccessNeed) (va len : Nat) : Reading :=
  let ps := linePieces va len
  match (ps.filterMap fun p => match translate s e.ctx p.1 need with
      | .error x => some (x, p.1)
      | .ok _ => none).head? with
  | some (x, a) => .fault x a
  | none =>
    let got := ps.map fun p => (p, findRead s e p.1 p.2.2)
    if got.all fun g => (g.2.map fun x => x.2.stage == .answered).getD false then
      .ready (got.flatMap fun g => (g.2.map fun x => pieceBytes g.1.1 g.1.2.2 x.2).getD [])
    else .wait (got.foldl (fun s g => if g.2.isNone then issueRead s e need g.1.1 g.1.2.2 else s) s)

/-- What ended the answered reads of an engine badly: the code of a timeout, else of poison as for a load (Table 18-6). -/
def badReadCode (s : State) (r : Reader) : Nat :=
  ((s.traffic.accesses.filter fun x => x.2.client == .reader r && x.2.stage == .answered).filterMap fun x => x.2.ended).head?.getD
    0x0500

/-- The answered reads of an engine are used up. -/
def useReads (s : State) (r : Reader) : State :=
  { s with traffic := { s.traffic with accesses := s.traffic.accesses.filter fun x =>
      !(x.2.client == .reader r && x.2.stage == .answered) } }

/-- The reads of an engine are given up: those on a link keep their tags, and their data is discarded. -/
def dropReads (s : State) (r : Reader) : State := stopAccesses s fun a => a.client == .reader r

/-- The context that HOLDER of a semaphore word names, as an owner (bits [45:32], Table 06-7). -/
def semHolder (w : Dword) : Nat := fieldNat w 45 32

/-- A queue's engine at the system NI. -/
def queueEngine (s : State) (q : QueueId) : Engine :=
  { reader := .queue q, ni := systemNi, ctx := q.ctx, pri := queuePrio s q }

end Sys2Proof.Machine
end

