-- ==== Sys2Proof/Machine/Issue.lean ====
section
/-!
DEFINITION. The issue of a shader instruction: the fetch of its units with its faults (R480, R503, R549), the checks of its
encoding and registers (R463, R509 to R512, R546, R550), and its interlocks (R541).
-/

namespace Sys2Proof.Machine

/-- The bytes of an instruction word. -/
def insnBytes (w : Insn) : List Byte := leBytes 8 w.base.toNat ++ leBytes 4 w.ext.toNat

/-- What a fetch of an 8-byte unit may give a group: what its packet found there when it started, and where its own context
has written there since, also what followed (R480). DESIGN CHOICE, safe: log 14. -/
def unitValues (s : State) (g : Group) (h : Home) : List (List Byte) :=
  let now := (homeRead s h 8).1
  match (s.cores.overwritten.drop g.code).filter fun x => x.home == h with
  | [] => [now]
  | x :: rest =>
    if (x :: rest).any fun y => y.owner == ownerCode g.ctx then x.bytes :: (rest.map OldUnit.bytes ++ [now]) else [x.bytes]

/-- The 8-byte units of an instruction at a PC, the lower-addressed one first (R503, R549). -/
def unitsAt (pc len : Nat) : List Nat := ((rangeFrom 0 len).map fun k => (pc + k) / 8 * 8).eraseDups

/-- The bytes of a unit that a fetch has brought to the group, each with its poison. -/
def unitBytes (g : Group) (u : Nat) : Option (List (Byte × Bool)) :=
  (tblGet g.lines (u / 32 * 32)).map fun l => (l.drop (u % 32)).take 8

/-- What a group has of a unit that it is about to issue from (R503). -/
inductive Fetch where
  | ready
  /-- Its sector has not been fetched. -/
  | missing (unit : Nat)
  /-- It does not translate, or is poison. -/
  | fault (code unit : Nat)
  deriving DecidableEq, Repr

/-- The state of one unit. -/
def unitFetch (s : State) (g : Group) (u : Nat) : Fetch :=
  match translate s g.ctx u .fetch with
  | .error e => .fault e.code u
  | .ok _ => match unitBytes g u with
    | none => .missing u
    | some l => if l.any Prod.snd then .fault 0x0500 u else .ready

/-- The state of the units of an instruction: that of the first one that is not ready (R549). -/
def instrFetch (s : State) (g : Group) (pc len : Nat) : Fetch :=
  (((unitsAt pc len).map (unitFetch s g)).find? fun x => x != .ready).getD .ready

/-- The core as the engine that fetches for a group (R19). -/
def fetchEngine (s : State) (slot : Nat) (g : Group) : Engine :=
  { reader := .fetch slot, ni := coreNi g.core, ctx := g.ctx, pri := queuePrio s g.queue }

/-- The sector of a unit is fetched, unless it is on its way. DESIGN CHOICE, safe: log 14. -/
def startFetch (s : State) (slot : Nat) (g : Group) (u : Nat) : State :=
  match engineRead s (fetchEngine s slot g) .fetch (u / 32 * 32) 32 with
  | .wait s => s
  | _ => s

/-- A word is what the memory gives at a PC: each unit that has been fetched from device memory or a segment agrees with a value
that a fetch of it may give, and a unit from host memory with what the port returned (R480, R503).
DESIGN CHOICE, safe: log 14. -/
def fetched (s : State) (g : Group) (pc len : Nat) (w : Insn) : Bool :=
  (unitsAt pc len).all fun u =>
    match translate s g.ctx u .fetch, unitBytes g u with
    | .ok (h, _), some l =>
      let values := if h.isHost then [l.map Prod.fst] else unitValues s g h
      l.any Prod.snd || values.any fun v =>
        (List.range len).all fun k => (pc + k) / 8 * 8 ≠ u || v.getD ((pc + k) % 8) 0#8 == (insnBytes w).getD k 0#8
    | _, _ => true

/-- The instruction writes s62 or s63 (R612). -/
def writesNsp (w : IWord) : Bool :=
  w.dk == 1 && match shapeOf w with
    | some sh => !sh.d.kinds.isEmpty && w.d ≤ 63 && 62 < w.d + sh.d.width
    | none => false

/-- The active threads move to the next instruction. -/
def advance (g : Group) (w : IWord) (pc : Nat) (active : Word) : Group :=
  setPcs g (lanesOf active) fun _ => pc + w.len

/-- What an instruction does once it issues: the state, the slot, the group, the word, its PC, the active mask, and a
counter of free values. -/
abbrev Body := State → Nat → Group → IWord → Nat → Word → Nat → State

/-- The free values that one issue may use. DESIGN CHOICE, safe: log 7. -/
def freePerIssue : Nat := 64

/-- The instruction executes: a write of the numeric status pointer publishes first (R612, R619). -/
def runBody (s : State) (slot : Nat) (g : Group) (iw : IWord) (w : Insn) (pc : Nat) (active : Word) (body : Body) : State :=
  let f := s.free
  let s : State := { s with free := s.free + freePerIssue }
  if writesNsp iw then
    match publish s slot g pc w with
    | .held s => s
    | .killed s => s
    | .done s g => body (putGroup s slot g) slot g iw pc active f
  else body s slot g iw pc active f

/-- A group issues an instruction whose opcode a row stands for: what has not been fetched is fetched first; fetch faults, illegal
encodings and register ranges kill the context (R503, R511, R546, R547, R550); an instruction whose operands are not available
waits (R541). `bad` is a reason of Table 11-11 that depends on more than the encoding.
DESIGN CHOICE, safe: log 3. DESIGN CHOICE, safe: log 14. DESIGN CHOICE, safe: log 41. -/
def issue (slot : Nat) (w : Insn) (t : Stamp) (s : State) (mine : Nat → Bool) (body : Body)
    (bad : State → Nat → Group → IWord → Option Nat := fun _ _ _ _ => none) : Out :=
  let s := s.upTo t
  match getGroup s slot with
  | none => .next s
  | some g =>
    match groupPc g with
    | none => .next s
    | some pc =>
      let iw := iword w
      let active := activeMask g pc
      if !groupReady s slot g || !mine iw.op || !fetched s g pc iw.len w then .next s
      else match instrFetch s g pc iw.len with
        | .missing u => .next (startFetch s slot g u)
        | .fault code va => .next (groupFault s slot g code (.va va) pc active w)
        | .ready =>
          match (illegalReason iw g.kind active).or (bad s slot g iw) with
          | some r => .next (groupFault s slot g 0x0505 .none pc active w r)
          | none =>
            if vregRange iw g.vregs then .next (groupFault s slot g 0x0504 .none pc active w)
            else if interlocked s slot g iw then .next s
            else .next (runBody s slot g iw w pc active body)

/-- A row of an instruction that only changes its group's registers: `f` gives the group after it from the group, the
word, the executing lanes (lane 0 stands for the one run of scalar form) and the free counter. -/
def groupRow (slot : Nat) (w : Insn) (t : Stamp) (s : State) (op : Nat) (f : Group → IWord → List Nat → Nat → Group) : Out :=
  issue slot w t s (· == op) fun s slot g iw pc active fr =>
    let lanes := if iw.scalarForm then [0] else lanesOf (runMask g iw active)
    putGroup s slot (advance (f g iw lanes fr) iw pc active)

end Sys2Proof.Machine
end

