-- ==== Sys2Proof/Machine/Alu.lean ====
section
/-!
DEFINITION. Integer, logical, move and predicate instructions of the shader core (Table 11-4, 0x00 to 0x18, 0x44 to 0x46).
-/

namespace Sys2Proof.Machine

/-- A row with a 32-bit result per lane. -/
def wordRow (slot : Nat) (w : Insn) (t : Stamp) (s : State) (op : Nat) (f : Group → IWord → Nat → Word) : Out :=
  groupRow slot w t s op fun g iw lanes _ => writeResult g iw lanes (f g iw)

/-- A row of two sources with a 32-bit result. -/
def binRow (slot : Nat) (w : Insn) (t : Stamp) (s : State) (op : Nat) (f : IWord → Word → Word → Word) : Out :=
  wordRow slot w t s op fun g iw l => f iw (srcA g iw l) (srcB g iw l)

/-- A row of one source with a 32-bit result. -/
def unRow (slot : Nat) (w : Insn) (t : Stamp) (s : State) (op : Nat) (f : Word → Word) : Out :=
  wordRow slot w t s op fun g iw l => f (srcA g iw l)

/-- A shift count: b & 31. -/
def shiftCount (b : Word) : Nat := b.toNat % 32

/-- BFE (Table 11-4 0x11): the min(c & 63, 32 - (b & 31)) bits of a from bit b & 31. -/
def bitExtract (sgn : Bool) (a b c : Word) : Word :=
  let lo := shiftCount b
  let n := min (c.toNat % 64) (32 - lo)
  let x := a.toNat / 2 ^ lo % 2 ^ n
  if sgn && n ≠ 0 && bitNat x (n - 1) then BitVec.ofNat 32 (x + (2 ^ 32 - 2 ^ n)) else BitVec.ofNat 32 x

/-- BFI (Table 11-4 0x12): b with `width` bits from the offset replaced by the low bits of a. -/
def bitInsert (a b c : Word) : Word :=
  let off := fieldNat c 4 0
  let n := min (fieldNat c 12 8) (32 - off)
  let m := BitVec.ofNat 32 ((2 ^ n - 1) * 2 ^ off)
  (b &&& ~~~m) ||| ((a <<< off) &&& m)

/-- The number of 1 bits. -/
def popCount (a : Word) : Word := BitVec.ofNat 32 ((List.range 32).filter fun k => a.getLsbD k).length

/-- Leading zeros, 32 for 0. -/
def leadingZeros (a : Word) : Word := if a = 0#32 then 32#32 else BitVec.ofNat 32 (31 - Nat.log2 a.toNat)

/-- Bit order reversed. -/
def bitReverse (a : Word) : Word := BitVec.ofNat 32 (((List.range 32).map fun k => if a.getLsbD k then 2 ^ (31 - k) else 0).sum)

/-- The order of two words for ICMP. -/
def intOrder (sgn : Bool) (a b : Word) : Int :=
  let d : Int := if sgn then a.toInt - b.toInt else (a.toNat : Int) - b.toNat
  if d < 0 then -1 else if d = 0 then 0 else 1

/-- The high half of a product, signed or unsigned. -/
def mulHigh (sgn : Bool) (a b : Word) : Word :=
  if sgn then BitVec.ofInt 32 ((a.toInt * b.toInt) / 2 ^ 32) else BitVec.ofNat 32 (a.toNat * b.toNat / 2 ^ 32)

/-- The 64-bit product, signed or unsigned. -/
def mulWide (sgn : Bool) (a b : Word) : Dword :=
  if sgn then BitVec.ofInt 64 (a.toInt * b.toInt) else BitVec.ofNat 64 (a.toNat * b.toNat)

/-- The lesser of two words, signed or unsigned. -/
def intMin (sgn : Bool) (a b : Word) : Word := if intOrder sgn a b ≤ 0 then a else b

/-- The greater of two words, signed or unsigned. -/
def intMax (sgn : Bool) (a b : Word) : Word := if 0 ≤ intOrder sgn a b then a else b

/-- NOP (0x00): no effect. -/
def execNopInstruction (slot : Nat) (w : Insn) (t : Stamp) (s : State) : Out :=
  groupRow slot w t s 0x00 fun g _ _ _ => g

/-- MOV (0x01): d = a. -/
def execMov (slot : Nat) (w : Insn) (t : Stamp) (s : State) : Out := unRow slot w t s 0x01 fun a => a

/-- SEL (0x02): d = c ? a : b. -/
def execSel (slot : Nat) (w : Insn) (t : Stamp) (s : State) : Out :=
  wordRow slot w t s 0x02 fun g iw l => if srcC g iw l = 0#32 then srcB g iw l else srcA g iw l

/-- IADD (0x03): d = a + b modulo 2^32. -/
def execIadd (slot : Nat) (w : Insn) (t : Stamp) (s : State) : Out := binRow slot w t s 0x03 fun _ a b => a + b

/-- ISUB (0x04): d = a - b modulo 2^32. -/
def execIsub (slot : Nat) (w : Insn) (t : Stamp) (s : State) : Out := binRow slot w t s 0x04 fun _ a b => a - b

/-- IMUL (0x05): the low half of the product. -/
def execImul (slot : Nat) (w : Insn) (t : Stamp) (s : State) : Out := binRow slot w t s 0x05 fun _ a b => a * b

/-- IMULHI (0x06): the high half of the product. -/
def execImulhi (slot : Nat) (w : Insn) (t : Stamp) (s : State) : Out :=
  binRow slot w t s 0x06 fun iw a b => mulHigh (bitNat iw.mod 0) a b

/-- IMAD (0x07): d = a * b + c, low half. -/
def execImad (slot : Nat) (w : Insn) (t : Stamp) (s : State) : Out :=
  wordRow slot w t s 0x07 fun g iw l => srcA g iw l * srcB g iw l + srcC g iw l

/-- IMIN (0x08). -/
def execImin (slot : Nat) (w : Insn) (t : Stamp) (s : State) : Out :=
  binRow slot w t s 0x08 fun iw a b => intMin (bitNat iw.mod 0) a b

/-- IMAX (0x09). -/
def execImax (slot : Nat) (w : Insn) (t : Stamp) (s : State) : Out :=
  binRow slot w t s 0x09 fun iw a b => intMax (bitNat iw.mod 0) a b

/-- AND (0x0A). -/
def execAndI (slot : Nat) (w : Insn) (t : Stamp) (s : State) : Out := binRow slot w t s 0x0A fun _ a b => a &&& b

/-- OR (0x0B). -/
def execOrI (slot : Nat) (w : Insn) (t : Stamp) (s : State) : Out := binRow slot w t s 0x0B fun _ a b => a ||| b

/-- XOR (0x0C). -/
def execXorI (slot : Nat) (w : Insn) (t : Stamp) (s : State) : Out := binRow slot w t s 0x0C fun _ a b => a ^^^ b

/-- NOT (0x0D). -/
def execNotI (slot : Nat) (w : Insn) (t : Stamp) (s : State) : Out := unRow slot w t s 0x0D fun a => ~~~a

/-- SHL (0x0E): d = a << (b & 31). -/
def execShl (slot : Nat) (w : Insn) (t : Stamp) (s : State) : Out := binRow slot w t s 0x0E fun _ a b => a <<< shiftCount b

/-- SHR (0x0F): zero-filled. -/
def execShr (slot : Nat) (w : Insn) (t : Stamp) (s : State) : Out := binRow slot w t s 0x0F fun _ a b => a >>> shiftCount b

/-- SAR (0x10): sign-filled. -/
def execSar (slot : Nat) (w : Insn) (t : Stamp) (s : State) : Out :=
  binRow slot w t s 0x10 fun _ a b => a.sshiftRight (shiftCount b)

/-- BFE (0x11). -/
def execBfe (slot : Nat) (w : Insn) (t : Stamp) (s : State) : Out :=
  wordRow slot w t s 0x11 fun g iw l => bitExtract (bitNat iw.mod 0) (srcA g iw l) (srcB g iw l) (srcC g iw l)

/-- BFI (0x12). -/
def execBfi (slot : Nat) (w : Insn) (t : Stamp) (s : State) : Out :=
  wordRow slot w t s 0x12 fun g iw l => bitInsert (srcA g iw l) (srcB g iw l) (srcC g iw l)

/-- POPC (0x13). -/
def execPopc (slot : Nat) (w : Insn) (t : Stamp) (s : State) : Out := unRow slot w t s 0x13 popCount

/-- CLZ (0x14). -/
def execClz (slot : Nat) (w : Insn) (t : Stamp) (s : State) : Out := unRow slot w t s 0x14 leadingZeros

/-- BREV (0x15). -/
def execBrev (slot : Nat) (w : Insn) (t : Stamp) (s : State) : Out := unRow slot w t s 0x15 bitReverse

/-- ICMP (0x16): a predicate in vector form, 1 or 0 in scalar form. -/
def execIcmp (slot : Nat) (w : Insn) (t : Stamp) (s : State) : Out :=
  groupRow slot w t s 0x16 fun g iw lanes _ => writeCond g iw lanes fun l =>
    compareCode (iw.mod % 8) (some (intOrder (bitNat iw.mod 3) (srcA g iw l) (srcB g iw l)))

/-- IADD64 (0x17): d = a + b modulo 2^64. -/
def execIadd64 (slot : Nat) (w : Insn) (t : Stamp) (s : State) : Out :=
  groupRow slot w t s 0x17 fun g iw lanes _ => writeResult64 g iw lanes fun l =>
    src64 g iw iw.ak iw.a l + src64 g iw iw.bk iw.b l

/-- IMADW (0x18): d = a * b + 64-bit c modulo 2^64. -/
def execImadw (slot : Nat) (w : Insn) (t : Stamp) (s : State) : Out :=
  groupRow slot w t s 0x18 fun g iw lanes _ => writeResult64 g iw lanes fun l =>
    mulWide (bitNat iw.mod 0) (srcA g iw l) (srcB g iw l) + src64 g iw iw.ck iw.c l

/-- A special register of a lane (Table 11-7). -/
def specialReg (now : Stamp) (prio : Nat) (g : Group) (pc : Nat) (active : Word) (idx lane : Nat) : Word :=
  match idx with
  | 0 => BitVec.ofNat 32 lane
  | 1 => active
  | 2 => BitVec.ofInt 32 ((pc : Int) - g.progVa)
  | 3 => BitVec.ofNat 32 g.core
  | 4 => BitVec.ofNat 32 g.sched
  | 5 => BitVec.ofNat 32 g.homeSlot
  | 6 => BitVec.ofNat 32 now
  | 7 => BitVec.ofNat 32 ((g.stampCap.getD 0) / 2 ^ 32)
  | _ => BitVec.ofNat 32 prio

/-- SREAD (0x44): a special register; STAMP_LO captures the group's stamp (R527). -/
def execSread (slot : Nat) (w : Insn) (t : Stamp) (s : State) : Out :=
  issue slot w t s (· == 0x44) fun s slot g iw pc active _ =>
    let lanes := lanesOf (runMask g iw active)
    let now := s.stamp
    let g' := if iw.mod = 6 then { g with stampCap := some now } else g
    let g' := writeResult g' iw lanes fun l => specialReg now (queuePrio s g.queue) g pc active iw.mod l
    putGroup s slot (advance g' iw pc active)

/-- PLOP (0x45): p[D] = MOD[(pA << 1) | pB] (R513). -/
def execPlop (slot : Nat) (w : Insn) (t : Stamp) (s : State) : Out :=
  groupRow slot w t s 0x45 fun g iw lanes _ => writeCond g iw lanes fun l =>
    bitNat iw.mod (2 * natOfBool (preg g iw.a l) + natOfBool (preg g iw.b l))

/-- PMOV (0x46): p[D] = bit (lane) of scalar a. -/
def execPmov (slot : Nat) (w : Insn) (t : Stamp) (s : State) : Out :=
  groupRow slot w t s 0x46 fun g iw lanes _ => writeCond g iw lanes fun l => (srcA g iw l).getLsbD l

/-- An opcode that Table 11-4 does not list: ILLEGAL_INSTR with reason 1 (R514, R550). -/
def execUndefinedOpcode (slot : Nat) (w : Insn) (t : Stamp) (s : State) : Out :=
  issue slot w t s (fun _ => (shapeOf (iword w)).isNone) fun s _ _ _ _ _ _ => s

end Sys2Proof.Machine
end

