-- ==== Sys2Proof/Machine/Broken.lean ====
section
/-!
DEFINITION. The steps of a forfeit after its writes are performed (Table 18-8 steps 4 to 7): the sweep, and the BROKEN marks that
the Mordant makes by accesses of its own (R20, R810, R811).
-/

namespace Sys2Proof.Machine

/-- The word with BROKEN (bit 63) set. -/
def brokenWord (w : Dword) : Dword := w ||| 0x8000000000000000#64

/-- The state with a forfeit changed. -/
def modForfeit (s : State) (k : Nat) (g : Forfeit → Forfeit) : State := { s with forfeits := s.forfeits.modify k g }

/-- A semaphore leaves its context's table: marked, not reachable, or left alone (R810, R811). -/
def semDone (s : State) (k : Nat) (c : CtxId) (va : Nat) (mark : Option Bool) : State :=
  let s := modCtx s c fun x => { x with sems := removeAll x.sems va }
  match mark with
  | some m => modForfeit s k fun f => { f with marks := f.marks ++ [(c.tenant, m)] }
  | none => s

/-- The Mordant can reach the home of a semaphore: host memory only through a port that is up and takes an AtomicOp of the function
(R276, R811). -/
def semReachable (s : State) : Home → Bool
  | .host p fn _ => hostReady s p fn && (getFn s (ctlFn fn)).atomicEn
  | _ => true

/-- An access of the Mordant to a word, in SPINE packets from the system NI, uncharged (R20). It is of no context: a line that it
allocates has OWNER 0 (R369). -/
def semAccess (s : State) (c : CtxId) (va : Nat) (h : Home) (kind : AccKind) : State :=
  let line := va / 128 * 128
  enterFabric s { lineAccess s (.broken c va) systemNi c 3 line (lineHome h va) false [va % 128 / 32] kind with
    ctx := none, part := none }

/-- The access that marks a semaphore. -/
def semInFlight (s : State) (c : CtxId) (va : Nat) : Option (Nat × Access) :=
  s.traffic.accesses.find? fun e => !e.2.dropped && e.2.client == .broken c va

/-- The answer of a compare-and-swap that marks a semaphore: it applied where the old word is the one compared; else the word is read
again. -/
def semSwapped (s : State) (k : Nat) (c : CtxId) (va : Nat) (old : Dword) (words : List (Nat × Dword × Dword)) : State :=
  match words with
  | (_, w, _) :: _ => if old = w then semDone s k c va (some true) else s
  | [] => s

/-- A semaphore of a forfeited context goes on: its word is read, and marked by a compare-and-swap while HOLDER names the context
(R810). DEDUCED, unsafe: log 11. -/
def markSem (s : State) (k : Nat) (c : CtxId) (va : Nat) : State :=
  match translate s c va .atomic with
  | .error _ => semDone s k c va (some false)
  | .ok (h, _) =>
    match semInFlight s c va with
    | none => if semReachable s h then semAccess s c va h .read else semDone s k c va (some false)
    | some (n, a) =>
      if a.stage != .answered then
        if semReachable s h || a.tagOf.isSome then s else semDone (removeAccess s n) k c va (some false)
      else
        let s := removeAccess s n
        if a.poison && bytePoison a (va % 128) then semDone s k c va (some false)
        else match a.kind with
          | .atomic _ _ words => semSwapped s k c va (BitVec.ofNat 64 (leNat (a.bytes.take 8))) words
          | _ =>
            let w := BitVec.ofNat 64 (leNat ((a.bytes.drop (va % 128)).take 8))
            if semHolder w ≠ ownerCode c then semDone s k c va none
            else if semReachable s h then semAccess s c va h (.atomic .cas true [(va % 128, w, brokenWord w)])
            else semDone s k c va (some false)

/-- Every semaphore of a forfeit's contexts goes on one step. -/
def markSems (s : State) (k : Nat) (ctxs : List CtxId) : State :=
  ctxs.foldl (fun s c => (((getCtx s c).map Ctx.sems).getD []).foldl (fun s va => markSem s k c va) s) s

/-- Some semaphore of the set is not done with. -/
def semsLeft (s : State) (ctxs : List CtxId) : Bool := ctxs.any fun c => !(((getCtx s c).map Ctx.sems).getD []).isEmpty

/-- A forfeit goes on once its writes are performed: the sweep, the BROKEN marks, then its completion (Table 18-8 steps 4 to 7). -/
def stepForfeit (s : State) (k : Nat) (f : Forfeit) : State :=
  let s := dropHeld s f
  if forfeitWritesLeft s f then s
  else
    let s := if f.swept then s
      else modForfeit (forfeitSweep s fun c => f.ctxs.contains c) k fun f => { f with swept := true }
    let s := markSems s k f.ctxs
    if semsLeft s f.ctxs || adminRuns s f then s else finishForfeit s k

end Sys2Proof.Machine
end

