-- ==== Sys2Proof/Machine/PacketOps.lean ====
section
/-!
DEFINITION. The queue engine's fetches and packets (spec 06): units of a chain, headers, starting a packet, and the words
that signals, waits and semaphores act on.
-/

namespace Sys2Proof.Machine

/-! Faults of a fetch -/

/-- A poisoned translation-table read forfeits the context, whoever read it (Table 07-8). DEDUCED, unsafe: log 13. -/
def tableKill (s : State) (c : CtxId) (va : Nat) (e : XFault) : State :=
  if e = .tablePoison then killContext s c { ctxRec s 0x0304 3 [.t, .d] c with addr := .va va, loc := { unit := .queueEngine } }
  else s

/-! Fetching -/

/-- The bytes of a read where none of them is poison. -/
def cleanBytes (bs : List (Byte × Bool)) : Option (List Byte) := if bs.any Prod.snd then none else some (bs.map Prod.fst)

/-- A packet header (Table 06-3). -/
structure Hdr where
  type : Nat
  barrier : Bool
  notify : Bool
  errCont : Bool
  ext : Nat
  tag : Word
  deriving DecidableEq, Repr

/-- The header of a packet's bytes. -/
def hdrOf (bs : List Byte) : Hdr :=
  let h := fieldAt bs 0 8
  { type := bitsNat h 7 0, barrier := bitNat h 8, notify := bitNat h 9, errCont := bitNat h 10,
    ext := bitsNat h 19 16, tag := BitVec.ofNat 32 (bitsNat h 63 32) }

/-- The packet types that a queue's kind accepts (Table 06-2), in Sepia mode without types 0x10 to 0x7F (R852). -/
def typeAccepted (sepia : Bool) (k : QueueKind) (t : Nat) : Bool :=
  if t < 6 then true
  else if t < 0x10 then false
  else if sepia && t < 0x80 then false
  else if t < 0x40 then k == .graphics || k == .mixed
  else if t < 0x60 then k == .compute || k == .mixed
  else if t < 0x80 then k == .matrix || k == .mixed
  else if t < 0xA0 then k == .transfer || k == .mixed
  else false

/-- Packet types that some chapter defines; every other type of a group is a bad packet (R242). -/
def typeDefined (t : Nat) : Bool :=
  t < 6 || (0x10 ≤ t && t ≤ 0x14) || t == 0x40 || t == 0x41 || t == 0x60 || t == 0x61 || (0x80 ≤ t && t ≤ 0x82)

/-- A chapter fixes EXT of its packets, and this one has another: graphics and transfer packets have 0, matrix packets 1
(R561, R629, R673, R718). DEDUCED, unsafe: log 13. -/
def extBad (h : Hdr) : Bool :=
  if 0x60 ≤ h.type && h.type < 0x80 then h.ext != 1
  else if (0x10 ≤ h.type && h.type < 0x40) || 0x80 ≤ h.type then h.ext != 0
  else false

/-- FENCE and SEM_RELEASE behave as if BARRIER were set (R268). -/
def actsAsBarrier (h : Hdr) : Bool := h.barrier || h.type == 1 || h.type == 4

/-- A queue takes part in fetching and starting packets: its tenant is served and nothing stops it. -/
def queueServed (s : State) (q : QueueId) (r : Queue) : Bool :=
  isOpen s && r.st != .error && r.stops.isEmpty && (forfeitOf s q.ctx).isNone && !(getFn s q.ctx.tenant).suspended

/-- What the engine finds at its next packet: no packet, units still on their way, a fetch that failed (with the translation fault,
if it was one), or its VA, the segment's end, and the header with the packet's bytes. -/
inductive AtPacket where
  | nothing
  | waiting (s : State)
  | failed (va : Nat) (e : Option XFault)
  | packet (va endVa : Nat) (h : Hdr) (bytes : List Byte)

/-- Units of a chain as the queue engine has read them (R249). -/
def readUnits (s : State) (q : QueueId) (va n : Nat) (found : List Byte → AtPacket) : AtPacket :=
  match engineRead s (queueEngine s q) .load va (64 * n) with
  | .wait s => .waiting s
  | .fault e _ => .failed va (some e)
  | .ready bs => match cleanBytes bs with
    | some bs => found bs
    | none => .failed va none

/-- The packet that the engine is at: its header's unit is read, then the units that EXT names. DESIGN CHOICE, safe: log 12. -/
def packetAt (s : State) (q : QueueId) : AtPacket :=
  match getQueue s q with
  | none => .nothing
  | some r =>
    match r.chain with
    | .segment next endVa =>
      if next ≥ endVa then .nothing
      else readUnits s q next 1 fun head =>
        let h := hdrOf head
        if h.ext = 0 || next + 64 * (1 + h.ext) > endVa then .packet next endVa h head
        else readUnits s q next (1 + h.ext) fun bs => .packet next endVa h bs
    | _ => .nothing

/-- A packet crosses its link word, is of a type no chapter defines, or is of a type that the kind does not accept. -/
def isBadPacket (s : State) (r : Queue) (va endVa : Nat) (h : Hdr) : Bool :=
  va + 64 * (1 + h.ext) > endVa || extBad h || !typeDefined h.type || !typeAccepted (inSepia s) r.kind h.type

/-- The next packet may start (R245, R268). -/
def mayStart (r : Queue) (h : Hdr) : Bool :=
  r.wait.isNone && (!actsAsBarrier h || r.pkts.isEmpty)

/-- The queue moves past a packet's units; past the last one it reads the link word (R249). -/
def advanceChain (r : Queue) (va endVa units : Nat) : Queue :=
  let next := va + 64 * units
  if next ≥ endVa then { r with chain := .linkRead endVa, qPos := endVa }
  else { r with chain := .segment next endVa, qPos := next }

/-- A packet starts: it joins the packets in progress. -/
def startPkt (s : State) (q : QueueId) (va endVa : Nat) (h : Hdr) : State × Pkt :=
  let num := ((getQueue s q).map Queue.nextPkt).getD 0
  let p : Pkt := { num := num, type := h.type, notify := h.notify, errCont := h.errCont, tag := h.tag, va := va, start := s.stamp }
  (modQueue s q fun r =>
    let r := advanceChain r va endVa (1 + h.ext)
    { r with pkts := r.pkts ++ [p], nextPkt := num + 1, st := .running }, p)

/-- A failed fetch of a chain: CHAIN_FAULT (R293), and the kill of a poisoned table. -/
def chainFault (s : State) (q : QueueId) (va : Nat) (e : Option XFault) : State :=
  let s := dropReads s (.queue q)
  let s := match e with
    | some e => tableKill s q.ctx va e
    | none => s
  chainError s q 0x0203 va 0#32

/-- A packet of a row's type is met, its units are there, and it starts; `mine` tells from its bytes that it is the row's, `hold`
gives the state in which it still waits, and `body` is what the packet does. Units that are missing are asked for; a fetch that fails is
a chain error; a packet of another row, a bad packet, or one that may not start yet leaves the state as it is.
DESIGN CHOICE, safe: log 3. DESIGN CHOICE, safe: log 12. -/
def packetRow (s : State) (q : QueueId) (type : Nat) (mine : List Byte → Bool)
    (hold : State → List Byte → Option State) (body : State → Pkt → List Byte → State) : State :=
  match getQueue s q with
  | none => s
  | some r =>
    if !queueServed s q r || r.wait.isSome then s
    else match packetAt s q with
      | .nothing => s
      | .waiting s => s
      | .failed va e => chainFault s q va e
      | .packet va endVa h bs =>
        if h.type ≠ type || isBadPacket s r va endVa h || !mayStart r h || !mine bs then s
        else match hold s bs with
        | some s => s
        | none =>
          let (s, p) := startPkt s q va endVa h
          useReads (body s p bs) (.queue q)

/-- Every packet of the row's type is the row's. -/
def anyBytes : List Byte → Bool := fun _ => true

/-- Nothing but R245 and R268 holds the packet back. -/
def anyTime : State → List Byte → Option State := fun _ _ => none

/-- A field out of range or a misaligned address of a packet (Table 06-11): the packet is not run and the queue
enters ERROR. -/
def badField (s : State) (q : QueueId) (p : Pkt) : State :=
  let s := modQueue s q fun r => { r with pkts := r.pkts.filter fun x => x.num ≠ p.num, qPos := p.va }
  chainError s q 0x0202 p.va p.tag

/-- A 48-bit VA at an offset of a packet (R241: bits [63:48] are ignored). -/
def vaAt (bs : List Byte) (off : Nat) : Nat := fieldAt bs off 6

/-! Words -/

/-- A packet's error completion with an address (R294). -/
def wordError (s : State) (q : QueueId) (p code va : Nat) : State :=
  errorPkt s q p code (.va va) { unit := .queueEngine } 0#128

/-- SIGNAL_FAULT: a fault or poison on a word (R294), and the kill of a poisoned table. DEDUCED, unsafe: log 13. -/
def signalFault (s : State) (q : QueueId) (p va : Nat) (e : Option XFault) : State :=
  wordError (match e with
    | some e => tableKill s q.ctx va e
    | none => s) q p 0x0216 va

/-- AtomicOps are enabled for a function that reaches host memory (R170). -/
def hostAtomic (s : State) (fn : Nat) : Bool := (getFn s (ctlFn fn)).atomicEn

/-- A Madder store whose token is to commit has its writes still to issue (R571). -/
def stagedStore (s : State) (q : QueueId) : Bool :=
  s.madders.ops.any fun e => e.2.commit && ((tblGet s.cores.groups e.2.group).map Group.queue) == some q && match e.2.kind with
    | .mstore .. => true
    | _ => false

/-- A write of the queue's earlier packets is not yet visible at its home: one in flight, one that its NI has given up, or one still
to be issued by a Madder (R244, R443, R571). -/
def writesUnseen (s : State) (q : QueueId) : Bool :=
  stagedStore s q || s.traffic.accesses.any fun e =>
    (if e.2.dropped then e.2.lateFor else accessQueue s e.2.client) == some q && e.2.stage != .answered && match e.2.kind with
      | .read => false
      | _ => true

end Sys2Proof.Machine
end

