-- ==== Sys2Proof/Machine/Signals.lean ====
section
/-!
DEFINITION. The accesses of a queue engine to signal words: FENCE and SEM_RELEASE, and the evaluations of WAIT and SEM_ACQUIRE
(R243 to R247, R270 to R281). Every one is an access in the fabric to the word's home, which its command follows to its end.
-/

namespace Sys2Proof.Machine

/-! Words -/

/-- The eight bytes of a word at an offset of its line, as a write. -/
def wordWrite (v : Dword) (off : Nat) : AccKind := .write ((wordBytes v).map fun e => (off + e.1, e.2)) false

/-- An atomic on one word at an offset of its line. -/
def wordAtomic (op : AtomOp) (a b : Dword) (off : Nat) : AccKind := .atomic op true [(off, a, b)]

/-- An access of a queue to the word at a VA (Table 09-6); it comes after the BAR2 writes of its function (R253). -/
def wordAccess (s : State) (q : QueueId) (client : Client) (h : Home) (l : Leaf) (va : Nat) (kind : Nat → AccKind) (lock : Bool) :
    State :=
  let line := va / 128 * 128
  let a := lineAccess s client systemNi q.ctx (queuePrio s q) line (lineHome h va) (leafShared l) [va % 128 / 32] (kind (va % 128))
  enterFabric s { a with after := barWrites s q.ctx, lock := lock }

/-- The word that an answered access brought: read at its place in the line, or the old word of an atomic; with its poison. -/
def answeredWord (a : Access) (va : Nat) : Dword × Bool :=
  match a.kind with
  | .atomic .. => (BitVec.ofNat 64 (leNat (a.bytes.take 8)), a.poison)
  | _ => (BitVec.ofNat 64 (leNat ((pieceBytes va 8 a).map Prod.fst)), (pieceBytes va 8 a).any Prod.snd)

/-- The access of a client that is still in flight or answered. -/
def accessOf (s : State) (c : Client) : Option (Nat × Access) :=
  s.traffic.accesses.find? fun e => !e.2.dropped && e.2.client == c

/-- A queue's waits and signals go on while its tenant is served, a stopped queue's too (R773); an ERROR queue has no wait. -/
def waitServed (s : State) (q : QueueId) : Bool :=
  isOpen s && (forfeitOf s q.ctx).isNone && !(getFn s q.ctx.tenant).suspended

/-! Signals -/

/-- OP of a FENCE's FLAGS (Table 06-5). -/
def fenceOp (bs : List Byte) : Nat := bitsNat (fieldAt bs 24 4) 1 0

/-- A signal waits for its VISIBLE condition (R244). -/
def visibleHold (q : QueueId) (s : State) (bs : List Byte) : Option State :=
  if bitNat (fieldAt bs 24 4) 2 && writesUnseen s q then some s else none

/-- A signal's need of Table 07-4. -/
def SignalKind.need : SignalKind → AccessNeed
  | .write => .store
  | .stamp => .store
  | _ => .atomic

/-- What a signal's first access does at its word, and whether it locks the word: a store, one atomic, or the read of a
read-modify-write on host memory without AtomicOp, or of a compare-and-swap (R243, R270, R272, R277, R278). -/
def signalStart (s : State) (h : Home) (o : SignalOp) : (Nat → AccKind) × Bool :=
  let atomics := match h with
    | .host _ fn _ => hostAtomic s fn
    | _ => true
  match o.kind with
  | .write => (wordWrite o.value, false)
  | .stamp => (wordWrite (BitVec.ofNat 64 s.stamp), false)
  | .release => (fun _ => .read, false)
  | .add => if atomics then (wordAtomic .add o.value 0#64, false) else (fun _ => .read, true)
  | .max =>
    if !atomics then (fun _ => .read, true)
    else if h.isHost then (wordAtomic .cas o.compare o.value, false)
    else (wordAtomic .umax o.value 0#64, false)

/-- SIGNAL_FAULT of a signal. -/
def signalFails (s : State) (q : QueueId) (o : SignalOp) (e : Option XFault) : State := signalFault s q o.pkt o.va e

/-- An access of a signal in progress is issued; a word that cannot be reached is SIGNAL_FAULT (R294). -/
def sendSignal (s : State) (q : QueueId) (o : SignalOp) (kind : Home → (Nat → AccKind) × Bool) : State :=
  match translate s q.ctx o.va o.kind.need with
  | .error e => signalFails s q o (some e)
  | .ok (h, l) =>
    if homeGone s h then signalFails s q o none
    else wordAccess s q (.signal q) h l o.va (kind h).1 (kind h).2

/-- The queue's signal in progress, replaced. -/
def putSignal (s : State) (q : QueueId) (o : SignalOp) : State := modQueue s q fun r => { r with signal := some o }

/-- A word in host memory whose function may not use AtomicOps (R276). -/
def noAtomic (s : State) (c : CtxId) (va : Nat) : Bool :=
  match translate s c va .atomic with
  | .ok (.host _ fn _, _) => !hostAtomic s fn
  | _ => false

/-- A FENCE or SEM_RELEASE starts: a misaligned word is a bad packet, a semaphore in host memory needs AtomicOps, and the first
access leaves (R243, R272, R276). -/
def startSignal (s : State) (q : QueueId) (p : Pkt) (bs : List Byte) (kind : SignalKind) : State :=
  let va := if kind = .release then fieldAt bs 8 8 else vaAt bs 8
  if va % 8 ≠ 0 then badField s q p
  else if kind = .release && noAtomic s q.ctx va then wordError s q p.num 0x0215 va
  else
    let o : SignalOp := { pkt := p.num, kind := kind, va := va, value := BitVec.ofNat 64 (fieldAt bs 16 8), tries := 1 }
    sendSignal (putSignal s q o) q o fun h => signalStart s h o

/-- A semaphore word after its release (R272). DEDUCED, unsafe: log 13. -/
def semReleased (w : Dword) : Dword :=
  BitVec.ofNat 64 ((w.toNat + 1) % 2 ^ 32 + natOfBool (bitOf w 63) * 2 ^ 63)

/-- The context no longer holds a semaphore. -/
def dropSem (s : State) (c : CtxId) (va : Nat) : State := modCtx s c fun x => { x with sems := removeAll x.sems va }

/-- A compare-and-swap of a signal: `o` holds the compare value and the count of them. -/
def sendSwap (s : State) (q : QueueId) (o : SignalOp) (new : Dword) : State :=
  sendSignal (putSignal s q o) q o fun _ => (wordAtomic .cas o.compare new, false)

/-- A release goes on from the word that it read or that its compare-and-swap returned (R272): the swap applied, the context is not the
holder, or the swap is made with the word as it now is. DESIGN CHOICE, unsafe: log 43. -/
def stepRelease (s : State) (q : QueueId) (o : SignalOp) (swapped : Bool) (w : Dword) : State :=
  if swapped && w = o.compare then completePkt (dropSem s q.ctx o.va) q o.pkt
  else if semHolder w ≠ ownerCode q.ctx then wordError s q o.pkt 0x0213 o.va
  else sendSwap s q { o with compare := w } (semReleased w)

/-- A FENCE MAX on a host word goes on from the value that its compare-and-swap returned (R278): performed, tried again with that value,
or given up after 16 attempts. -/
def stepMax (s : State) (q : QueueId) (o : SignalOp) (w : Dword) : State :=
  if w = o.compare || o.value ≤ w then completePkt s q o.pkt
  else if o.tries ≥ 16 then signalFails s q o none
  else sendSwap s q { o with compare := w, tries := o.tries + 1 } o.value

/-- The word that a read and write without AtomicOp stores (R277). -/
def updatedWord (o : SignalOp) (w : Dword) : Dword :=
  if o.kind = .add then w + o.value else if w ≤ o.value then o.value else w

/-- What a signal does with the answer of its access: poison is SIGNAL_FAULT; a write or an atomic at its home performs it
(R243, R294). -/
def signalAnswered (s : State) (q : QueueId) (o : SignalOp) (a : Access) : State :=
  let w := answeredWord a o.va
  match a.kind, o.kind with
  | .write .., _ => if a.poison then signalFails s q o none else completePkt s q o.pkt
  | .read, .release => if w.2 then signalFails s q o none else stepRelease s q o false w.1
  | .read, _ =>
    if w.2 then signalFails s q o none else sendSignal s q o fun _ => (wordWrite (updatedWord o w.1), true)
  | .atomic .cas .., .release => if w.2 then signalFails s q o none else stepRelease s q o true w.1
  | .atomic .cas .., _ => if w.2 then signalFails s q o none else stepMax s q o w.1
  | .atomic .., _ => if w.2 then signalFails s q o none else completePkt s q o.pkt

/-- A signal in progress takes the answer of its access, once there is one (R243). DESIGN CHOICE, safe: log 12. -/
def stepSignal (s : State) (q : QueueId) (o : SignalOp) : State :=
  match accessOf s (.signal q) with
  | some (n, a) => if waitServed s q && a.stage == .answered then signalAnswered (removeAccess s n) q o a else s
  | none => s

/-- A row of a signal: it steps the queue's signal of its kind, or starts the next packet where that is its own. -/
def signalRow (s : State) (q : QueueId) (type : Nat) (mine : List Byte → Bool) (kind : SignalKind) : State :=
  match (getQueue s q).bind Queue.signal with
  | some o =>
    if o.kind = kind then stepSignal s q o
    else packetRow s q type mine (visibleHold q) fun s p bs => startSignal s q p bs kind
  | none => packetRow s q type mine (visibleHold q) fun s p bs => startSignal s q p bs kind

/-! Waits -/

/-- A misaligned word or a TIMEOUT out of range (Table 06-5). -/
def waitBad (va : Nat) (bs : List Byte) : Bool := va % 8 != 0 || fieldAt bs 36 4 > 1000000

/-- COND of a WAIT (Table 06-5). -/
def condHolds (w : WaitRec) (v : Dword) : Bool :=
  let x := v &&& w.mask
  match w.cond with
  | 0 => w.ref ≤ x
  | 1 => x == w.ref
  | 2 => x != w.ref
  | _ => x < w.ref

/-- An evaluation whose read returns at this stamp can still satisfy the wait (R247). -/
def inTime (s : State) (w : WaitRec) : Bool := w.timeout == 0 || s.stamp < w.start + w.timeout * 1000

/-- A semaphore word that its holder's context takes (R271). -/
def semTaken (w : Dword) (c : CtxId) : Dword :=
  BitVec.ofNat 64 (w.toNat % 2 ^ 32 + ownerCode c * 2 ^ 32)

/-- The semaphore is free (R271). -/
def semFree (w : Dword) : Bool := semHolder w == 0 && !bitOf w 63

/-- The context holds a semaphore more. -/
def holdSem (s : State) (c : CtxId) (va : Nat) : State := modCtx s c fun x => { x with sems := insertOnce x.sems va }

/-- Semaphores that a context holds. -/
def semsHeld (s : State) (c : CtxId) : Nat := (((getCtx s c).map Ctx.sems).getD []).length

/-- Compare-and-swaps of acquires of a context that have not answered. -/
def semsTaking (s : State) (c : CtxId) : Nat :=
  (s.traffic.accesses.filter fun e => !e.2.dropped && e.2.kind != .read && match e.2.client with
    | .wait q => q.ctx == c
    | _ => false).length

/-- The queue's wait, replaced. -/
def putWait (s : State) (q : QueueId) (w : WaitRec) : State := modQueue s q fun r => { r with wait := some w }

/-- An occasion of R246 for an evaluation: a write to the word or a doorbell, or for a host word the next TAIL_POLL interval from the
start stamp. -/
def waitOccasion (s : State) (r : Queue) (w : WaitRec) (h : Home) : Bool :=
  w.due || (h.isHost && timed s && w.start + (w.polls + 1) * r.tailPoll * 1000 ≤ s.stamp)

/-- TAIL_POLL intervals from the start of a wait that have passed. -/
def pollsPassed (s : State) (r : Queue) (w : WaitRec) : Nat := (s.stamp - w.start) / (r.tailPoll * 1000)

/-- An acquire that no evaluation can satisfy ends (R273, R276): its context holds 16 semaphores, or a host word has no AtomicOps. -/
def acquireRefused (s : State) (q : QueueId) (w : WaitRec) : Option Nat :=
  if !w.sem then none
  else if semsHeld s q.ctx ≥ 16 then some 0x0214
  else if noAtomic s q.ctx w.addr then some 0x0215
  else none

/-- An evaluation starts on an occasion of R246: its read leaves for the word's home (R245, R246, R271). A fault is SIGNAL_FAULT. -/
def startEvaluation (s : State) (q : QueueId) (r : Queue) (w : WaitRec) : State :=
  match translate s q.ctx w.addr (if w.sem then .atomic else .load) with
  | .error e => signalFault s q w.pkt w.addr (some e)
  | .ok (h, l) =>
    if homeGone s h || !waitOccasion s r w h then s
    else match acquireRefused s q w with
      | some code => wordError s q w.pkt code w.addr
      | none =>
        wordAccess (putWait s q { w with due := false, polls := pollsPassed s r w }) q (.wait q) h l w.addr (fun _ => .read) false

/-- An acquire that found its semaphore free takes it by one compare-and-swap (R271, R273); with the context's last entries being taken by
other queues, it is evaluated again. DESIGN CHOICE, unsafe: log 43. -/
def takeSem (s : State) (q : QueueId) (w : WaitRec) (v : Dword) : State :=
  match acquireRefused s q w with
  | some code => wordError s q w.pkt code w.addr
  | none =>
    if semsHeld s q.ctx + semsTaking s q.ctx ≥ 16 then putWait s q { w with due := true }
    else match translate s q.ctx w.addr .atomic with
      | .error e => signalFault s q w.pkt w.addr (some e)
      | .ok (h, l) =>
        wordAccess (putWait s q { w with compare := v }) q (.wait q) h l w.addr (wordAtomic .cas v (semTaken v q.ctx)) false

/-- A wait takes the answer of its access (R245, R247, R271, R274, R294): poison is SIGNAL_FAULT; a condition that holds in time
completes the packet; a semaphore found free is taken; a swap that did not apply leads to another evaluation. -/
def waitAnswered (s : State) (q : QueueId) (w : WaitRec) (a : Access) : State :=
  let v := answeredWord a w.addr
  if v.2 then signalFault s q w.pkt w.addr none
  else if !w.sem then (if condHolds w v.1 && inTime s w then completePkt s q w.pkt else s)
  else if a.kind != .read && v.1 = w.compare then completePkt (holdSem s q.ctx w.addr) q w.pkt
  else if bitOf v.1 63 then wordError s q w.pkt 0x0212 w.addr
  else if a.kind != .read then putWait s q { w with due := true }
  else if semFree v.1 && inTime s w then takeSem s q w v.1
  else s

/-- One step of a wait: the answer of its access, or the start of an evaluation (R246, R271). DESIGN CHOICE, safe: log 12. -/
def stepWait (s : State) (q : QueueId) (r : Queue) (w : WaitRec) : State :=
  match accessOf s (.wait q) with
  | some (n, a) => if a.stage == .answered then waitAnswered (removeAccess s n) q w a else s
  | none => startEvaluation s q r w

/-- A WAIT or SEM_ACQUIRE starts to wait, and its first evaluation starts with it (R245). -/
def startWait (s : State) (q : QueueId) (p : Pkt) (bs : List Byte) (va : Nat) (sem : Bool) : State :=
  let w : WaitRec := { pkt := p.num, sem := sem, addr := va, ref := BitVec.ofNat 64 (fieldAt bs 16 8)
                       mask := BitVec.ofNat 64 (fieldAt bs 24 8), cond := bitsNat (fieldAt bs 32 4) 1 0
                       timeout := fieldAt bs 36 4, start := s.stamp }
  let s := settleQueue (putWait s q w) q
  match getQueue s q with
  | some r => startEvaluation s q r w
  | none => s

end Sys2Proof.Machine
end

