-- ==== Sys2Proof/Machine/AtomOps.lean ====
section
/-!
DEFINITION. The atomic operations as functions of the old word and their operands (R367, R483, R530).
-/

namespace Sys2Proof.Machine

/-- A word of 32 or 64 bits in the low bits of a doubleword. -/
def atomTrunc (wide : Bool) (x : Dword) : Dword := if wide then x else x &&& 0xFFFFFFFF#64

/-- A word as a signed integer of its width. -/
def atomInt (wide : Bool) (x : Dword) : Int := if wide then x.toInt else (x.truncate 32).toInt

/-- The new word of an atomic; for a compare-and-swap `a` is the compare value and `b` the new one (Table 11-3); for
a word of the numeric status record `b` is 1 for the flags, which are ORed, else 0 for a count, which saturates (R612). -/
def atomApply (op : AtomOp) (wide : Bool) (old a b : Dword) : Dword :=
  let o := atomTrunc wide old
  let x := atomTrunc wide a
  atomTrunc wide (match op with
    | .add => o + x
    | .min => if atomInt wide o ≤ atomInt wide x then o else x
    | .max => if atomInt wide x ≤ atomInt wide o then o else x
    | .umin => if o.toNat ≤ x.toNat then o else x
    | .umax => if x.toNat ≤ o.toNat then o else x
    | .and => o &&& x
    | .or => o ||| x
    | .xor => o ^^^ x
    | .exch => x
    | .cas => if o = x then b else o
    | .status => if b = 1#64 then o ||| x else BitVec.ofNat 64 (min (o.toNat + x.toNat) (2 ^ 32 - 1))
    | .fadd => (toF32 0 (faddExact false (f32 (o.truncate 32)) (f32 (x.truncate 32)))).zeroExtend 64)

/-- The operation of an ATOM code (Table 11-3). -/
def atomOpOf : Nat → AtomOp
  | 0 => .add
  | 1 => .exch
  | 2 => .cas
  | 3 => .umin
  | 4 => .umax
  | 5 => .min
  | 6 => .max
  | 7 => .and
  | 8 => .or
  | 9 => .xor
  | _ => .fadd

end Sys2Proof.Machine
end

