-- ==== Sys2Proof/Machine/Lpddr.lean ====
section
/-!
DEFINITION. The memory network interfaces and the LPDDR5X channels (spec 07): reads, writes and write-backs with their
ECC results, oscillator tracking, refresh, and the Mordant's sample of resident lines.
-/

namespace Sys2Proof.Machine

/-- A record about a sector of LPDDR5X: PA, channel and access kind (R354, Table 18-4). -/
def memRec (s : State) (code : Nat) (letters : List WinLetter) (who : Option CtxId) (kind pa : Nat) : ErrRec :=
  { recOf s code 0 letters (who.map CtxId.tenant) with
    ctx := who.map CtxId.idx, addr := .pa pa, loc := { unit := .lpddr, index := channelOf s pa }
    detail := detailOf (kind + channelOf s pa * 256) 0 0 0 }

/-- The corrected-error count of the channel of an address (R340). -/
def countCe (s : State) (pa : Nat) : State :=
  let ch := channelOf s pa
  { s with lpddr := { s.lpddr with ceCounts := tblSet s.lpddr.ceCounts ch (tblGetD s.lpddr.ceCounts ch 0 + 1) } }

/-- The uncorrectable-error count, saturating (Table 07-11). -/
def countUe (s : State) : State := { s with lpddr := { s.lpddr with ueCount := satAdd 32 s.lpddr.ueCount 1 } }

/-- What the check of one sector does (R340, R341, R355): counts and records; the flag says that the sector is poison.
While out of service every read is poison and nothing is recorded (R965); a block that the zero map marks is not read at all
(R311, R352). A double-bit error of the inline ECC exists only with inline ECC on (R339). -/
def checkSector (s : State) (who : Option CtxId) (kind pa : Nat) (e : EccResult) : State × Bool :=
  if !s.lpddr.inService then (s, true)
  else if zeroMarked s.lpddr pa then (s, false)
  else
    let letters : List WinLetter := if who.isSome then [.t, .d] else [.d]
    match e with
    | .good => (s, false)
    | .corrected => (countCe s pa, false)
    | .uncorrectable =>
      if s.lpddr.ecc then (detect (countUe s) (memRec s 0x0310 letters who kind pa), true) else (s, false)
    | .linkUncorrectable => (detect (countUe s) (memRec s 0x0311 letters who kind pa), true)

/-- The access kind of LPDDR_* records (Table 18-4). -/
def accKindNum : AccKind → Nat
  | .read => 0
  | .write .. => 1
  | .atomic .. => 2

/-- Sectors of its line that a store covers in part. -/
def partialSectors (pa : Nat) (bytes : List (Nat × Byte)) : List Nat :=
  (List.range 4).filter fun k =>
    let m := (sectorPatch pa bytes (pa / 128 * 128 + 32 * k)).2
    m != 0#32 && m != fullMask

/-- The sectors of its line that a missing access reads: all four where a load or atomic allocates, else its own; those
that a store covers in part (R365, R372). A sector that the line holds valid is not read. -/
def fillSectors (s : State) (a : Access) (pa : Nat) (alloc : Bool) : List Nat :=
  let wanted := match a.kind with
    | .write bytes _ => partialSectors pa bytes
    | _ => if alloc then List.range 4 else usedSectors a pa
  match findLine s pa with
  | some ln => wanted.filter fun k => !(lineSector ln k).sv
  | none => wanted

/-- The read of a missing access at its memory NI: each sector is checked and the data goes back to the slice. -/
def readAccess (s : State) (n : Nat) (a : Access) (pa : Nat) (at_ : Stamp) (ecc : List EccResult) : State :=
  let r := (List.range 4).foldl (fun (acc : State × List Bool) k =>
      if a.fills.contains k then
        let c := checkSector acc.1 a.ctx (accKindNum a.kind) (pa / 128 * 128 + 32 * k) (ecc.getD k .good)
        (c.1, acc.2 ++ [c.2])
      else (acc.1, acc.2 ++ [false]))
    (s, [])
  modAccess r.1 n fun a => { a with stage := .filled at_, fillPoison := r.2 }

/-- The 256 blocks of a lost zero-map word count as written and deliver poison until each is fully written
(Table 07-8). -/
def loseZeroWord (s : State) (word : Nat) : State :=
  let blocks := rangeFrom (256 * word) 256
  { s with lpddr := { s.lpddr with
      zeroMap := s.lpddr.zeroMap.map fun e =>
        (e.1, blocks.foldl (fun l b => if b / 512 = e.1 then insertOnce l (b % 512) else l) e.2)
      badBlocks := s.lpddr.badBlocks.filter (fun e => !blocks.contains e.1) ++ blocks.map fun b => (b, []) } }

/-- VAT_CE_COUNT, saturating (Table 08-7). -/
def vatCe (s : State) : State := { s with vat := { s.vat with ceCount := satAdd 32 s.vat.ceCount 1 } }

/-- VAT_UE_COUNT, saturating (Table 08-7). -/
def vatUe (s : State) : State := { s with vat := { s.vat with ueCount := satAdd 32 s.vat.ueCount 1 } }

/-- A Vat record: slice, set, way and sector (R405, Table 18-4). -/
def vatRec (s : State) (code : Nat) (letters : List WinLetter) (who : Option CtxId) (addr : RecAddr)
    (slice set way sector : Nat) : ErrRec :=
  { recOf s code 0 letters (who.map CtxId.tenant) with
    ctx := who.map CtxId.idx, addr := addr, loc := { unit := .slice, index := slice }
    detail := detailOf (set + way * 2 ^ 10 + sector * 2 ^ 14) 0 0 0 }

/-- VAT_UE: counted and recorded to the owner's window and the device administrator's (R392, Table 08-5). -/
def recordVatUe (s : State) (who : Option CtxId) (addr : RecAddr) (slice set way sector : Nat) : State :=
  detect (vatUe s) (vatRec s 0x0400 (if who.isSome then [.t, .d] else [.d]) who addr slice set way sector)

/-- The earlier writes from a slice to a line have not all reached its memory NI (R375). -/
def lineWrites (s : State) (pa : Nat) : Bool :=
  s.traffic.writeBacks.any fun e => e.2.pa / 128 == pa / 128 && e.2.stage == .sent

/-- The check of a sector that the Mordant reads for a structure of its own or for a walk: the error of a table is recorded by
what meets it (R336, R354). -/
def checkStructure (s : State) (table : Bool) (pa : Nat) (e : EccResult) : State × Bool :=
  let r := checkSector s none 0 pa e
  if table && r.2 then ((if s.lpddr.inService then countUe s else s), true) else r

/-- A walk's or the Mordant's read of the reserved region fills a line with OWNER 0 (R364, R369). A failed sector is delivered as
poison (R341). DESIGN CHOICE, unsafe: log 18. -/
def readStructure (s : State) (pa : Nat) (table : Bool) (ecc : List EccResult) : State :=
  let base := pa / 128 * 128
  let r := (List.range 4).foldl (fun (acc : State × List Bool) k =>
      let c := checkStructure acc.1 table (base + 32 * k) (ecc.getD k .good)
      (c.1, acc.2 ++ [c.2]))
    (s, [])
  let free := freeLru r.1
  match findLine s base with
  | some ln => setLine r.1 (fillLine r.1 ln r.2)
  | none =>
    match allocLine free.2 base { lru := free.1 } with
    | some (s, ln) => setLine s (fillLine s ln r.2)
    | none => r.1

/-- A zero-map word that the controller reads for an access: where it is lost, its blocks are (R341, Table 07-8). The record is of
the access's tenant (R355). -/
def readZeroWord (s : State) (word n : Nat) (e : EccResult) : State :=
  let pa := reservedBase s + 32 * word
  let who := (getAccess s n).bind Access.ctx
  let letters : List WinLetter := if who.isSome then [.t, .d] else [.d]
  let lose := fun (code : Nat) => loseZeroWord (detect (countUe s) (memRec s code letters who 0 pa)) word
  if !s.lpddr.inService then s
  else match e with
    | .good => s
    | .corrected => countCe s pa
    | .uncorrectable => if s.lpddr.ecc then lose 0x0310 else s
    | .linkUncorrectable => lose 0x0311

/-- LPDDR_READ: a fill or read at a memory NI is served with correction or poison (R340, R341, R965), after the earlier writes of
its slice to the line (R375). The zero map lies at the start of the reserved region. DESIGN CHOICE, unsafe: log 61.
DESIGN CHOICE, safe: log 36. -/
def execLpddrRead (what : LpddrTarget) (ecc : List EccResult) (t : Stamp) (s : State) : Out :=
  let s := s.upTo t
  match what with
  | .access n =>
    match getAccess s n with
    | none => .next s
    | some a =>
      match a.stage, a.home with
      | .filling at_, .device pa => .next (if lineWrites s pa then s else readAccess s n a pa at_ ecc)
      | _, _ => .next s
  | .table pa => if pa ≥ usableBytes s then .fault .noSuchAddress else .next (readStructure s pa true ecc)
  | .structure_ pa => if pa ≥ usableBytes s then .fault .noSuchAddress else .next (readStructure s pa false ecc)
  | .zeroWord word n =>
    if word ≥ poolBytes s / 2 ^ 20 then .fault .noSuchAddress else .next (readZeroWord s word n (ecc.headD .good))

/-- The write-back of a number is the earliest in flight to its sector, so that writes arrive in the order of their home
(R375). -/
def writeBackDue (s : State) (n : Nat) : Option WriteBack :=
  match s.traffic.writeBacks.find? fun e => e.1 == n && e.2.stage == .sent with
  | some e =>
    if s.traffic.writeBacks.all fun x => x.2.pa ≠ e.2.pa || x.2.stage ≠ .sent || n ≤ x.1 then some e.2 else none
  | none => none

/-- The SECDED check of a line's sector as it was read for its write-back (R391, R392). DEDUCED, safe: log 52. -/
def checkSent (s : State) (w : WriteBack) (e : EccResult) : State × WriteBack :=
  match w.place, e with
  | some _, .corrected => (vatCe s, w)
  | some (set, way), .uncorrectable =>
    (recordVatUe s (ownerCtx w.owner) (.pa w.pa) (sliceOf w.pa) set way (sectorOf w.pa), { w with poison := true })
  | _, _ => (s, w)

/-- A write is performed at its memory NI (R344 to R346, R965). -/
def performWrite (s : State) (w : WriteBack) (e : EccResult) : State :=
  let kind := if w.writer.isSome then 1 else 3
  let letters : List WinLetter := if w.writer.isSome then [.t, .d] else [.d]
  let rec_ := fun (s : State) (code : Nat) => detect (countUe s) (memRec s code letters w.writer kind w.pa)
  let bad := s.lpddr.inService && (e == .linkUncorrectable || (e == .uncorrectable && s.lpddr.ecc))
  let s := if !s.lpddr.inService then s
    else match e with
      | .good => s
      | .corrected => countCe s w.pa
      | .uncorrectable => if s.lpddr.ecc then rec_ s 0x0310 else s
      | .linkUncorrectable => rec_ s 0x0311
  let r := dramWrite s.lpddr w.pa w.data w.mask (w.poison || bad)
  let s : State := { s with lpddr := r.1 }
  if r.2 then pushRecord s (memRec s 0x0312 [.d] w.writer kind w.pa) else s

/-- A write-back has been performed: its acknowledgement is on its way, or none is awaited any more (R413, R443). -/
def ackWriteBack (s : State) (n : Nat) : State :=
  let done := fun (e : Nat × WriteBack) => if e.1 = n then (n, { e.2 with stage := WbStage.acked }) else e
  { s with traffic := { s.traffic with
      writeBacks := (s.traffic.writeBacks.map done).filter fun e => !(e.1 == n && e.2.late) } }

/-- LPDDR_WRITE_BACK: a write-back or write reaches its memory NI (R366, R341, R355). `vat` is the check of the sector as its slice
read it (R391). DESIGN CHOICE, safe: log 36. -/
def execLpddrWriteBack (n : Nat) (ecc vat : EccResult) (t : Stamp) (s : State) : Out :=
  let s := s.upTo t
  match writeBackDue s n with
  | none => .next s
  | some w =>
    if w.pa ≥ usableBytes s then .fault .noSuchAddress
    else
      let r := checkSent s w vat
      .next (performWrite (ackWriteBack r.1 n) r.2 ecc)

/-- OSC_TRACKING: every 100 ms each channel tracks; a failure keeps the previous settings and is recorded (R342,
Table 07-8, R130). -/
def execOscTracking (ch : Nat) (ok : Bool) (t : Stamp) (s : State) : Out :=
  let s := s.upTo t
  if isOpen s && timed s && s.lpddr.inService && ch < channels s && t % 100000000 == 0 && s.stamp == t then
    let m := BitVec.ofNat 16 (2 ^ ch)
    if ok then .next { s with lpddr := { s.lpddr with trackFail := s.lpddr.trackFail &&& ~~~m } }
    else
      let s : State := { s with lpddr := { s.lpddr with trackFail := s.lpddr.trackFail ||| m } }
      .next (pushRecord s { deviceRec s 0x0313 0 [.d] with
        loc := { unit := .lpddr, index := ch }, detail := detailOf (ch * 256) 0 0 0 })
  else .next s

/-- LPDDR_REFRESH: refresh and RFM take time and change no state (R342, R353). -/
def execLpddrRefresh (_ch : Nat) (_rfm : Bool) (t : Stamp) (s : State) : Out := .next (s.upTo t)

/-- LINES_RESIDENT_SAMPLE: at each multiple of 1 ms every context's resident lines are sampled (R284, R371). -/
def execLinesResidentSample (t : Stamp) (s : State) : Out :=
  let s := s.upTo t
  if mordantServes s && timed s && t % 1000000 == 0 && s.stamp == t then
    .next { s with ctxs := s.ctxs.map fun e =>
      (e.1, { e.2 with linesResident := ownerCount s (ownerCode e.1), linesStamp := t }) }
  else .next s

end Sys2Proof.Machine
end

