-- ==== Sys2Proof/Machine/Vat.lean ====
section
/-!
DEFINITION. The Vat's home slices (spec 08): loads, stores and atomics that reach their home, fills, the streaming-store
detectors, SECDED of sectors and tags, and the patrol scrubber.
-/

namespace Sys2Proof.Machine

/-! Records and checks -/

/-- The check of one valid sector of a line as it is read (R391, R392): a clean sector that is lost takes the line with
it, once its dirty sectors are written back with the priority of the read; a dirty one becomes poison. None: the line has left. -/
def checkLineSector (s : State) (pri : Nat) (ln : Line) (k : Nat) (e : EccResult) : State × Option Line :=
  let x := lineSector ln k
  if !x.sv then (s, some ln)
  else match e with
    | .good => (s, some ln)
    | .linkUncorrectable => (s, some ln)
    | .corrected => (vatCe s, some ln)
    | .uncorrectable =>
      if x.sd then
        let ln := { ln with sectors := ln.sectors.set k { x with poison := true } }
        (recordVatUe (setLine s ln) (ownerCtx ln.owner) (.pa (linePa ln + 32 * k)) ln.slice ln.set ln.way k, some ln)
      else (vatCe (evictLine s ln pri), none)

/-- The check of some sectors of a line, in order. -/
def checkLine (s : State) (pri : Nat) (ln : Line) (secs : List Nat) (ecc : List EccResult) : State × Option Line :=
  secs.foldl (fun acc k => match acc.2 with
    | none => acc
    | some ln => checkLineSector acc.1 pri ln k (ecc.getD k .good)) (s, some ln)

/-- The check of a line's two tag copies (R394, R405): a line whose tag is lost is invalidated, and its dirty data is
lost. -/
def checkTags (s : State) (ln : Line) : TagCheck → State × Option Line
  | .good => (s, some ln)
  | .corrected => (vatCe s, some ln)
  | .oneLost => (vatCe s, some ln)
  | .bothLost =>
    (pushRecord (vatUe (dropLine s ln)) (vatRec s 0x0401 [.d] none .none ln.slice ln.set ln.way 0), none)

/-- Slice, set and way of a scratchpad address (R385). -/
def segPlace (addr : Nat) : Nat × Nat × Nat :=
  let seg := addr / segBytes
  let l := 2048 * (seg % 24) + addr % segBytes / 128
  (l % 48, l / 48, seg / 24)

/-- The check of one sector of a segment as it is read (R391, R392). -/
def checkSegSector (s : State) (addr : Nat) (e : EccResult) : State :=
  match e with
  | .good => s
  | .linkUncorrectable => s
  | .corrected => vatCe s
  | .uncorrectable =>
    let seg := addr / segBytes
    let who := (tblGet s.vat.segs seg).bind Segment.holder
    let s : State := { s with vat := { s.vat with segs := tblModify s.vat.segs seg fun g =>
        { g with poison := insertOnce g.poison (addr % segBytes / 32) } } }
    let pl := segPlace addr
    recordVatUe s who (.scratch (addr / 32 * 32)) pl.1 pl.2.1 pl.2.2 (addr / 32 % 4)

/-- The check of some sectors of a line of a segment. -/
def checkSeg (s : State) (addr : Nat) (secs : List Nat) (ecc : List EccResult) : State :=
  secs.foldl (fun s k => checkSegSector s (addr / 128 * 128 + 32 * k) (ecc.getD k .good)) s

/-! The streaming-store detectors -/

/-- The detector of a host port's BAR2 writes. -/
def portDetector (p : PortId) : Nat := 95 + portNum p

/-- The detector that judges an access's store (spec 08): one per core, tile backend and transfer channel, one of the geometry
front end, and one per host port. -/
def detectorOf (s : State) (a : Access) : Option Nat :=
  match a.client with
  | .groupStore slot => (tblGet s.cores.groups slot).map Group.core
  | .madderStore slot => (tblGet s.cores.groups slot).map Group.core
  | .tile core => some (24 + core / 4)
  | .geometry _ => some 30
  | .xferWrite _ ch _ => some (31 + ch)
  | .bar2 _ => some (portDetector (if a.ni = portNi .a then .a else .b))
  | _ => none

/-- A detector after a store (R374). -/
def Detector.after (d : Detector) (c : CtxId) (va : Nat) (full : Bool) : Detector :=
  if !full then { d with count := 0 }
  else if d.ctx = some c && d.nextVa = va then { ctx := some c, nextVa := va + 128, count := min 256 (d.count + 1) }
  else { ctx := some c, nextVa := va + 128, count := 1 }

/-- A store is judged: whether it is a streaming store, and the detector after it (R374, R375). -/
def judgeStore (s : State) (det : Option Nat) (c : Option CtxId) (va : Nat) (full : Bool) : Bool × State :=
  match det, c with
  | some k, some c =>
    let d := (tblGetD s.vat.detectors k {}).after c va full
    (full && s.vat.streamEn && d.count > s.vat.streamThresh,
      { s with vat := { s.vat with detectors := tblSet s.vat.detectors k d } })
  | _, _ => (false, s)

/-- A request that writes all 128 bytes of its line (R374). -/
def coversLine (bytes : List (Nat × Byte)) : Bool := (List.range 128).all fun k => bytes.any fun e => e.1 == k

/-! Serving an access -/

/-- The owner that an access gives a line (R369). -/
def accOwner (a : Access) : Nat := (a.ctx.map ownerCode).getD 0

/-- A tile backend's lines are TILE lines (R389). -/
def accTile (a : Access) : Bool :=
  match a.client with
  | .tile _ => true
  | _ => false

/-- How an access asks for a line. -/
def accAsker (a : Access) (lru : Nat) : Asker := { owner := accOwner a, pri := a.pri, tile := accTile a, lru := lru }

/-- A locked read-modify-write holds the line (R367). -/
def lineLocked (s : State) (n pa : Nat) : Bool :=
  s.traffic.accesses.any fun e =>
    e.1 != n && match e.2.kind, e.2.home, e.2.stage with
      | .atomic .., .device p, .filling _ => p / 128 == pa / 128
      | .atomic .., .device p, .filled _ => p / 128 == pa / 128
      | _, _, _ => false

/-- The 128 bytes of the line at a home with the poison of each sector; `bad` adds poison to sectors served from LPDDR
without allocation. -/
def lineData (s : State) (h : Home) (bad : List Bool) : List Byte × List Bool :=
  let secs := (List.range 4).map fun k => match h with
    | .device pa => homeSector s (pa / 128 * 128 + 32 * k)
    | .scratch a => segSector s (a / 128 * 128 + 32 * k)
    | .host .. => (0#256, false)
  (secs.flatMap fun x => sectorBytes x.1, secs.zipIdx.map fun e => e.1.2 || bad.getD e.2 false)

/-- A read is answered from its home: the whole line's bytes, and the poison of the sectors it uses. -/
def answerRead (s : State) (n : Nat) (a : Access) (base : Nat) (bad : List Bool) : State :=
  let d := lineData s a.home bad
  let off := base % 128
  answerAccess (modAccess s n fun a => { a with fillPoison := d.2 }) n ((d.1.drop off).take a.len)
    ((usedSectors a base).any fun k => d.2.getD k false)

/-- The words of an atomic performed in order at its home: the state and the old words' bytes (R367, R403). A poisoned word stays as
it is: its operation fails (R294). -/
def performAtomic (s : State) (a : Access) (op : AtomOp) (wide : Bool) (words : List (Nat × Dword × Dword)) (lru : Nat) :
    State × List Byte × Bool :=
  let len := if wide then 8 else 4
  words.foldl (fun acc w =>
    let at_ := match a.home with
      | .device pa => Home.device (pa + w.1)
      | .scratch x => .scratch (x + w.1)
      | h => h
    let old := homeRead acc.1 at_ len
    let new := atomApply op wide (BitVec.ofNat 64 (leNat old.1)) w.2.1 w.2.2
    let s := if old.2 then acc.1
      else homeWrite acc.1 at_ (accAsker a lru) ((leBytes len new.toNat).zipIdx.map fun e => (e.2, e.1)) false
    (s, acc.2.1 ++ old.1, acc.2.2 || old.2)) (s, [], false)

/-- An atomic is performed and answered with the old words. -/
def answerAtomic (s : State) (n : Nat) (a : Access) (op : AtomOp) (wide : Bool) (words : List (Nat × Dword × Dword))
    (lru : Nat) (bad : Bool) : State :=
  let r := performAtomic s a op wide words lru
  answerAccess r.1 n r.2.1 (r.2.2 || bad)

/-- Bytes of a store that data flits carried as poison, and the others (R442). -/
def splitPoison (a : Access) (bytes : List (Nat × Byte)) : List (Nat × Byte) × List (Nat × Byte) :=
  bytes.partition fun e => a.flitPoison.contains (e.1 / 32)

/-- A store is written at its home and acknowledged; `stream` says that it does not allocate (R365, R369, R375). -/
def performStore (s : State) (n : Nat) (a : Access) (bytes : List (Nat × Byte)) (poison stream : Bool) (lru : Nat) : State :=
  let p := splitPoison a bytes
  let s := noteWrite s a.home (accOwner a) bytes
  let s := match a.home with
    | .device pa =>
      let s := if stream || (findLine s pa).isSome then s
        else match allocLine s pa (accAsker a lru) with
          | some (s, _) => s
          | none => s
      let stream := stream || (findLine s pa).isNone
      let put := fun (s : State) (bs : List (Nat × Byte)) (bad : Bool) =>
        if bs.isEmpty then s else storeLine s pa (accAsker a lru) bs (poison || bad) stream
      put (put s p.2 false) p.1 true
    | .scratch x =>
      let put := fun (s : State) (bs : List (Nat × Byte)) (bad : Bool) =>
        if bs.isEmpty then s else storeSeg s x bs (poison || bad)
      put (put s p.2 false) p.1 true
    | .host .. => s
  answerAccess s n [] false

/-- A missing access asks a memory NI; `alloc` says that a line is or can be allocated (R365, R367, R372). -/
def miss (s : State) (n pa : Nat) (alloc : Bool) : State :=
  modAccess s n fun a => { a with stage := .filling s.stamp, alloc := alloc, fills := fillSectors s a pa alloc }

/-- A line for the address exists or can be allocated. -/
def lineOrRoom (s : State) (a : Access) (pa lru : Nat) : Bool :=
  (findLine s pa).isSome || (chooseWay s pa (accAsker a lru)).isSome

/-- The resident line of an access after the checks of its tags and of the sectors that the access reads. -/
def checkedLine (s : State) (pri pa : Nat) (secs : List Nat) (ecc : List EccResult) (tags : TagCheck) : State × Option Line :=
  match findLine s pa with
  | none => (s, none)
  | some ln =>
    match checkTags s ln tags with
    | (s, none) => (s, none)
    | (s, some ln) => checkLine s pri ln secs ecc

/-- An access that has reached its home slice and may take effect there (R476). -/
def atHome (s : State) (n : Nat) : Option Access :=
  match getAccess s n with
  | some a =>
    match a.stage, a.home with
    | .admitted _, .device pa => if lineLocked s n pa || !ordered s a then none else some a
    | .admitted _, .scratch _ => if ordered s a then some a else none
    | _, _ => none
  | none => none

/-- VAT_LOAD: a load hits, or misses and its fill goes to a memory NI (R365, R372, R388, R391, R392, R395). -/
def execVatLoad (n lru : Nat) (ecc : List EccResult) (tags : TagCheck) (t : Stamp) (s : State) : Out :=
  let s := s.upTo t
  match atHome s n with
  | none => .next s
  | some a =>
    match a.kind, a.home with
    | .read, .scratch x => .next (answerRead (checkSeg s x (usedSectors a x) ecc) n a x [])
    | .read, .device pa =>
      let used := usedSectors a pa
      let r := checkedLine s a.pri pa used ecc tags
      match r.2 with
      | some ln =>
        if used.all fun k => (lineSector ln k).sv then .next (answerRead (touchLine r.1 ln) n a pa [])
        else .next (miss r.1 n pa true)
      | none => .next (miss r.1 n pa (lineOrRoom r.1 a pa lru))
    | _, _ => .next s

/-- VAT_STORE: a store writes or merges into its line, or goes to LPDDR through the slice; a partly covered sector that is
not valid is filled first (R365, R369, R372, R374, R375, R388). -/
def execVatStore (n lru : Nat) (ecc : List EccResult) (tags : TagCheck) (t : Stamp) (s : State) : Out :=
  let s := s.upTo t
  match atHome s n with
  | none => .next s
  | some a =>
    match a.kind, a.home with
    | .write bytes poison, .scratch x =>
      .next (performStore (checkSeg s x (partialSectors x bytes) ecc) n a bytes poison false lru)
    | .write bytes poison, .device pa =>
      let r := checkedLine s a.pri pa (partialSectors pa bytes) ecc tags
      let j := judgeStore r.1 (detectorOf r.1 a) a.ctx a.va (pa % 128 == 0 && coversLine bytes)
      let s := j.2
      match r.2 with
      | some ln =>
        if (partialSectors pa bytes).all fun k => (lineSector ln k).sv then .next (performStore s n a bytes poison j.1 lru)
        else .next (miss s n pa true)
      | none =>
        if j.1 || (partialSectors pa bytes).isEmpty || !lineOrRoom s a pa lru then
          .next (performStore s n a bytes poison j.1 lru)
        else .next (miss s n pa true)
    | _, _ => .next s

/-- VAT_ATOMIC: performed at the home slice on a resident line or in a segment; otherwise the line is filled, or the slice
locks it for a read-modify-write at LPDDR (R367, R388, R395). -/
def execVatAtomic (n lru : Nat) (ecc : List EccResult) (tags : TagCheck) (t : Stamp) (s : State) : Out :=
  let s := s.upTo t
  match atHome s n with
  | none => .next s
  | some a =>
    match a.kind, a.home with
    | .atomic op wide words, .scratch x =>
      .next (answerAtomic (checkSeg s x (usedSectors a x) ecc) n a op wide words lru false)
    | .atomic op wide words, .device pa =>
      let used := usedSectors a pa
      let r := checkedLine s a.pri pa used ecc tags
      match r.2 with
      | some ln =>
        if used.all fun k => (lineSector ln k).sv then .next (answerAtomic r.1 n a op wide words lru false)
        else .next (miss r.1 n pa true)
      | none => .next (miss r.1 n pa (lineOrRoom r.1 a pa lru))
    | _, _ => .next s

/-- The sectors of a fill enter the line of an address, which is allocated now where the access allocates. -/
def installFill (s : State) (a : Access) (pa lru : Nat) (secs : List Nat) : State :=
  if !a.alloc then s
  else
    let r := match findLine s pa with
      | some ln => some (s, ln)
      | none => allocLine s pa (accAsker a lru)
    match r with
    | none => s
    | some (s, ln) =>
      let ln := secs.foldl (fun ln k => fillSector s ln k (a.fillPoison.getD k false)) ln
      touchLine (setLine s ln) ln

/-- The poison that a fill brought stands for the sectors that it read, unless they are now in a line (R340). -/
def fillBad (s : State) (a : Access) (pa : Nat) : List Bool :=
  if a.alloc && (findLine s pa).isSome then [] else a.fillPoison

/-- Every sector that an access needs is in its line or came with its fill. -/
def fillServes (s : State) (a : Access) (pa : Nat) : Bool :=
  let here := fun (k : Nat) => ((findLine s pa).map fun ln => (lineSector ln k).sv).getD false
  (fillSectors s a pa false).all fun k => a.fills.contains k || here k

/-- VAT_FILL_RETURN: fill data returns, charged to the partition of the access, and the access completes (R365, R367,
R368, Table 09-6). A sector that has left the line meanwhile makes it try again. -/
def execVatFillReturn (n lru : Nat) (t : Stamp) (s : State) : Out :=
  let s := s.upTo t
  match getAccess s n with
  | none => .next s
  | some a =>
    match a.stage, a.home with
    | .filled _, .device pa =>
      let s := installFill (chargeUngated s a.part a.fills.length) a pa lru a.fills
      if !fillServes s a pa then .next (modAccess s n fun a => { a with stage := .admitted s.stamp })
      else match a.kind with
        | .read => .next (answerRead s n a pa (fillBad s a pa))
        | .write bytes poison => .next (performStore s n a bytes poison (findLine s pa).isNone lru)
        | .atomic op wide words =>
          .next (answerAtomic s n a op wide words lru ((usedSectors a pa).any fun k => (fillBad s a pa).getD k false))
    | _, _ => .next s

/-! The patrol scrubber -/

/-- The patrol's window of a stamp: 1,000 ms from origin 0 (R65, R394). -/
def patrolWindow (t : Stamp) : Nat := t / 1000000000

/-- The places that the patrol has read in the current window (R394). -/
def patrolDone (s : State) : List (Nat × Nat × Nat) :=
  if s.vat.patrol.1 = patrolWindow s.stamp then s.vat.patrol.2 else []

/-- The patrol has read a place in the current window. -/
def patrolRead (s : State) (place : Nat × Nat × Nat) : State :=
  { s with vat := { s.vat with patrol := (patrolWindow s.stamp, patrolDone s ++ [place]) } }

/-- PATROL_SCRUB: the sectors of one way of one set of a powered bank group are read, once in each window, and handled as any read
handles them (R394, R404). -/
def execPatrolScrub (slice set way : Nat) (ecc : List EccResult) (tags : TagCheck) (t : Stamp) (s : State) : Out :=
  let s := s.upTo t
  if !isOpen s || !timed s || slice ≥ 48 || set ≥ 1024 || way ≥ 16 || !sliceOn s slice || (patrolDone s).contains (slice, set, way) then
    .next s
  else
  let s := patrolRead s (slice, set, way)
  if s.vat.convMask.getLsbD way then
    let l := set * 48 + slice
    .next (checkSeg s ((24 * way + l / 2048) * segBytes + l % 2048 * 128) (List.range 4) ecc)
  else
    match s.vat.lines.find? fun ln => ln.slice == slice && ln.set == set && ln.way == way with
    | none => .next s
    | some ln =>
      match checkTags s ln tags with
      | (s, none) => .next s
      | (s, some ln) => .next (checkLine s 0 ln (List.range 4) ecc).1

end Sys2Proof.Machine
end

