-- ==== Sys2Proof/Machine/Routes.lean ====
section
/-!
DEFINITION. Where the network interfaces of the fabric lie, the route tables with the ROM's contents, and the packets of accesses
and write-backs with their headers (spec 09).
-/

namespace Sys2Proof.Machine

/-! Network interfaces and route tables -/

/-- A direction of a hop (R409, Table 09-2): N, E, S, W. -/
abbrev Dir := Nat

/-- The network interface exists: 48 slice NIs and 46 client NIs (R410, Table 09-1). -/
def niExists (ni : Nat) : Bool := ni < 96 && ni != 88 && ni != 95

/-- The router of an NI. -/
def niRouter (ni : Nat) : Nat := if ni < 48 then ni else ni - 48

/-- An entry's word with its parity bit, which makes the 33 bits even (R415, Table 09-3). -/
def routeWord (dest mask : Nat) (yx : Bool) : BitVec 33 :=
  let low := BitVec.ofNat 32 (dest + 2 ^ 6 * mask + 2 ^ 12 * natOfBool yx + 2 ^ 13)
  let ones := ((List.range 32).filter fun k => low.getLsbD k).length
  BitVec.ofNat 33 (low.toNat + 2 ^ 32 * (ones % 2))

/-- The parity of an entry's word is even (R415). -/
def parityEven (w : BitVec 33) : Bool := ((List.range 33).filter fun k => w.getLsbD k).length % 2 == 0

/-- The entries of an NI in the Mordant's ROM (Table 09-4). -/
def romEntries (ni : Nat) : List (Nat × BitVec 33) :=
  if ni < 48 then [(0, routeWord 0 7 true), (1, routeWord 7 7 true), (31, routeWord 0 0 false)]
  else [(31, routeWord 0 0 (niRouter ni < 8))]

/-- An entry in the Mordant's ROM; one not listed has VALID = 0 (R417). -/
def romEntry (ni entry : Nat) : BitVec 33 := tblGetD (romEntries ni) entry 0#33

/-- The route tables that start-up installs (R417). -/
def romRoutes : List ((Nat × Nat) × BitVec 33) :=
  ((List.range 96).filter niExists).flatMap fun ni => (romEntries ni).map fun e => ((ni, e.1), e.2)

/-- An entry of an NI's route table. -/
def routeEntry (f : Fabric) (ni entry : Nat) : BitVec 33 := tblGetD f.routes (ni, entry) 0#33

/-- An entry is valid and matches a router (R416). -/
def routeMatches (w : BitVec 33) (dest : Nat) : Bool :=
  w.getLsbD 13 && BitVec.ofNat 6 dest &&& w.extractLsb' 6 6 == w.extractLsb' 0 6 &&& w.extractLsb' 6 6

/-- The entry that a request from an NI to a router selects: the lowest-numbered valid one that matches (R416). -/
def routeSelect (f : Fabric) (ni dest : Nat) : Option Nat :=
  (List.range 32).find? fun k => routeMatches (routeEntry f ni k) dest

/-- The ORDER of the entry that a request selects: YX or not (R416). -/
def routeYx (f : Fabric) (ni dest : Nat) : Bool :=
  ((routeSelect f ni dest).map fun k => (routeEntry f ni k).getLsbD 12).getD false

/-! Routes -/

/-- The hops of a route from one router to another (R416). -/
def routeHops (src dest : Nat) (yx : Bool) : List Dir :=
  let sx := src % 8
  let sy := src / 8
  let dx := dest % 8
  let dy := dest / 8
  let h := if sx ≤ dx then List.replicate (dx - sx) 1 else List.replicate (sx - dx) 3
  let v := if sy ≤ dy then List.replicate (dy - sy) 2 else List.replicate (sy - dy) 0
  if yx then v ++ h else h ++ v

/-- The opposite direction. -/
def invertDir (d : Dir) : Dir := (d + 2) % 4

/-- The neighbour of a router in a direction (R409). -/
def neighbour (r : Nat) (d : Dir) : Nat :=
  match d with
  | 0 => r - 8
  | 1 => r + 1
  | 2 => r + 8
  | _ => r - 1

/-- The routers of a route with the output each one uses: the next hop's direction, or 4 for the slice NI and 5 for the
client NI of the last one; and the input port, 4 or 5 at the first. -/
def routePath (src : Nat) (inp eject : Nat) : List Dir → List (Nat × Nat × Nat)
  | [] => [(src, inp, eject)]
  | d :: rest => (src, inp, d) :: routePath (neighbour src d) (invertDir d) eject rest

/-- The NI of a home: slice r at router r, the host ports at (0,0) and (7,0); a scratchpad address is at the slice of its
line (R385). -/
def homeNi : Home → Nat
  | .device pa => sliceOf pa
  | .scratch a => (segPlace a).1
  | .host p _ _ => portNi p

/-- The client NI of memory NI m: at (0, m + 1) or (7, m - 3) (Table 09-1). -/
def memNi (m : Nat) : Nat := 48 + (if m < 4 then 8 * (m + 1) else 8 * (m - 3) + 7)

/-- The memory NI that serves the channel of an address (R411). -/
def fillNi (s : State) (pa : Nat) : Nat := memNi (channelOf s pa % 8)

/-! Packets -/

/-- A packet of the fabric: where it goes and what its header says (R413, R414, Table 09-2). -/
structure Packet where
  src : Nat
  dest : Nat
  yx : Bool
  hops : List Dir
  kind : Nat
  response : Bool
  pri : Nat
  spine : Bool
  part : Option Nat
  owner : Nat
  poison : Bool
  deriving DecidableEq, Repr

/-- A request from one NI to another along its route (R416). -/
def requestPacket (s : State) (src dest kind pri : Nat) (spine : Bool) (part : Option Nat) (owner : Nat) (poison : Bool) : Packet :=
  let yx := routeYx s.fabric src (niRouter dest)
  { src := src, dest := dest, yx := yx, hops := routeHops (niRouter src) (niRouter dest) yx, kind := kind, response := false
    pri := pri, spine := spine, part := part, owner := owner, poison := poison }

/-- The response to a request: its hops in reverse order, each inverted, with the complement of its ORDER (R414). -/
def Packet.answer (p : Packet) (kind : Nat) (poison : Bool) : Packet :=
  { p with src := p.dest, dest := p.src, yx := !p.yx, hops := (p.hops.map invertDir).reverse, kind := kind, response := true
           poison := poison }

/-- KIND of the request of an access, and of its response (Table 09-2). -/
def kindOf (response : Bool) : AccKind → Nat
  | .read => if response then 3 else 0
  | .write .. => if response then 4 else 1
  | .atomic .. => if response then 5 else 2

/-- The data flits of an access's request carry poison. -/
def requestPoison (a : Access) : Bool :=
  match a.kind with
  | .write _ p => p || !a.flitPoison.isEmpty
  | _ => !a.flitPoison.isEmpty

/-- The packet of an access that is on its way: its request, the fill that its home slice asks a memory NI for or the data that
comes back, or its response (R411, R413). -/
def packetOf (s : State) (a : Access) : Packet :=
  let owner := (a.ctx.map ownerCode).getD 0
  let request := requestPacket s a.ni (homeNi a.home) (kindOf false a.kind) (a.pri % 4) a.client.spine a.part owner (requestPoison a)
  let fill := fun (pa : Nat) => requestPacket s (sliceOf pa) (fillNi s pa) 6 (a.pri % 4) a.client.spine a.part owner false
  match a.stage, a.home with
  | .answered, _ => request.answer (kindOf true a.kind) a.poison
  | .filling _, .device pa => fill pa
  | .filled _, .device pa => (fill pa).answer 3 (a.fillPoison.any id)
  | _, _ => request

/-- The packet of a write-back, or its acknowledgement (R411, R413). -/
def writeBackPacket (s : State) (w : WriteBack) : Packet :=
  let p := requestPacket s (sliceOf w.pa) (fillNi s w.pa) 7 (w.pri % 4) false none w.owner w.poison
  if w.stage = .acked then p.answer 4 false else p

/-- The routers that a packet crosses. -/
def Packet.path (p : Packet) : List (Nat × Nat × Nat) :=
  routePath (niRouter p.src) (if p.src < 48 then 4 else 5) (if p.dest < 48 then 4 else 5) p.hops

/-- The packet is charged: its partition is enabled (R424). -/
def Packet.charged (s : State) (p : Packet) : Bool := (p.part.map fun k => (getPart s.fabric k).cfg.en).getD false

/-- The 64-bit header of a packet (Table 09-2). -/
def headerOf (s : State) (p : Packet) : Dword :=
  let route := (p.hops.zipIdx.map fun e => e.1 * 4 ^ e.2).sum
  BitVec.ofNat 64 (p.pri + 4 * natOfBool p.spine + 8 * natOfBool p.yx + 2 ^ 4 * p.hops.length + 2 ^ 8 * route
    + 2 ^ 32 * natOfBool (48 ≤ p.dest) + 2 ^ 33 * niRouter p.src + 2 ^ 39 * natOfBool (48 ≤ p.src)
    + 2 ^ 40 * p.part.getD 0 + 2 ^ 44 * natOfBool (p.charged s) + 2 ^ 45 * p.owner
    + 2 ^ 59 * p.kind + 2 ^ 63 * natOfBool p.poison)

end Sys2Proof.Machine
end

