-- ==== Sys2Proof/Machine/Startup.lean ====
section
/-!
DEFINITION. Power-on, brown-out, the start-up sequence, the warm device reset, the crystal, the power domains and the
temperature sensors (spec 03, with spec 02, 19 and 21 where they say what a reset does).
-/

namespace Sys2Proof.Machine

/-! Power-on -/

/-- Who controls the balls under an instruction of the TAP: EXTEST, CLAMP and HIGHZ act only while RESET_N is low (R897). -/
def ballsUnder (i : JtagInstr) (resetN : Bool) : BallControl :=
  if resetN then .system
  else match i with
    | .extest => .boundary
    | .clamp => .boundary
    | .highz => .highz
    | _ => .system

/-- The power-on reset state (Table 03-9): everything is cleared but the fuses, the brown-out flag (R108), the pins'
levels and the thermal-trip latch (R906), and the TAP's instruction and scan registers. -/
def powerOn (s : State) (phase : StartPhase) (resetN : Bool) : State :=
  { pending := s.pending
    life := { phase := phase, brownFlag := s.life.brownFlag, pins := { s.life.pins with resetN := resetN, ddrReset := false } }
    fuses := s.fuses
    jtag := { s.jtag with trace := [], lost := false, dapCtrl := 0#16, balls := ballsUnder s.jtag.instr resetN }
    out := s.out
    free := s.free }

/-- Step 2 of Table 03-8: the straps are latched (R117), INLINE_ECC is read (R338, R900), the I3C target serves (R945),
and ports whose PERSTx_N is high leave reset. -/
def beginStart (s : State) (straps : Straps) : State :=
  { s with
    life := { s.life with phase := .awaitLock, straps := straps }
    lpddr := { s.lpddr with ecc := s.fuses.inlineEcc }
    i3c := { s.i3c with serving := true }
    portA := { present := true, perst := !s.life.pins.perstA }
    portB := { present := straps.portbEn, perst := !s.life.pins.perstB } }

/-- RESET_N_ASSERT: the filter accepts a low level on RESET_N, a power-on reset (R885). -/
def execResetNAssert (s : State) : Out :=
  let phase := match s.life.phase with
    | .brownOut => StartPhase.brownOut
    | .releasedLow => .releasedLow
    | _ => .held
  .next (powerOn s phase false)

/-- RESET_N_RISE: start-up begins from step 2 (R117, R128); a brown-out hold ignores the level (R964). -/
def execResetNRise (straps : Straps) (s : State) : Out :=
  if s.life.pins.resetN then .next s
  else
    let s : State := { s with
      life := { s.life with pins := { s.life.pins with resetN := true } }
      jtag := { s.jtag with balls := .system } }
    .next (match s.life.phase with
      | .brownOut => s
      | _ => beginStart s straps)

/-- BROWN_OUT: a monitored rail below its threshold causes a power-on reset with cause BROWN_OUT (R107, R108, R964). -/
def execBrownOut (_rail : Rail) (s : State) : Out :=
  if s.life.pins.resetN && s.life.phase != .brownOut then
    let s := powerOn s .brownOut true
    .next { s with life := { s.life with brownFlag := true } }
  else .next s

/-- BROWN_OUT_RELEASE: the self-release takes the place of the rising edge, or waits for it (R964). -/
def execBrownOutRelease (straps : Straps) (s : State) : Out :=
  if s.life.phase == .brownOut then
    .next (if s.life.pins.resetN then beginStart s straps else { s with life := { s.life with phase := .releasedLow } })
  else .next s

/-- VDDA_18_BELOW_1V: the brown-out flag and the trip latch are lost (R108, R904). -/
def execVdda18Below1v (s : State) : Out :=
  .next { s with life := { s.life with brownFlag := false, pins := { s.life.pins with thermTrip := false } } }

/-- THERMTRIP: a trip comparator latches THERMTRIP_N, with no other effect (R904). -/
def execThermtrip (s : State) : Out :=
  .next { s with life := { s.life with pins := { s.life.pins with thermTrip := true } } }

/-! Steps 3 to 9 -/

/-- START_STATUS of the first check that fails (Table 03-7). -/
def failedCheck (c : StartChecks) : Option Nat :=
  if !c.romOk then some 0x02 else if !c.lockstepOk then some 0x03 else if !c.alarmOk then some 0x04
  else if !c.delayOk then some 0x05 else if !c.vatOk then some 0x06 else none

/-- The lockstep pair after step 5: cleared (R863), with the first self-test passed; the time of its alarm is a free
value below the 20 us of R831. -/
def freshLockstep (s : State) : Lockstep :=
  { selfPass := 1, lastAlarm := Config.freeNat s.free % 20000, heartbeat := s.stamp, selfLast := some s.stamp }

/-- The 16 Vat bank groups on and every other domain off (Table 03-8 step 7). -/
def bootDomains (t : Stamp) : List Domain :=
  (List.range 72).map fun d => if 48 ≤ d && d < 64 then { st := .on, changedAt := t } else { changedAt := t }

/-- The fabric after step 7 (R417, R446). -/
def freshFabric (t : Stamp) : Fabric :=
  { routes := romRoutes, parts := List.replicate 16 { windowStart := t / 100000 * 100000 }, parityWindow := t / 1000000000 }

/-- The default port shares (Table 04-9). -/
def defaultShares (s : State) : PortShares :=
  if s.life.straps.portbEn then
    { contexts := 1536, parts := 0x0FFF#16, chans := 0x0000FFFFFFFFFFFF#64, segs := 48, quota := 48 }
  else {}

/-- Steps 4 to 7 of Table 03-8 when every check passes, in power-on and in a warm reset alike. -/
def installBoot (s : State) : State :=
  { s with
    lock := freshLockstep s
    free := s.free + 1
    vat := {}
    fabric := freshFabric s.stamp
    power := { domains := bootDomains s.stamp }
    gov := { s.gov with enabledAt := some (s.gov.enabledAt.getD s.stamp) }
    alloc := { portA := defaultShares s } }

/-- METRONOME_LOCK: the counter starts from 0, then steps 4 to 7 run (R95, R128, R862). Start-up halts at it while the crystal
reference is lost (R125). -/
def execMetronomeLock (checks : StartChecks) (s : State) : Out :=
  if s.life.phase == .awaitLock && !s.metro.lost then
    let s1 : State := { s with
      err := {}, metro := { now := 0, running := true }, life := { s.life with lockFailed := false, startStatus := 0 } }
    .next (match failedCheck checks with
      | some code => faultEdge s (fatal s1 code)
      | none =>
        let s1 := installBoot s1
        { s1 with life := { s1.life with phase := .awaitTraining, pins := { s1.life.pins with ddrReset := true } } })
  else .next s

/-- METRONOME_LOCK_TIMEOUT: no lock within 200 us: START_STATUS 0x01, FAULT_N, and lock is retried (Table 03-7). -/
def execMetronomeLockTimeout (s : State) : Out :=
  if s.life.phase == .awaitLock then
    .next (faultEdge s { s with life := { s.life with lockFailed := true, startStatus := 0x01 } })
  else .next s

/-- The mask of channels in service. -/
def channelMask (s : State) : BitVec 16 := if s.life.straps.memHalf then 0x00FF#16 else 0xFFFF#16

/-- LPDDR_TRAIN_FAIL with its channel mask (R333, Table 18-4). -/
def trainFailRec (s : State) : ErrRec :=
  { deviceRec s 0x0003 6 [.d] with loc := { unit := .mordant }, detail := detailOf s.lpddr.trainFail.toNat 0 0 0 }

/-- The channels in service do not agree on a property that training reads from each (R333). -/
def unequal (s : State) (m : BitVec 16) : Bool := m &&& channelMask s != 0#16 && m &&& channelMask s != channelMask s

/-- The channels that training marks as failed: every channel in service where densities or rank counts differ (R333). -/
def trainFailed (s : State) (failed density2g ranks2 : BitVec 16) : BitVec 16 :=
  if unequal s density2g || unequal s ranks2 then channelMask s else failed &&& channelMask s

/-- LPDDR_TRAINING_DONE: training ends and the host ports open (R128, R333, R35, R108). The operands give by channel what failed, has
2 GiB, and has two ranks. -/
def execLpddrTrainingDone (failed density2g ranks2 : BitVec 16) (t : Stamp) (s : State) : Out :=
  let s := s.upTo t
  if s.life.phase == .awaitTraining && timed s then
    let bad := trainFailed s failed density2g ranks2
    let s0 := s
    let s : State := { s with
      lpddr := { s.lpddr with
        density2g := density2g &&& channelMask s == channelMask s, ranks2 := ranks2 &&& channelMask s == channelMask s
        trainFail := bad, inService := bad == 0#16 }
      life := { s.life with
        phase := .opened, startStatus := if bad = 0#16 then 0 else 0x10,
        devCause := if s.life.brownFlag then 1 else 0, brownFlag := false } }
    let s := if bad = 0#16 then s else pushRecord s (trainFailRec s)
    let s := if s.life.straps.adminSel && !s.life.straps.portbEn then
        pushRecord s { deviceRec s 0x0002 0 [.d] with loc := { unit := .mordant } }
      else s
    .next (faultEdge s0 s)
  else .next s

/-! The warm device reset -/

/-- A warm device reset is ordered: it takes over every reset and a Sepia entry, merges with one in progress, and
forfeits every tenant (R119, R124, R133, R844). -/
def startWarm (s : State) (cause : WarmCause) : State :=
  match s.life.warm with
  | some w => { s with life := { s.life with warm := some { w with causes := w.causes ++ [cause] } } }
  | none =>
    let s : State := { s with
      life := { s.life with warm := some { causes := [cause], wasSepia := inSepia s, since := s.stamp } }
      lock := { s.lock with entry := none, waiting := none } }
    startForfeit s [.warm] []

/-- The slots at the end of a warm reset (R120, R235): IDLE, and DONE where the slot carried the order. -/
def warmSlots (s : State) (carried : List SlotId) : State :=
  let s : State := { s with slots := s.slots.map fun e => if e.1 ∈ carried then e else (e.1, slotIdle e.2) }
  carried.foldl (fun s k => slotFinish s k (getSlot s k).seq []) s

/-- The Governor after a warm device reset (Table 02-8). -/
def warmGovernor (g : Gov) : Gov :=
  let f := fun (p : GovParams) =>
    { (({} : GovParams)) with
      pmicEn := p.pmicEn, pmicSid := p.pmicSid, pmicAddr := p.pmicAddr, pmicBytes := p.pmicBytes,
      voutOffset := p.voutOffset, voutStep := p.voutStep, codeMax := p.codeMax }
  { g with
    committed := f g.committed, inForce := f g.inForce, commits := g.commits.map fun c => (c.1, f c.2), got := {}
    held := heldAfter g f true
    page := { g.page with episode := 0 }
    loop := { g.loop with episode := 0, episodeStart := none }
    satHi := false, satLo := false, integClamp := false, sensorStale := false }

/-- What a warm reset clears of every function beyond the tenant reset: grants, limits, suspension, resets in progress
(Table 03-9). -/
def warmFn (f : Fn) : Fn :=
  { f with grant := {}, suspended := false, flr := false, flrForfeited := false, resetting := false, fnCause := 0 }

/-- LPDDR5X after a warm reset (R130, R359): channels that failed training or tracking are retrained. -/
def warmLpddr (s : State) (failed : BitVec 16) : Lpddr :=
  let l := s.lpddr
  let bad := (l.trainFail ||| l.trackFail) &&& failed
  { l with
    trainFail := bad, trackFail := 0#16, inService := bad == 0#16
    poison := if l.ecc then l.poison else []
    ceCounts := [], ueCount := 0, zeroMap := [], badBlocks := [], usedUnits := [], objects := [] }

/-- WARM_RESET_COMPLETE: the restart of steps 4 to 7 and any retraining end (R120, R130, R133, R860). -/
def execWarmResetComplete (checks : StartChecks) (failed : BitVec 16) (t : Stamp) (s : State) : Out :=
  let s := s.upTo t
  match s.life.warm with
  | some w =>
    if !s.forfeits.isEmpty then .next s
    else match failedCheck checks with
      | some code => .next (faultEdge s (fatal { s with lock := { s.lock with sepia := false, sepiaOut := false } } code))
      | none =>
        let s0 := s
        let carried := w.causes.filterMap fun c => match c with
          | .admin k => some k
          | .i3c => none
        let s := installBoot s
        let s : State := { s with
          metro := { s.metro with awaitWarm := s.metro.lost }
          gov := warmGovernor s.gov
          lpddr := warmLpddr s failed
          fns := s.fns.map fun e => (e.1, warmFn e.2)
          cores := {}, madders := {}, gfx := {}, xfer := {}
          err := { s.err with sel := [] }
          i3c := { s.i3c with busy := false } }
        let s : State := { s with life := { s.life with
          warm := none, wasSepia := w.wasSepia
          devCause := match w.causes.head? with
            | some .i3c => 3
            | _ => 2
          startStatus := if s.lpddr.inService then 0 else 0x10 } }
        let s := pushRecord s { deviceRec s 0x0001 0 [.b] with loc := { unit := .mordant } }
        let s := if s.lpddr.inService then s else pushRecord s (trainFailRec s)
        let s := warmSlots s carried
        .next (ibiCause (faultEdge s0 s) 4)
  | none => .next s

/-! The crystal -/

/-- CRYSTAL_LOSS: the Metronome holds, timed actions are suspended, queues stop, FAULT_N (R92, R93); during start-up before the lock,
start-up halts with FAULT_N (R125). -/
def execCrystalLoss (t : Stamp) (s : State) : Out :=
  let s := s.upTo t
  if s.metro.running && !s.metro.lost then
    let s0 := s
    let s : State := { s with
      metro := { s.metro with lost := true, awaitWarm := isOpen s }
      queues := s.queues.map fun e => (e.1, { e.2 with stops := insertOnce e.2.stops .crystal }) }
    let s := pushRecord s { deviceRec s 0x0004 6 [.b] with
      loc := { unit := .mordant }, detail := detailOf s.stamp (s.stamp / 2 ^ 32) 0 0 }
    let s := (s.queues.map Prod.fst).foldl settleQueue s
    .next (faultEdge s0 s)
  else if s.life.phase == .awaitLock && !s.metro.lost then
    .next (faultEdge s { s with metro := { s.metro with lost := true } })
  else .next s

/-- CRYSTAL_RETURN: the count resumes; queues stay stopped until a warm device reset (R94, R125). -/
def execCrystalReturn (s : State) : Out := .next { s with metro := { s.metro with lost := false } }

/-! Sensors -/

/-- The highest valid reading with its sensor, the lowest index on ties (Table 22-6). -/
def tempMax (s : State) : Option (Nat × Nat) :=
  (leastBy (fun e => 0x10000 - e.1) (s.sensors.temp.zipIdx.filterMap fun e => e.1.map fun v => (v, e.2)))

/-- The TEMP cause at a refresh (R934). -/
def tempCause (s : State) : State :=
  match tempMax s with
  | none => s
  | some (v, _) =>
    if s.i3c.tempArmed && v ≥ s.i3c.tempAlert then ibiCause { s with i3c := { s.i3c with tempArmed := false } } 2
    else if v + 8 < s.i3c.tempAlert then { s with i3c := { s.i3c with tempArmed := true } }
    else s

/-- SENSOR_REFRESH: at a multiple of 100,000 ns every sensor refreshes; a failed conversion stays invalid until the next
power-on (R902, R930, Table 21-13). The readings from before it stand for a power estimate of the same stamp (R910). -/
def execSensorRefresh (readings : List (Option Nat)) (t : Stamp) (s : State) : Out :=
  let s := s.upTo t
  if timed s && t % 100000 == 0 && s.stamp == t then
    let failed := (List.range 16).filter fun i => s.sensors.failed.contains i || (readings.getD i none).isNone
    let temp := (List.range 16).map fun i => if failed.contains i then none else readings.getD i none
    .next (tempCause { s with sensors := {
      temp := temp, failed := failed, before := s.sensors.temp, refreshed := some t } })
  else .next s

end Sys2Proof.Machine
end

