-- ==== Sys2Proof/Machine/TraceOps.lean ====
section
/-!
DEFINITION. The Jendon trace stream (R870, R901).
-/

namespace Sys2Proof.Machine

/-- Records that the trace buffer holds (R901). -/
def traceDepth : Nat := 64

/-- DAP_CTRL selects a kind of record, and JTAG_LOCK is intact (R870, R901). -/
def traceOn (s : State) (bit : Nat) : Bool := !s.fuses.jtagLock && s.jtag.dapCtrl.getLsbD bit

/-- A trace record enters the buffer, or is dropped where the buffer is full (R901). -/
def pushTrace (s : State) (kind source : Nat) (payload : Dword) : State :=
  if s.jtag.trace.length ≥ traceDepth then { s with jtag := { s.jtag with lost := true } }
  else
    let r : TraceRec := { kind := kind, lost := s.jtag.lost, source := source % 128, stamp := s.metro.now % 2 ^ 52, payload := payload }
    { s with jtag := { s.jtag with trace := s.jtag.trace ++ [r], lost := false } }

/-- A MARKER packet's record (DAP_CTRL[0]). -/
def traceMarker (s : State) (tenant : Nat) (value : Dword) : State :=
  if traceOn s 0 then pushTrace s 1 tenant value else s

/-- A MARK instruction's record (DAP_CTRL[1]). -/
def traceMark (s : State) (core : Nat) (value : Word) : State :=
  if traceOn s 1 then pushTrace s 2 core (value.zeroExtend 64) else s

/-- A fabric header's record at the router that DAP_CTRL[8:3] names (DAP_CTRL[2]). -/
def traceHeader (s : State) (router : Nat) (header : Dword) : State :=
  if traceOn s 2 && (s.jtag.dapCtrl.toNat / 8 % 64 == router) then pushTrace s 3 router header else s

end Sys2Proof.Machine
end

