-- ==== Sys2Proof/Machine/Queues.lean ====
section
/-!
DEFINITION. Queues, chains, the common packets, waits and semaphores (spec 06).
-/

namespace Sys2Proof.Machine

/-! Doorbells and link words -/

/-- The queue that a doorbell index of a function names (R238). -/
def doorbellQueue (s : State) (fn doorbell : Nat) : Option QueueId :=
  (s.queues.find? fun e => e.1.ctx.tenant == fn && e.2.doorbell == doorbell).map Prod.fst

/-- DB_RING: a doorbell write starts a queue, is latched, or is ignored, and may open a submission (R256, R257, R261, R264,
R292). -/
def execDbRing (fn doorbell : Nat) (t : Stamp) (s : State) : Out :=
  let s := s.upTo t
  if !barAnswers s fn then .next s
  else match doorbellQueue s fn doorbell with
    | none => .next s
    | some q =>
      match getQueue s q with
      | none => .next s
      | some r =>
        if r.st = .error then .next s
        else
          let s := modQueue (mordantInput s 1) q fun r =>
            { r with wait := r.wait.map fun w => { w with due := true } }
          let s := modQueue s q fun r =>
            if r.deadline ≠ 0 && r.sub.isNone then { r with latched := true, sub := some (s.stamp + r.deadline), subMissed := false, missed := false }
            else { r with latched := true }
          .next (settleQueue s q)

/-- A consistent link word is followed: LINK to its segment, END parks, any other TYPE is a bad link (R249, R255). -/
def followLink (s : State) (q : QueueId) (va word : Nat) : State :=
  let nextVa := bitsNat word 79 38 * 64
  let len := bitsNat word 89 80
  match bitsNat word 33 32 with
  | 1 =>
    settleQueue (modQueue s q fun r =>
      { r with
        torn := 0, lastEnd := some false, qPos := nextVa, st := .running
        chain := if len = 0 then .linkRead nextVa else .segment nextVa (nextVa + 64 * len) }) q
  | 2 =>
    settleQueue (modQueue s q fun r =>
      { r with torn := 0, lastEnd := some true, chain := .atEnd va, qPos := va, park := s.stamp, parkPoll := r.tailPoll, polls := 0 }) q
  | _ => chainError s q 0x0201 va 0#32

/-- A torn link word is counted (R259). -/
def tornLink (s : State) (q : QueueId) : State :=
  settleQueue (modQueue s q fun r => { r with torn := r.torn + 1, lastEnd := some (r.lastEnd.getD false) }) q

/-- LINK_WORD_ARRIVE: the read of a link word is issued, and when it has returned the queue acts on it; a torn word is counted and read
again (R249, R250, R255, R259, R293). DESIGN CHOICE, safe: log 12. -/
def execLinkWordArrive (q : QueueId) (t : Stamp) (s : State) : Out :=
  let s := s.upTo t
  match getQueue s q with
  | none => .next s
  | some r =>
    match r.chain with
    | .linkRead va =>
      if !queueServed s q r || r.torn ≥ 9 then .next s
      else match engineRead s (queueEngine s q) .load va 16 with
        | .wait s => .next s
        | .fault e _ => .next (chainFault s q va (some e))
        | .ready bs =>
          match cleanBytes bs with
          | none => .next (chainFault s q va none)
          | some bs =>
            let s := useReads s (.queue q)
            let w := leNat bs
            if bitsNat w 31 0 ≠ bitsNat w 127 96 then .next (tornLink s q)
            else .next (followLink s q va w)
    | _ => .next s

/-- TAIL_POLL: a PARKED queue re-reads its link word at each TAIL_POLL from its park (R258, R285). -/
def execTailPoll (q : QueueId) (t : Stamp) (s : State) : Out :=
  let s := s.upTo t
  match getQueue s q with
  | none => .next s
  | some r =>
    match r.chain with
    | .atEnd va =>
      if timed s && queueServed s q r && r.st = .parked && s.stamp ≥ r.park + (r.polls + 1) * r.parkPoll * 1000 then
        .next (modQueue s q fun r => { r with chain := .linkRead va, polls := r.polls + 1 })
      else .next s
    | _ => .next s

/-- CHAIN_TORN: the ninth consecutive torn read of one link word (R259). -/
def execChainTorn (q : QueueId) (t : Stamp) (s : State) : Out :=
  let s := s.upTo t
  match getQueue s q with
  | none => .next s
  | some r =>
    match r.chain with
    | .linkRead va => .next (if queueServed s q r && r.torn ≥ 9 then chainError s q 0x0200 va 0#32 else s)
    | _ => .next s

/-- DEADLINE_MISS: a submission is still open at the first value at or after its deadline (R266). -/
def execDeadlineMiss (q : QueueId) (t : Stamp) (s : State) : Out :=
  let s := s.upTo t
  match getQueue s q with
  | none => .next s
  | some r =>
    match r.sub with
    | some d => .next (if timed s && !r.subMissed && s.stamp ≥ d then declareMiss s q else s)
    | none => .next s

/-! NOP, MARKER and bad packets -/

/-- NOP_PACKET (0x00): completes at once. -/
def execNopPacket (q : QueueId) (t : Stamp) (s : State) : Out :=
  .next (packetRow (s.upTo t) q 0 anyBytes anyTime fun s p _ => completePkt s q p.num)

/-- MARKER (0x05): VALUE enters the trace stream. -/
def execMarker (q : QueueId) (t : Stamp) (s : State) : Out :=
  .next (packetRow (s.upTo t) q 5 anyBytes anyTime fun s p bs =>
    completePkt (traceMarker s q.ctx.tenant (BitVec.ofNat 64 (fieldAt bs 8 8))) q p.num)

/-- BAD_PACKET: a reserved type, one that the kind does not accept, one that crosses its link word, or a wrong EXT raises
CHAIN_BAD_PACKET (R241, R242, R293). -/
def execBadPacket (q : QueueId) (t : Stamp) (s : State) : Out :=
  let s := s.upTo t
  match getQueue s q with
  | none => .next s
  | some r =>
    if !queueServed s q r || r.wait.isSome then .next s
    else match packetAt s q with
      | .packet va endVa h _ =>
        .next (if isBadPacket s r va endVa h then chainError (useReads s (.queue q)) q 0x0202 va h.tag else s)
      | .waiting s => .next s
      | .failed va e => .next (chainFault s q va e)
      | .nothing => .next s

/-! FENCE -/

/-- FENCE_WRITE (0x01, OP 0): VALUE is written at the word's home (R243, R244). -/
def execFenceWrite (q : QueueId) (t : Stamp) (s : State) : Out := .next (signalRow (s.upTo t) q 1 (fenceOp · == 0) .write)

/-- FENCE_STAMP (0x01, OP 3): the stamp at the queue engine's NI is written (R243). -/
def execFenceStamp (q : QueueId) (t : Stamp) (s : State) : Out := .next (signalRow (s.upTo t) q 1 (fenceOp · == 3) .stamp)

/-- FENCE_ADD (0x01, OP 1): VALUE is added at the word's home, in host memory by one FetchAdd, or by a read and a write
without AtomicOp (R243, R277, R278). -/
def execFenceAdd (q : QueueId) (t : Stamp) (s : State) : Out := .next (signalRow (s.upTo t) q 1 (fenceOp · == 1) .add)

/-- FENCE_MAX (0x01, OP 2): the word is raised to VALUE, in host memory by compare-and-swaps, or by a read and a write
without AtomicOp (R243, R277, R278). -/
def execFenceMax (q : QueueId) (t : Stamp) (s : State) : Out := .next (signalRow (s.upTo t) q 1 (fenceOp · == 2) .max)

/-- SEM_RELEASE (0x04): frees a semaphore that the context holds and adds 1 to VALUE, by one compare-and-swap (R272, R276,
R294). -/
def execSemRelease (q : QueueId) (t : Stamp) (s : State) : Out := .next (signalRow (s.upTo t) q 4 anyBytes .release)

/-! WAIT and SEM_ACQUIRE -/

/-- WAIT (0x02): later packets wait for the word (R245). -/
def execWait (q : QueueId) (t : Stamp) (s : State) : Out :=
  .next (packetRow (s.upTo t) q 2 anyBytes anyTime fun s p bs =>
    if waitBad (vaAt bs 8) bs then badField s q p else startWait s q p bs (vaAt bs 8) false)

/-- SEM_ACQUIRE (0x03): takes a semaphore once it is free (R271, R273, R276). -/
def execSemAcquire (q : QueueId) (t : Stamp) (s : State) : Out :=
  .next (packetRow (s.upTo t) q 3 anyBytes anyTime fun s p bs =>
    let va := fieldAt bs 8 8
    if waitBad va bs then badField s q p
    else if semsHeld s q.ctx ≥ 16 then wordError s q p.num 0x0214 va
    else if noAtomic s q.ctx va then wordError s q p.num 0x0215 va
    else startWait s q p bs va true)

/-- WAIT_REEVALUATE: on an occasion of R246 a WAIT or SEM_ACQUIRE reads its word, and tests it once the read has returned (R246, R247,
R271, R773). -/
def execWaitReevaluate (q : QueueId) (t : Stamp) (s : State) : Out :=
  let s := s.upTo t
  match getQueue s q with
  | none => .next s
  | some r =>
    match r.wait with
    | some w => .next (if waitServed s q then stepWait s q r w else s)
    | none => .next s

/-- WAIT_TIMEOUT: a WAIT or SEM_ACQUIRE is not satisfied by its timeout (R247). -/
def execWaitTimeout (q : QueueId) (t : Stamp) (s : State) : Out :=
  let s := s.upTo t
  match getQueue s q with
  | none => .next s
  | some r =>
    match r.wait with
    | some w => .next (if timed s && waitServed s q && !inTime s w then wordError s q w.pkt 0x0210 w.addr else s)
    | none => .next s

end Sys2Proof.Machine
end

