-- ==== Sys2Proof/Machine/FloatAlu.lean ====
section
/-!
DEFINITION. Floating-point arithmetic, conversion and block instructions of the shader core (Table 11-4, 0x20 to 0x3D,
R515 to R524).
-/

namespace Sys2Proof.Machine

/-- An integer immediate as a value of a format, exactly (R507); where the format cannot hold it the spec states no value
and the result is free. -/
def immValue (fmt : Nat) (x : Word) (free : Word) : FVal :=
  let v := ofInt x.toInt
  let r := fdecode (fmtOf fmt) (narrow (fmtOf fmt) 0 {} v).code
  if fcompare r v = some 0 then v else fdecode (fmtOf fmt) free.toNat

/-- An FP32 source of a lane before modifiers. -/
def srcF (g : Group) (w : IWord) (kind field lane fr : Nat) : FVal :=
  if kind = 3 then immValue 0 (immOf w field) (Config.freeWord (fr + 32)) else f32 (src g w kind field lane)

/-- ABS and then NEG (Table 11-3). -/
def modify (v : FVal) (abs neg : Bool) : FVal :=
  let v := if abs then v.abs else v
  if neg then v.neg else v

/-- Source A with its modifiers, MOD[3] and MOD[0]. -/
def fA (g : Group) (w : IWord) (l fr : Nat) : FVal := modify (srcF g w w.ak w.a l fr) (bitNat w.mod 3) (bitNat w.mod 0)
/-- Source B with its modifiers, MOD[4] and MOD[1]. -/
def fB (g : Group) (w : IWord) (l fr : Nat) : FVal := modify (srcF g w w.bk w.b l fr) (bitNat w.mod 4) (bitNat w.mod 1)
/-- Source C with its modifier, MOD[2]. -/
def fC (g : Group) (w : IWord) (l fr : Nat) : FVal := modify (srcF g w w.ck w.c l fr) false (bitNat w.mod 2)

/-- An FP32 result rounded once, with SAT (Table 11-3, R515). -/
def roundF (w : IWord) (v : FVal) : Word :=
  let r := toF32 w.aux v
  if bitNat w.mod 5 then toF32 0 (saturate (f32 r)) else r

/-- A row of FP32 arithmetic. -/
def fpRow (slot : Nat) (w : Insn) (t : Stamp) (s : State) (op : Nat) (f : IWord → FVal → FVal → FVal → FVal) : Out :=
  groupRow slot w t s op fun g iw lanes fr => writeResult g iw lanes fun l =>
    roundF iw (f iw (fA g iw l fr) (fB g iw l fr) (fC g iw l fr))

/-- The mode toward -inf, in which an exact zero sum is -0. -/
def downMode (w : IWord) : Bool := w.aux == 2

/-- FADD (0x20). -/
def execFadd (slot : Nat) (w : Insn) (t : Stamp) (s : State) : Out :=
  fpRow slot w t s 0x20 fun iw a b _ => faddExact (downMode iw) a b

/-- FMUL (0x21). -/
def execFmul (slot : Nat) (w : Insn) (t : Stamp) (s : State) : Out := fpRow slot w t s 0x21 fun _ a b _ => fmulExact a b

/-- FFMA (0x22): rounded once. -/
def execFfma (slot : Nat) (w : Insn) (t : Stamp) (s : State) : Out :=
  fpRow slot w t s 0x22 fun iw a b c => faddExact (downMode iw) (fmulExact a b) c

/-- FMIN (0x23): minimumNumber. -/
def execFmin (slot : Nat) (w : Insn) (t : Stamp) (s : State) : Out := fpRow slot w t s 0x23 fun _ a b _ => fminNum a b

/-- FMAX (0x24): maximumNumber. -/
def execFmax (slot : Nat) (w : Insn) (t : Stamp) (s : State) : Out := fpRow slot w t s 0x24 fun _ a b _ => fmaxNum a b

/-- FCMP (0x25). -/
def execFcmp (slot : Nat) (w : Insn) (t : Stamp) (s : State) : Out :=
  groupRow slot w t s 0x25 fun g iw lanes fr => writeCond g iw lanes fun l =>
    compareCode (iw.mod % 8) (fcompare (modify (srcF g iw iw.ak iw.a l fr) (bitNat iw.mod 4) false)
      (modify (srcF g iw iw.bk iw.b l fr) (bitNat iw.mod 5) false))

/-- A row of the special-function unit: a function of the value and a free result (R516). -/
def sfuRow (slot : Nat) (w : Insn) (t : Stamp) (s : State) (op : Nat) (f : FVal → Word → Word) : Out :=
  groupRow slot w t s op fun g iw lanes fr => writeResult g iw lanes fun l => f (fA g iw l fr) (Config.freeWord (fr + l))

/-- FRCP (0x26). -/
def execFrcp (slot : Nat) (w : Insn) (t : Stamp) (s : State) : Out := sfuRow slot w t s 0x26 frcp

/-- FRSQ (0x27). -/
def execFrsq (slot : Nat) (w : Insn) (t : Stamp) (s : State) : Out := sfuRow slot w t s 0x27 frsq

/-- FSQRT (0x28). -/
def execFsqrt (slot : Nat) (w : Insn) (t : Stamp) (s : State) : Out := sfuRow slot w t s 0x28 fsqrt

/-- FEXP2 (0x29). -/
def execFexp2 (slot : Nat) (w : Insn) (t : Stamp) (s : State) : Out := sfuRow slot w t s 0x29 fexp2

/-- FLOG2 (0x2A). -/
def execFlog2 (slot : Nat) (w : Insn) (t : Stamp) (s : State) : Out := sfuRow slot w t s 0x2A flog2

/-- FSIN (0x2B): sin 2πa. -/
def execFsin (slot : Nat) (w : Insn) (t : Stamp) (s : State) : Out := sfuRow slot w t s 0x2B fun a f => fsincos a 0 f

/-- FCOS (0x2C): cos 2πa. -/
def execFcos (slot : Nat) (w : Insn) (t : Stamp) (s : State) : Out := sfuRow slot w t s 0x2C fun a f => fsincos a (2 ^ 78) f

/-- FFRACT (0x2D): a - floor(a). -/
def execFfract (slot : Nat) (w : Insn) (t : Stamp) (s : State) : Out :=
  sfuRow slot w t s 0x2D fun a _ => toF32 0 (faddExact false a (floorVal a).neg)

/-- FRND (0x2E): rounded to an integral value under AUX. -/
def execFrnd (slot : Nat) (w : Insn) (t : Stamp) (s : State) : Out :=
  groupRow slot w t s 0x2E fun g iw lanes fr => writeResult g iw lanes fun l =>
    let r := toF32 0 (roundIntegral iw.aux (fA g iw l fr))
    if bitNat iw.mod 5 then toF32 0 (saturate (f32 r)) else r

/-! FP16 pairs -/

/-- A half of an FP16×2 source (R517). -/
def srcH (g : Group) (w : IWord) (kind field lane fr : Nat) (hi : Bool) : FVal :=
  if kind = 3 then immValue 1 (immOf w field) (Config.freeWord (fr + 32))
  else f16 ((src g w kind field lane).toNat / (if hi then 65536 else 1) % 65536)

/-- One half of an FP16×2 result. -/
def halfResult (f : IWord → FVal → FVal → FVal → FVal) (g : Group) (w : IWord) (l fr : Nat) (hi : Bool) : Nat :=
  let a := modify (srcH g w w.ak w.a l fr hi) (bitNat w.mod 3) (bitNat w.mod 0)
  let b := modify (srcH g w w.bk w.b l fr hi) (bitNat w.mod 4) (bitNat w.mod 1)
  let c := modify (srcH g w w.ck w.c l fr hi) false (bitNat w.mod 2)
  let r := toF16 w.aux (f w a b c)
  if bitNat w.mod 5 then toF16 0 (saturate (f16 r)) else r

/-- A row of FP16×2 arithmetic. -/
def halfRow (slot : Nat) (w : Insn) (t : Stamp) (s : State) (op : Nat) (f : IWord → FVal → FVal → FVal → FVal) : Out :=
  groupRow slot w t s op fun g iw lanes fr => writeResult g iw lanes fun l =>
    BitVec.ofNat 32 (halfResult f g iw l fr false + 65536 * halfResult f g iw l fr true)

/-- HADD2 (0x30). -/
def execHadd2 (slot : Nat) (w : Insn) (t : Stamp) (s : State) : Out :=
  halfRow slot w t s 0x30 fun iw a b _ => faddExact (downMode iw) a b

/-- HMUL2 (0x31). -/
def execHmul2 (slot : Nat) (w : Insn) (t : Stamp) (s : State) : Out := halfRow slot w t s 0x31 fun _ a b _ => fmulExact a b

/-- HFMA2 (0x32). -/
def execHfma2 (slot : Nat) (w : Insn) (t : Stamp) (s : State) : Out :=
  halfRow slot w t s 0x32 fun iw a b c => faddExact (downMode iw) (fmulExact a b) c

/-- HMIN2 (0x33). -/
def execHmin2 (slot : Nat) (w : Insn) (t : Stamp) (s : State) : Out := halfRow slot w t s 0x33 fun _ a b _ => fminNum a b

/-- HMAX2 (0x34). -/
def execHmax2 (slot : Nat) (w : Insn) (t : Stamp) (s : State) : Out := halfRow slot w t s 0x34 fun _ a b _ => fmaxNum a b

/-- HCMP2 (0x35): p[D] from the low halves, p[D + 1] from the high halves. -/
def execHcmp2 (slot : Nat) (w : Insn) (t : Stamp) (s : State) : Out :=
  groupRow slot w t s 0x35 fun g iw lanes fr =>
    let cmp := fun hi l => compareCode (iw.mod % 8)
      (fcompare (modify (srcH g iw iw.ak iw.a l fr hi) (bitNat iw.mod 4) false)
        (modify (srcH g iw iw.bk iw.b l fr hi) (bitNat iw.mod 5) false))
    lanes.foldl (fun g' l => setPreg (setPreg g' iw.d l (cmp false l)) (iw.d + 1) l (cmp true l)) g

/-! Conversions -/

/-- The code of a source of a float format: an immediate is an integer converted to it (R507). -/
def srcCode (g : Group) (w : IWord) (fmt lane fr : Nat) : Nat :=
  if w.ak = 3 then (narrow (fmtOf fmt) 0 {} (immValue fmt (immOf w w.a) (Config.freeWord (fr + 32)))).code
  else (srcA g w lane).toNat

/-- A row of a conversion that counts (R607, R611): per lane the code and what it adds, with a draw for SR (R521). -/
def convRow (slot : Nat) (w : Insn) (t : Stamp) (s : State) (op : Nat) (draws : IWord → Bool)
    (f : Group → IWord → Nat → Nat → Nat × NumEvent) : Out :=
  groupRow slot w t s op fun g iw lanes fr =>
    let n := lanes.foldl (fun n l =>
      let n := Numeric.note n (f g iw l fr).2
      if draws iw then n.advance l else n) g.num
    { writeResult g iw lanes (fun l => BitVec.ofNat 32 (f g iw l fr).1) with num := n }

/-- CVTF (0x38): between float formats (R520, R596, R597). -/
def execCvtf (slot : Nat) (w : Insn) (t : Stamp) (s : State) : Out :=
  convRow slot w t s 0x38 (fun iw => iw.aux == 5) fun g iw l fr =>
    let dst := iw.mod % 8
    let from_ := iw.mod / 8
    convertFloat dst from_ iw.aux (laneRnd g.num l dst) (srcCode g iw from_ l fr)

/-- CVTFI (0x39): float to integer, saturating, NaN to 0 (R522, R598). -/
def execCvtfi (slot : Nat) (w : Insn) (t : Stamp) (s : State) : Out :=
  groupRow slot w t s 0x39 fun g iw lanes fr => writeResult g iw lanes fun l =>
    BitVec.ofNat 32 (toInt (iw.mod / 8) iw.aux (fdecode (fmtOf (iw.mod % 8)) (srcCode g iw (iw.mod % 8) l fr)))

/-- CVTIF (0x3A): integer to float (R598). -/
def execCvtif (slot : Nat) (w : Insn) (t : Stamp) (s : State) : Out :=
  convRow slot w t s 0x3A (fun iw => iw.aux == 5) fun g iw l _ =>
    convertInt (iw.mod % 8) (iw.mod / 8) iw.aux (laneRnd g.num l (iw.mod % 8)) (srcA g iw l).toNat

/-- BSCALE (0x3B): the scale code and escape descriptor of the block that the executing lanes form (R523, R605). -/
def execBscale (slot : Nat) (w : Insn) (t : Stamp) (s : State) : Out :=
  groupRow slot w t s 0x3B fun g iw lanes fr =>
    let xs := (List.range 32).map fun l => if lanes.contains l then srcF g iw iw.ak iw.a l fr else .fin false 0 0
    let gap := (srcB g iw 0).toNat
    let r := encodeScale xs (iw.mod % 8) (bitNat iw.mod 3) (if 1 ≤ gap && gap ≤ 32 then gap else 8)
    let n := { g.num with
      flags := r.flags.foldl (fun acc f => orFlag acc f true) g.num.flags
      escapes := satAdd 32 g.num.escapes r.escapes }
    { setSreg (setSreg g iw.d (BitVec.ofNat 32 r.code)) (iw.d + 1) (BitVec.ofNat 32 r.desc) with num := n }

/-- BQUANT (0x3C): the element code of a under scale b and escape c (R524, R606). -/
def execBquant (slot : Nat) (w : Insn) (t : Stamp) (s : State) : Out :=
  convRow slot w t s 0x3C (fun iw => iw.aux == 5) fun g iw l fr =>
    let code := iw.mod % 8
    quantise code iw.aux (laneRnd g.num l code) ((srcB g iw l).toNat % 256) (srcC g iw l).toNat l (srcF g iw iw.ak iw.a l fr)

/-- BDEQ (0x3D): the FP32 value of element code a under scale b and escape c (R524, R608). -/
def execBdeq (slot : Nat) (w : Insn) (t : Stamp) (s : State) : Out :=
  groupRow slot w t s 0x3D fun g iw lanes _ => writeResult g iw lanes fun l =>
    toF32 0 (dequantise (fdecode (fmtOf (iw.mod % 8)) (srcA g iw l).toNat) ((srcB g iw l).toNat % 256) (srcC g iw l).toNat l)

/-! Cross-lane instructions -/

/-- The lane that SHFL reads (R525): none where it lies outside 0 to 31. -/
def shuffleLane (mode lane : Nat) (b : Word) : Option Nat :=
  match mode with
  | 0 => some (b.toNat % 32)
  | 1 => if b.toNat ≤ lane then some (lane - b.toNat) else none
  | 2 => if lane + b.toNat < 32 then some (lane + b.toNat) else none
  | _ => some (lane ^^^ (b.toNat % 32))

/-- SHFL (0x40): a of another lane; its own a where that lane is outside or not active (R525). -/
def execShfl (slot : Nat) (w : Insn) (t : Stamp) (s : State) : Out :=
  issue slot w t s (· == 0x40) fun s slot g iw pc active _ =>
    let lanes := if iw.scalarForm then [0] else lanesOf (runMask g iw active)
    let pick := fun l => match shuffleLane (iw.mod % 4) l (srcB g iw l) with
      | some k => if active.getLsbD k then srcA g iw k else srcA g iw l
      | none => srcA g iw l
    putGroup s slot (advance (writeResult g iw lanes pick) iw pc active)

/-- READLANE (0x41): a of lane b & 31, 0 where it is inactive (R525). -/
def execReadlane (slot : Nat) (w : Insn) (t : Stamp) (s : State) : Out :=
  issue slot w t s (· == 0x41) fun s slot g iw pc active _ =>
    let k := shiftCount (srcB g iw 0)
    putGroup s slot (advance (setSreg g iw.d (if active.getLsbD k then srcA g iw k else 0#32)) iw pc active)

/-- BALLOT (0x42): the executing lanes with c true. -/
def execBallot (slot : Nat) (w : Insn) (t : Stamp) (s : State) : Out :=
  groupRow slot w t s 0x42 fun g iw lanes _ => setSreg g iw.d (maskOf (lanes.filter fun l => preg g iw.c l))

/-- The identity of a reduction (R526). -/
def reduceIdentity (op : Nat) : Word :=
  match op with
  | 1 => 0xFFFFFFFF#32
  | 3 => 0x7FFFFFFF#32
  | 4 => 0x80000000#32
  | 5 => 0xFFFFFFFF#32
  | 9 => 0x7F800000#32
  | 10 => 0xFF800000#32
  | _ => 0#32

/-- One step of a reduction (R526, Table 11-3). -/
def reduceStep (op : Nat) (x y : Word) : Word :=
  match op with
  | 0 => x + y
  | 1 => intMin false x y
  | 2 => intMax false x y
  | 3 => intMin true x y
  | 4 => intMax true x y
  | 5 => x &&& y
  | 6 => x ||| y
  | 7 => x ^^^ y
  | 8 => toF32 0 (faddExact false (f32 x) (f32 y))
  | 9 => toF32 0 (fminNum (f32 x) (f32 y))
  | _ => toF32 0 (fmaxNum (f32 x) (f32 y))

/-- The reduction of the executing lanes in ascending order; the identity with none (R526). -/
def reduceList (op : Nat) : List Word → Word
  | [] => reduceIdentity op
  | x :: xs => xs.foldl (reduceStep op) x

/-- REDUCE (0x43). -/
def execReduce (slot : Nat) (w : Insn) (t : Stamp) (s : State) : Out :=
  groupRow slot w t s 0x43 fun g iw lanes fr =>
    let op := iw.mod % 16
    let get := fun l => if iw.ak = 3 && 8 ≤ op then toF32 0 (srcF g iw 3 iw.a l fr) else srcA g iw l
    let r := reduceList op (lanes.map get)
    setSreg g iw.d (if 8 ≤ op then toF32 0 (f32 r) else r)

end Sys2Proof.Machine
end

