-- ==== Sys2Proof/Machine/ShaderMem.lean ====
section
/-!
DEFINITION. Memory, atomic, fence and barrier instructions of the shader core, and the return of loads (Table 11-8a, R471 to
R484, R495 to R497, R528 to R531).
-/

namespace Sys2Proof.Machine

/-! Addresses and data -/

/-- The VA of a lane of a global access: 64-bit base plus sign-extended offset, modulo 2^64 (R528). -/
def globalVa (g : Group) (w : IWord) (lane : Nat) : Nat :=
  (src64 g w w.ak w.a lane + (srcB g w lane).signExtend 64).toNat

/-- The offset of a lane of a local or private access, modulo 2^32 (R528). -/
def localOff (g : Group) (w : IWord) (lane : Nat) : Nat := (srcA g w lane + srcB g w lane).toNat

/-- The VA of a private offset of a lane (Table 10-3). DESIGN CHOICE, safe: log 22. -/
def privateVa (g : Group) (lane off : Nat) : Nat := g.privVa + (32 * g.homeSlot + lane) * g.privBytes + off

/-- The bytes of a lane's store data: the low `n` bytes of one, two or four registers (R506, R529). -/
def storeData (g : Group) (w : IWord) (n lane : Nat) : List Byte :=
  ((List.range ((n + 3) / 4)).flatMap fun k => leBytes 4 (src g w w.ck (w.c + k) lane).toNat).take n

/-- The registers that loaded bytes fill: zero- or sign-extended below 32 bits (R529). -/
def loadWords (width : Nat) (bs : List Byte) : List Word :=
  match width with
  | 1 => [((BitVec.ofNat 8 (leNat bs)).signExtend 32)]
  | 3 => [((BitVec.ofNat 16 (leNat bs)).signExtend 32)]
  | 5 => [BitVec.ofNat 32 (fieldAt bs 0 4), BitVec.ofNat 32 (fieldAt bs 4 4)]
  | 6 => (List.range 4).map fun k => BitVec.ofNat 32 (fieldAt bs (4 * k) 4)
  | _ => [BitVec.ofNat 32 (leNat bs)]

/-- Registers written from a lane's loaded words. -/
def putWords (g : Group) (scalar : Bool) (reg lane : Nat) (ws : List Word) : Group :=
  ws.zipIdx.foldl (fun g e => if scalar then setSreg g (reg + e.2) e.1 else setVreg g (reg + e.2) lane e.1) g

/-! Global accesses -/

/-- What is wrong with a global access of lanes: the code and the address of the first lane concerned (Table 10-6). -/
def laneFault (s : State) (c : CtxId) (need : AccessNeed) (width : Nat) (lanes : List (Nat × Nat)) : Option (Nat × Nat) :=
  match lanes.find? fun e => e.2 % width != 0 with
  | some e => some (0x0501, e.2)
  | none => (lanes.filterMap fun e => match translate s c e.2 need with
      | .error x => some (x.code, e.2)
      | .ok _ => none).head?

/-- The home and sharing of a line that an address of a lane lies in. -/
def lineTarget (s : State) (c : CtxId) (need : AccessNeed) (line : Nat) (lanes : List (Nat × Nat)) : Option (Home × Bool) :=
  match lanes.find? fun e => e.2 / 128 * 128 = line with
  | some e => match translate s c e.2 need with
    | .ok (h, l) => some (lineHome h e.2, leafShared l)
    | .error _ => none
  | none => none

/-- The requests of one instruction: for each line in turn the accesses that `mk` makes of its lanes (R471).
DESIGN CHOICE, safe: log 14. -/
def requests (s : State) (g : Group) (client : Client) (need : AccessNeed) (width : Nat) (lanes : List (Nat × Nat))
    (mk : Home → Nat → List (Nat × Nat) → List AccKind) : List Access :=
  (linesOf (lanes.map Prod.snd)).flatMap fun line =>
    match lineTarget s g.ctx need line lanes with
    | none => []
    | some (h, shared) =>
      let mine := lanes.filter fun e => e.2 / 128 * 128 = line
      (mk h line mine).map fun k =>
        lineAccess s client (coreNi g.core) g.ctx (queuePrio s g.queue) line h shared
          (lineSecs line width (mine.map Prod.snd)) k

/-- A pending load or atomic and a new access share a byte of one thread; a scalar load is every thread's. -/
def sharesByte (l : LoadRec) (scalar : Bool) (width : Nat) (lanes : List (Nat × Nat)) : Bool :=
  let all := scalar || l.kind == .load 4 true || l.kind == .load 5 true || l.kind == .load 6 true
  l.lanes.any fun x => lanes.any fun y =>
    (all || x.1 == y.1) && decide (x.2 < y.2 + width) && decide (y.2 < x.2 + loadBytes l.kind)

/-- The requests of a group that take effect before a new one of lanes in a line (R476); its stores hold the new one at the
core (R473). -/
def earlierOf (s : State) (slot : Nat) (g : Group) (scalar : Bool) (width line : Nat) (lanes : List (Nat × Nat)) : List Nat :=
  let mine := lanes.filter fun e => e.2 / 128 * 128 = line
  (s.traffic.accesses.filter fun e => match e.2.client with
    | .groupLoad k num => k == slot && e.2.va == line && g.loads.any fun l => l.num == num && sharesByte l scalar width mine
    | _ => false).map Prod.fst

/-- The requests of an instruction, each after the earlier accesses of its threads to its bytes (R476), and an AtomicOp after
those of lower lanes to its word (R483): `first` is the number of the first. DESIGN CHOICE, safe: log 19. -/
def orderedAfter (first : Nat) (earlier : Nat → List Nat) (rs : List Access) : List Access :=
  rs.zipIdx.map fun e =>
    let lower := match e.1.kind with
      | .atomic _ _ [x] => (rs.zipIdx.filter fun b => b.2 < e.2 && b.1.va == e.1.va && (match b.1.kind with
          | .atomic _ _ [y] => y.1 == x.1
          | _ => false)).map fun b => first + b.2
      | _ => []
    { e.1 with after := earlier e.1.va ++ lower }

/-- Requests of a faulting store or atomic that were sent before the fault was detected: which ones is open (R495). -/
def sentBefore (s : State) (rs : List Access) (fr : Nat) : State :=
  rs.zipIdx.foldl (fun s e =>
    if bitNat (Config.freeNat fr) e.2 && e.1.kind.isWrite then let r := admitted s e.1; addAccess r.1 r.2 else s) s

/-- A global access of the lanes of an instruction (R466, R471 to R473, R495): it waits while a fence, an acquire or a store
to one of its sectors holds it; a fault kills; otherwise its requests enter the fabric and `done` gives the group after. -/
def globalAccess (s : State) (slot : Nat) (g : Group) (w : Insn) (pc : Nat) (active : Word) (fr : Nat) (client : Client)
    (need : AccessNeed) (width : Nat) (lanes : List (Nat × Nat)) (mk : Home → Nat → List (Nat × Nat) → List AccKind)
    (after : Group → Group) : State :=
  if lanes.isEmpty then putGroup s slot (after g)
  else if !mayAccess s slot g then s
  else
    let rs := orderedAfter s.traffic.nextAccess (earlierOf s slot g ((iword w).op == 0x52) width · lanes)
      (requests s g client need width lanes mk)
    match laneFault s g.ctx need width lanes with
    | some (code, va) =>
      groupFault (if need = .load then s else sentBefore s (requests s g client need width lanes mk) fr) slot g code (.va va) pc active w
    | none =>
      if (linesOf (lanes.map Prod.snd)).any fun l => sectorConflict s slot l (lineSecs l width (lanes.map Prod.snd)) then s
      else
        let g := after { g with fence := none }
        putGroup (rs.foldl enterFabric s) slot g

/-- A load joins the group's pending loads. -/
def addLoad (g : Group) (kind : LoadKind) (reg : Nat) (lanes : List (Nat × Nat)) (pc : Nat) (w : Insn) : Group :=
  { g with
    loads := g.loads ++ [{ num := g.nextLoad, kind := kind, reg := reg, lanes := lanes, pc := pc, base := w.base, ext := w.ext }]
    nextLoad := g.nextLoad + 1 }

/-- A load of lanes at addresses. -/
def loadBody (w : Insn) (scalar : Bool) (addr : Group → IWord → Nat → Nat) : Body := fun s slot g iw pc active fr =>
  let lanes := (if scalar then [0] else lanesOf (runMask g iw active)).map fun l => (l, addr g iw l)
  let width := iw.mod % 8
  globalAccess s slot g w pc active fr (.groupLoad slot g.nextLoad) .load (widthBytes width) lanes (fun _ _ _ => [.read])
    fun g =>
      let g := if lanes.isEmpty then g else addLoad g (.load width scalar) iw.d lanes pc w
      advance g iw pc active

/-- The executing lanes whose global stores and atomics have an effect: not the helpers of a fragment group (R695). -/
def effectLanes (g : Group) (iw : IWord) (active : Word) : List Nat := lanesOf (runMask g iw active &&& ~~~g.helpers)

/-- A store of lanes at addresses; where lanes overlap, the highest one's bytes stay (R488, R543). -/
def storeBody (w : Insn) (mine : Group → IWord → Word → List Nat) (addr : Group → IWord → Nat → Nat) : Body :=
  fun s slot g iw pc active fr =>
  let lanes := (mine g iw active).map fun l => (l, addr g iw l)
  let n := widthBytes (iw.mod % 8)
  globalAccess s slot g w pc active fr (.groupStore slot) .store n lanes
    (fun _ line mine => [.write (mine.flatMap fun e =>
      (storeData g iw n e.1).zipIdx.map fun b => (e.2 - line + b.2, b.1)) false])
    fun g => advance g iw pc active

/-- LD (0x50): a global load. -/
def execLd (slot : Nat) (w : Insn) (t : Stamp) (s : State) : Out := issue slot w t s (· == 0x50) (loadBody w false globalVa)

/-- ST (0x51): a global store of c. -/
def execSt (slot : Nat) (w : Insn) (t : Stamp) (s : State) : Out := issue slot w t s (· == 0x51) (storeBody w effectLanes globalVa)

/-- SLD (0x52): a scalar global load, once for the group (R529). -/
def execSld (slot : Nat) (w : Insn) (t : Stamp) (s : State) : Out := issue slot w t s (· == 0x52) (loadBody w true globalVa)

/-- A private offset at or beyond PRIV_BYTES (Table 10-6), of the first lane concerned. -/
def privateBad (g : Group) (iw : IWord) (active : Word) : Option Nat :=
  ((lanesOf (runMask g iw active)).map fun l => localOff g iw l).find? fun o => o ≥ g.privBytes

/-- A private access: a global access at the lane's private address (Table 10-3, R475). -/
def privateBody (w : Insn) (body : Body) : Body := fun s slot g iw pc active fr =>
  match privateBad g iw active with
  | some o => groupFault s slot g 0x0503 (.priv o) pc active w
  | none => body s slot g iw pc active fr

/-- LDP (0x55): a private load. -/
def execLdp (slot : Nat) (w : Insn) (t : Stamp) (s : State) : Out :=
  issue slot w t s (· == 0x55) (privateBody w (loadBody w false fun g iw l => privateVa g l (localOff g iw l)))

/-- STP (0x56): a private store. -/
def execStp (slot : Nat) (w : Insn) (t : Stamp) (s : State) : Out :=
  issue slot w t s (· == 0x56) (privateBody w (storeBody w (fun g iw active => lanesOf (runMask g iw active)) fun g iw l => privateVa g l (localOff g iw l)))

/-! Local store -/

/-- A workgroup. -/
def getWg (s : State) (wg : Nat) : Option Workgroup := tblGet s.cores.wgs wg

/-- A byte of a workgroup's local store: one not written reads 0 where nothing has used it since the core woke (R110).
DESIGN CHOICE, safe: log 38. -/
def localGet (wg : Nat) (x : Workgroup) (a : Nat) : Byte := tblGetD x.ls a (if x.fresh then 0#8 else Config.localByte wg a)

/-- Bytes of a workgroup's local store. -/
def localBytes (wg : Nat) (x : Workgroup) (a n : Nat) : List Byte := (rangeFrom a n).map (localGet wg x)

/-- Bytes written to a workgroup's local store. -/
def localPut (x : Workgroup) (a : Nat) (bs : List Byte) : Workgroup :=
  { x with ls := bs.zipIdx.foldl (fun l e => tblSet l (a + e.2) e.1) x.ls }

/-- The state with a workgroup replaced. -/
def putWg (s : State) (wg : Nat) (x : Workgroup) : State :=
  { s with cores := { s.cores with wgs := tblModify s.cores.wgs wg fun _ => x } }

/-- A local access: it waits as a later access of its group (Table 10-4, R478); a misaligned one, or one at or beyond the
allocation, kills (Table 10-6, R470). -/
def localAccess (w : Insn) (n : Nat) (addr : Group → IWord → Nat → Nat)
    (f : State → Workgroup → Group → List (Nat × Nat) → Workgroup × Group) : Body := fun s slot g iw pc active _ =>
  let lanes := (lanesOf (runMask g iw active)).map fun l => (l, addr g iw l)
  match getWg s g.wg with
  | none => s
  | some x =>
    if lanes.isEmpty then putGroup s slot (advance g iw pc active)
    else if !mayAccess s slot g then s
    else match lanes.find? fun e => e.2 % n != 0 with
    | some e => groupFault s slot g 0x0501 (.localStore e.2) pc active w
    | none =>
      match lanes.find? fun e => e.2 + n > x.lsBytes with
      | some e => groupFault s slot g 0x0502 (.localStore e.2) pc active w
      | none =>
        let r := f s x { g with fence := none } lanes
        putGroup (putWg s g.wg r.1) slot (advance r.2 iw pc active)

/-- LDL (0x53): a local-store load. -/
def execLdl (slot : Nat) (w : Insn) (t : Stamp) (s : State) : Out :=
  let iw := iword w
  let width := iw.mod % 8
  issue slot w t s (· == 0x53) (localAccess w (widthBytes width) localOff fun _ x g lanes =>
    (x, lanes.foldl (fun g' e => putWords g' false iw.d e.1 (loadWords width (localBytes g.wg x e.2 (widthBytes width)))) g))

/-- STL (0x54): a local-store store; the highest lane's bytes stay (R543). -/
def execStl (slot : Nat) (w : Insn) (t : Stamp) (s : State) : Out :=
  let iw := iword w
  let n := widthBytes (iw.mod % 8)
  issue slot w t s (· == 0x54) (localAccess w n localOff fun _ x g lanes =>
    (lanes.foldl (fun x e => localPut x e.2 (storeData g iw n e.1)) x, g))

/-! Atomics -/

/-- The operands of an atomic of a lane, of its width (R530). -/
def atomOperand (g : Group) (w : IWord) (kind field lane : Nat) : Dword :=
  if bitNat w.aux 2 then src64 g w kind field lane else (src g w kind field lane).zeroExtend 64

/-- The scope of an atomic (Table 11-3). -/
def atomScope (w : IWord) : Nat := w.mod / 16 % 4

/-- The scope that an atomic acts with: SYSTEM is DEVICE where no lane addresses host memory (R530). -/
def atomActs (s : State) (c : CtxId) (w : IWord) (lanes : List (Nat × Nat)) : Nat :=
  let host := lanes.any fun e => match translate s c e.2 .atomic with
    | .ok (h, _) => h.isHost
    | .error _ => false
  if host then atomScope w else min (atomScope w) 2

/-- Release ordering performs a fence of a scope first (R478). -/
def atomReady (s : State) (slot : Nat) (g : Group) (w : IWord) (scope : Nat) : Bool :=
  w.aux / 2 % 2 = 0 || fenceMet s slot g scope

/-- The VA of an atomic of a lane: the base, plus IMM32 with EXT (Table 11-8a). -/
def atomVa (g : Group) (w : IWord) (lane : Nat) : Nat := (src64 g w w.ak w.a lane + w.imm.signExtend 64).toNat

/-- An operation that PCIe AtomicOps have, while the function may use them (R170, R484). -/
def hostAtomicOk (s : State) (op : AtomOp) (h : Home) : Bool :=
  match h with
  | .host _ fn _ => (op == .add || op == .exch || op == .cas) && (getFn s (ctlFn fn)).atomicEn
  | _ => true

/-- A lane whose atomic host memory does not support (R484). -/
def atomHostBad (s : State) (c : CtxId) (op : AtomOp) (lanes : List (Nat × Nat)) : Option Nat :=
  (lanes.filterMap fun e => match translate s c e.2 .atomic with
    | .ok (h, _) => if hostAtomicOk s op h then none else some e.2
    | .error _ => none).head?

/-- ATOM (0x57): a global atomic; lanes that address one word go in ascending order (R483). At a device home the lanes of a
line are one request, on host memory each lane is one AtomicOp (R484). -/
def execAtom (slot : Nat) (w : Insn) (t : Stamp) (s : State) : Out :=
  issue slot w t s (· == 0x57) fun s slot g iw pc active fr =>
    let wide := bitNat iw.aux 2
    let n := if wide then 8 else 4
    let op := atomOpOf (iw.mod % 16)
    let lanes := (effectLanes g iw active).map fun l => (l, atomVa g iw l)
    let word := fun (line : Nat) (e : Nat × Nat) =>
      (e.2 - line, atomOperand g iw iw.bk iw.b e.1, if iw.mod % 16 = 2 then atomOperand g iw iw.ck iw.c e.1 else 0#64)
    if !lanes.isEmpty && !atomReady s slot g iw (atomActs s g.ctx iw lanes) then s
    else
      match (if (laneFault s g.ctx .atomic n lanes).isSome then none else atomHostBad s g.ctx op lanes) with
      | some va => groupFault s slot g 0x0506 (.va va) pc active w
      | none =>
        globalAccess s slot g w pc active fr (.groupLoad slot g.nextLoad) .atomic n lanes
          (fun h line mine => if h.isHost then mine.map fun e => .atomic op wide [word line e]
            else [.atomic op wide (mine.map (word line))])
          fun g =>
            let num := g.nextLoad
            let g := if lanes.isEmpty then g else addLoad g (.atomic wide (iw.dk == 0)) iw.d lanes pc w
            let g := if iw.aux % 2 = 1 && !lanes.isEmpty then { g with hold := some num } else g
            advance g iw pc active

/-- ATOML (0x58): a local-store atomic, performed in the core in ascending lane order (R483, R530). -/
def execAtoml (slot : Nat) (w : Insn) (t : Stamp) (s : State) : Out :=
  let iw := iword w
  let wide := bitNat iw.aux 2
  let n := if wide then 8 else 4
  issue slot w t s (· == 0x58) fun s slot g iw pc active fr =>
    if runMask g iw active != 0#32 && !atomReady s slot g iw (atomScope iw) then s
    else
      localAccess w n (fun g iw l => (srcA g iw l + iw.imm).toNat) (fun _ x g lanes =>
        lanes.foldl (fun acc e =>
          let old : Dword := BitVec.ofNat 64 (leNat (localBytes g.wg acc.1 e.2 n))
          let b := if iw.mod % 16 = 2 then atomOperand g iw iw.ck iw.c e.1 else 0#64
          let new := atomApply (atomOpOf (iw.mod % 16)) wide old (atomOperand g iw iw.bk iw.b e.1) b
          (localPut acc.1 e.2 (leBytes n new.toNat),
           if iw.dk = 0 then putWords acc.2 false iw.d e.1 (loadWords (if wide then 5 else 4) (leBytes n old.toNat))
           else acc.2)) (x, g)) s slot g iw pc active fr

/-! Fences and barriers -/

/-- FENCE (0x59): later accesses wait for the scope's conditions (R477, Table 10-4); scope WORKGROUP or wider publishes
the numeric status (R612). Nothing happens where no lane executes (R531). -/
def execFence (slot : Nat) (w : Insn) (t : Stamp) (s : State) : Out :=
  issue slot w t s (· == 0x59) fun s slot g iw pc active _ =>
    let scope := iw.mod % 4
    if runMask g iw active = 0#32 then putGroup s slot (advance g iw pc active)
    else if scope = 0 then putGroup s slot (advance { g with fence := joinFence g.fence 0 } iw pc active)
    else if !fenceMet s slot g 1 then s
    else match publish s slot g pc w with
      | .held s => s
      | .killed s => s
      | .done s g => putGroup s slot (advance { g with fence := joinFence g.fence scope } iw pc active)

/-- BAR (0x5A): the active threads wait; the last arrival releases the workgroup (R481, R482). -/
def execBar (slot : Nat) (w : Insn) (t : Stamp) (s : State) : Out :=
  issue slot w t s (· == 0x5A) fun s slot g iw pc active _ =>
    releaseBarrier (putGroup s slot (setSts (advance g iw pc active) (lanesOf active) .barrier)) g.wg

/-! The return of a load -/

/-- The requests of a pending load. -/
def loadAccesses (s : State) (slot num : Nat) : List (Nat × Access) :=
  s.traffic.accesses.filter fun e => e.2.client == .groupLoad slot num

/-- The bytes of a lane's load from the answers of its lines. -/
def laneBytes (as : List (Nat × Access)) (va n : Nat) : List Byte :=
  match as.find? fun e => e.2.va = va / 128 * 128 with
  | some e => (e.2.bytes.drop (va % 128)).take n
  | none => []

/-- The old value of the k-th lane of an atomic's lanes: the answers hold the words of their lines in lane order. -/
def atomOld (as : List (Nat × Access)) (wide : Bool) (lanes : List (Nat × Nat)) (k : Nat) : List Byte :=
  let n := if wide then 8 else 4
  match lanes[k]? with
  | none => []
  | some e =>
    let line := e.2 / 128 * 128
    let before := ((lanes.take k).filter fun x => x.2 / 128 * 128 = line).length
    let all := (as.filter fun x => x.2.va = line).flatMap fun x => x.2.bytes
    (all.drop (n * before)).take n

/-- The group with a returned load's registers written. -/
def returnLoad (g : Group) (l : LoadRec) (as : List (Nat × Access)) : Group :=
  match l.kind with
  | .load width scalar =>
    l.lanes.foldl (fun g e => putWords g scalar l.reg e.1 (loadWords width (laneBytes as e.2 (widthBytes width)))) g
  | .atomic wide ret =>
    if ret then l.lanes.zipIdx.foldl (fun g e =>
      putWords g false l.reg e.1.1 (loadWords (if wide then 5 else 4) (atomOld as wide l.lanes e.2))) g
    else g

/-- LOAD_RETURN: every line of a load or atomic has answered; poison kills the context, data goes to its registers (R476,
R497). -/
def execLoadReturn (slot num : Nat) (t : Stamp) (s : State) : Out :=
  let s := s.upTo t
  match getGroup s slot with
  | none => .next s
  | some g =>
    match g.loads.find? fun l => l.num = num with
    | none => .next s
    | some l =>
      let as := loadAccesses s slot num
      let waits := g.stopped || g.replays.any fun a => a.client == .groupLoad slot num
      if waits || !(as.all fun e => e.2.stage == .answered) then .next s
      else
        let s := as.foldl (fun s e => removeAccess s e.1) s
        if as.any fun e => e.2.poison then
          let va := ((as.find? fun e => e.2.poison).map fun e => e.2.va).getD 0
          .next (groupFault s slot g 0x0500 (.va va) l.pc (maskOf (l.lanes.map Prod.fst)) { base := l.base, ext := l.ext })
        else
          let g := returnLoad g l as
          let g := { g with
            loads := g.loads.filter fun x => x.num ≠ num
            hold := if g.hold = some num then none else g.hold }
          .next (reapGroup (putGroup s slot g) slot)

end Sys2Proof.Machine
end

