-- ==== Sys2Proof/Machine/ShaderControl.lean ====
section
/-!
DEFINITION. Branches, calls, exits and marks of the shader core (Table 11-4 0x70 to 0x74, R535, R536).
-/

namespace Sys2Proof.Machine

/-- PC + 4 × IMM32 with IMM32 signed, modulo 2^64 (R535). -/
def branchTarget (pc : Nat) (imm : Word) : Nat := (BitVec.ofNat 64 pc + BitVec.ofInt 64 (4 * imm.toInt)).toNat

/-- The executing lanes jump and the other active lanes go on (R464, R535). -/
def jump (g : Group) (w : IWord) (pc : Nat) (active : Word) (target : Nat → Nat) : Group :=
  setPcs (advance g w pc active) (lanesOf (runMask g w active)) target

/-- BRA (0x70). -/
def execBra (slot : Nat) (w : Insn) (t : Stamp) (s : State) : Out :=
  issue slot w t s (· == 0x70) fun s slot g iw pc active _ =>
    putGroup s slot (jump g iw pc active fun _ => branchTarget pc iw.imm)

/-- BRX (0x71): to program base + a; a target that is not a multiple of 4 is illegal with reason 8 (R535, Table 11-11). -/
def execBrx (slot : Nat) (w : Insn) (t : Stamp) (s : State) : Out :=
  issue slot w t s (· == 0x71) fun s slot g iw pc active _ =>
    let target := fun l => g.progVa + (srcA g iw l).toNat
    if (lanesOf (runMask g iw active)).any fun l => target l % 4 != 0 then groupFault s slot g 0x0505 .none pc active w 8
    else putGroup s slot (jump g iw pc active target)

/-- CALL (0x72): d = PC + 12 - program base, and a jump. -/
def execCall (slot : Nat) (w : Insn) (t : Stamp) (s : State) : Out :=
  issue slot w t s (· == 0x72) fun s slot g iw pc active _ =>
    let lanes := lanesOf (runMask g iw active)
    let g' := jump g iw pc active fun _ => branchTarget pc iw.imm
    putGroup s slot (if lanes.isEmpty then g'
      else writeResult g' iw lanes fun _ => BitVec.ofInt 32 ((pc : Int) + 12 - g.progVa))

/-- EXIT (0x73): the executing lanes exit; the last thread ends the group (R467, R536). -/
def execExit (slot : Nat) (w : Insn) (t : Stamp) (s : State) : Out :=
  issue slot w t s (· == 0x73) fun s slot g iw pc active _ =>
    let g' := setSts (advance g iw pc active) (lanesOf (runMask g iw active)) .exited
    if groupExited g' then exitGroup s slot g' pc w
    else releaseBarrier (putGroup s slot g') g.wg

/-- MARK (0x74): scalar a goes into the Jendon trace stream. -/
def execMark (slot : Nat) (w : Insn) (t : Stamp) (s : State) : Out :=
  issue slot w t s (· == 0x74) fun s slot g iw pc active _ =>
    putGroup (traceMark s g.core (srcA g iw 0)) slot (advance g iw pc active)

end Sys2Proof.Machine
end

