-- ==== Sys2Proof/Machine/MadderOps.lean ====
section
/-!
DEFINITION. Operand tiles of the Madder units: classes, row records, packing, and the exact arithmetic of one
multiply-accumulate (R552 to R558, Tables 12-1 and 12-2).
-/

namespace Sys2Proof.Machine

/-- K of an operand class (Table 12-1), by float code (0 integer) and INT4. -/
def tileK (code : Nat) (int4 : Bool) : Nat :=
  if code = 1 || code = 2 then 32 else if code = 7 || (code = 0 && int4) then 128 else 64

/-- Row bytes E of an operand class. -/
def tileE (code : Nat) : Nat := if code = 5 || code = 6 then 48 else 64

/-- Bits of an element. -/
def elemBits (code : Nat) (int4 : Bool) : Nat := if code = 0 then (if int4 then 4 else 8) else (fmtOf code).width

/-- Blocks of 32 per row, none in the 16-bit class. -/
def tileBlocks (code : Nat) (int4 : Bool) : Nat := if code = 1 || code = 2 then 0 else tileK code int4 / 32

/-- The record length L of Table 12-2. -/
def recordLen (code : Nat) (int4 : Bool) (mode : Nat) : Nat :=
  let nb := tileBlocks code int4
  tileE code + (match mode with
    | 0 => 0
    | 1 => nb
    | 2 => 5 * nb
    | _ => 4)

/-- Element k of packed bytes (R554). -/
def packedElem (bs : List Byte) (bits k : Nat) : Nat := fieldAt bs (bits * k / 8) 2 / 2 ^ (bits * k % 8) % 2 ^ bits

/-- An integer element (R554, R601): its value, scaled where the block has a shared scale. -/
def intElem (int4 sgn : Bool) (mode x : Nat) : FVal :=
  let w := if int4 then 4 else 8
  let n : Int := if sgn && bitNat x (w - 1) then (x : Int) - 2 ^ w else x
  ofIntAt n (if mode = 1 then (if int4 then -2 else -6) else 0) false

/-- Element k of row r of a slot, with its block scale or its escape applied (R557, R600, R604). -/
def slotElem (m : MSlot) (r k : Nat) : FVal :=
  let row := m.rows.getD r []
  let bits := elemBits m.code m.int4
  let raw := packedElem row bits k
  let v := if m.code = 0 then intElem m.int4 m.sgn m.mode raw
    else if bits = 16 then fdecode (fmtOf m.code) (fieldAt row (2 * k) 2)
    else fdecode (fmtOf m.code) raw
  let e := tileE m.code
  let nb := tileBlocks m.code m.int4
  let b := k / 32
  match m.mode with
  | 1 => dequantise v (fieldAt row (e + b) 1) 0 (k % 32)
  | 2 => dequantise v (fieldAt row (e + 4 * nb + b) 1) (fieldAt row (e + 4 * b) 4) (k % 32)
  | _ => v

/-- The per-row or per-output-channel scale of a row, 1 without one (R557, R609). -/
def slotScale (m : MSlot) (r : Nat) : FVal :=
  if m.mode = 3 || m.mode = 4 then f32 (BitVec.ofNat 32 (fieldAt (m.rows.getD r []) (tileE m.code) 4)) else .fin false 1 0

/-- The largest exponent among finite non-zero terms (R558). -/
def maxExp (l : List FVal) : Option Int :=
  l.foldl (fun acc v => match v with
    | .fin _ m e => if m = 0 then acc else
        let x := ilogbOf m e
        some (match acc with
          | some a => max a x
          | none => x)
    | _ => acc) none

/-- A term truncated toward zero to a multiple of 2^q, in units of 2^q. -/
def truncTerm (q : Int) : FVal → Int
  | .fin neg m e =>
    let n : Int := roundShift 1 {} neg m (e - q)
    if neg then -n else n
  | _ => 0

/-- aligned_sum (R558): the sum of the terms truncated to multiples of 2^(emax - 47), rounded once to FP32 by RNE.
DEDUCED, unsafe: log 16. -/
def alignedSum (terms : List FVal) : Word :=
  let infs := terms.filterMap fun v => match v with
    | .inf s => some s
    | _ => none
  if terms.contains .nan || (infs.contains true && infs.contains false) then 0x7FC00000#32
  else match infs with
    | s :: _ => toF32 0 (.inf s)
    | [] =>
      match maxExp terms with
      | none => 0#32
      | some x => toF32 0 (ofIntAt ((terms.map (truncTerm (x - 47))).foldl (· + ·) 0) (x - 47) false)

/-- One element of an accumulator tile (R557): the old value, and the products of row i of A and row j of B. -/
def mmaElem (old : FVal) (k : Nat) (a b : Nat → FVal) (ra rb : FVal) : Word :=
  alignedSum (old :: (List.range k).map fun n => fmulExact (fmulExact (a n) (b n)) (fmulExact ra rb))

/-- An accumulator tile of 256 words, row-major. -/
abbrev AccTile := List Word

/-- A tile of +0. -/
def zeroTile : AccTile := List.replicate 256 0#32

/-- MMA of a tile and two filled slots (R557). -/
def mmaTile (acc : AccTile) (fresh : Bool) (a b : MSlot) : AccTile :=
  (List.range 256).map fun n =>
    let i := n / 16
    let j := n % 16
    mmaElem (if fresh then .fin false 0 0 else f32 (acc.getD n 0#32)) (tileK a.code a.int4)
      (slotElem a i) (slotElem b j) (slotScale a i) (slotScale b j)

/-- The formats and scale modes of an MMA's slots are legal (R553, R556). -/
def slotsOk (a b : MSlot) : Bool := pairOk a.code b.code a.int4 b.int4 && a.mode ≠ 4 && b.mode ≠ 3

/-! Fragments (R566) -/

/-- An operand fragment as a slot with no scale. -/
def fragSlot (code : Nat) (int4 sgn : Bool) (regs : List (List Word)) : MSlot :=
  let bits := elemBits code int4
  let k := tileK code int4
  let bytes := k * bits / 16
  let row := fun r =>
    ((regs.flatMap fun x => leBytes 4 (x.getD r 0#32).toNat).take bytes) ++
      ((regs.flatMap fun x => leBytes 4 (x.getD (r + 16) 0#32).toNat).take bytes)
  { code := code, int4 := int4, sgn := sgn, mode := 0, rows := (List.range 16).map row }

/-- Element (i, j) of an accumulator fragment: lane i + 16 (j / 8), register j mod 8. -/
def fragAcc (regs : List (List Word)) (i j : Nat) : Word := (regs.getD (j % 8) []).getD (i + 16 * (j / 8)) 0#32

/-- MMAF (R567): the 8 registers of the result by lane. -/
def mmafRegs (c : Option (List (List Word))) (a b : MSlot) : List (List Word) :=
  (List.range 8).map fun q => (List.range 32).map fun l =>
    let i := l % 16
    let j := 8 * (l / 16) + q
    mmaElem (match c with
      | some regs => f32 (fragAcc regs i j)
      | none => .fin false 0 0) (tileK a.code a.int4) (slotElem a i) (slotElem b j) (.fin false 1 0) (.fin false 1 0)

/-! MSTORE (R559) -/

/-- Output row bytes of an MSTORE by code. -/
def outRowBytes (code : Nat) : Nat := 2 * (fmtOf code).width

/-- The codes of a tile's elements with what each conversion adds (R520, R597, R607, R617). -/
def storeCodes (n : Numeric) (tile : AccTile) (code mode : Nat) : List (Nat × NumEvent) :=
  (List.range 256).map fun k => convertFloat code 0 mode (tileRnd n (k / 16) (k % 16) code) (tile.getD k 0#32).toNat

/-- The bytes of row r of the converted tile, packed from bit 0 (R554). -/
def storeRow (codes : List (Nat × NumEvent)) (code r : Nat) : List Byte :=
  let w := (fmtOf code).width
  leBytes (outRowBytes code) (((List.range 16).map fun j => (codes.getD (16 * r + j) (0, {})).1 * 2 ^ (w * j)).sum)

/-- The numeric state after a committed MSTORE (R607, R611, R617). -/
def noteStore (n : Numeric) (codes : List (Nat × NumEvent)) (mode : Nat) : Numeric :=
  let n := codes.foldl (fun n e => n.note e.2) n
  if mode = 5 then { n with madderDraw := n.madderDraw + 1#32 } else n

/-- The state with an operation changed. -/
def modOp (s : State) (op : Nat) (f : MOp → MOp) : State :=
  { s with madders := { s.madders with ops := tblModify s.madders.ops op f } }

end Sys2Proof.Machine
end

