-- ==== Sys2Proof/Machine/SchedOps.lean ====
section
/-!
DEFINITION. Occupancy and placement of thread groups (spec 10), the order key (R751), and stopping, saving and restoring
pre-empted work (spec 17).
-/

namespace Sys2Proof.Machine

/-! The order key -/

/-- Lexicographic order. -/
def lexLt : List Nat → List Nat → Bool
  | x :: xs, y :: ys => x < y || (x == y && lexLt xs ys)
  | [], _ :: _ => true
  | _, _ => false

/-- The order key of a queue with a ready stamp: the lower list ranks higher (R751, R752). -/
def orderKey (s : State) (q : QueueId) (ready : Stamp) : List Nat :=
  let d := (getQueue s q).bind Queue.sub
  [3 - queuePrio s q, if d.isSome then 0 else 1, d.getD 0, ready, q.ctx.tenant, q.ctx.idx, q.q]

/-- A dispatch has workgroups to place. -/
def Dispatch.unplaced (x : Dispatch) : Bool := x.next < x.grid.1 * x.grid.2.1 * x.grid.2.2 || !x.back.isEmpty

/-- The linear index of the workgroup that a dispatch places next. -/
def Dispatch.index (x : Dispatch) : Nat := x.back.headD x.next

/-- The dispatch once that workgroup is placed. -/
def Dispatch.placed (x : Dispatch) : Dispatch :=
  if x.back.isEmpty then { x with next := x.next + 1 } else { x with back := x.back.tail }

/-- The ready stamp of a queue: of its next unplaced work, else of its oldest packet in progress.
DEDUCED, unsafe: log 23. -/
def queueReady (s : State) (q : QueueId) : Stamp :=
  match s.cores.dispatches.find? fun e => e.2.queue == q && e.2.unplaced with
  | some e => e.2.ready
  | none => match (getQueue s q).bind fun r => r.pkts.head? with
    | some p => p.start
    | none => s.stamp

/-- The order key of a queue now. -/
def queueKey (s : State) (q : QueueId) : List Nat := orderKey s q (queueReady s q)

/-! Occupancy -/

/-- A thread group of the graphics engines. -/
def Group.isGraphics (g : Group) : Bool := g.kind != .compute

/-- Part of a core's local store is reserved for graphics (R457). -/
def graphicsOn (s : State) (core : Nat) : Bool :=
  tilesInCluster s (core / 4) || s.cores.groups.any fun e => e.2.core == core && e.2.isGraphics

/-- Groups whose registers and slots count on a core, less those that are to be taken away. -/
def groupsOn (s : State) (core : Nat) (less : Group → Bool) : List (Nat × Group) :=
  s.cores.groups.filter fun e => e.2.core == core && !less e.2

/-- Register units of a scheduler in use: an exited group's are free (R456, R467). -/
def regsUsed (gs : List (Nat × Group)) (sched : Nat) : Nat :=
  ((gs.filter fun e => e.2.sched == sched && !groupExited e.2).map fun e => e.2.vregs).sum

/-- Slots of a scheduler in use (R455, R467). -/
def slotsUsed (gs : List (Nat × Group)) (sched : Nat) : Nat := (gs.filter fun e => e.2.sched == sched).length

/-- The scheduler with the most free register space, lowest index on ties (R459). -/
def baseSched (gs : List (Nat × Group)) : Nat := (leastBy (regsUsed gs) (List.range 4)).getD 0

/-- Groups of n that scheduler x takes from a base (R459). -/
def shareOf (n base x : Nat) : Nat := ((List.range n).filter fun j => (base + j) % 4 == x).length

/-- Local store of a core in use (R456). -/
def localUsed (s : State) (core : Nat) (less : Nat → Bool) : Nat :=
  ((s.cores.wgs.filter fun e => e.2.core == core && !less e.1).map fun e => alignUp e.2.lsBytes 512).sum

/-- What a workgroup needs of a core: groups, VREGS, local store and, for single-issuer groups, accumulator tiles. -/
structure Need where
  ctx : CtxId
  groups : Nat
  vregs : Nat
  ls : Nat
  drive : Option Nat
  deriving DecidableEq, Repr

/-- The Madder has room for single-issuer groups (R563). -/
def madderFits (gs : List (Nat × Group)) (n : Need) : Bool :=
  match n.drive with
  | none => true
  | some acc =>
    let single := gs.filter fun e => e.2.drive.isSome
    8 * (single.length + n.groups) ≤ 64 && (single.map fun e => e.2.drive.getD 0).sum + n.groups * acc ≤ 64

/-- A workgroup fits a core once some workgroups are taken away (R455 to R459, R563). -/
def fitsLess (s : State) (core : Nat) (n : Need) (less : Nat → Bool) : Bool :=
  let gs := groupsOn s core fun g => less g.wg
  let b := baseSched gs
  let ctxs := (n.ctx :: gs.map fun e => e.2.ctx).eraseDups
  ((List.range 4).all fun x =>
    slotsUsed gs x + shareOf n.groups b x ≤ 12 && regsUsed gs x + shareOf n.groups b x * n.vregs ≤ 64) &&
  localUsed s core less + alignUp n.ls 512 ≤ (if graphicsOn s core then 0x20000 else 0x30000) &&
  ctxs.length ≤ 8 && madderFits gs n

/-- A workgroup fits a core. -/
def fits (s : State) (core : Nat) (n : Need) : Bool := fitsLess s core n fun _ => false

/-- A core takes a context's groups: its cluster's mode allows it, and neither it nor, for single-issuer groups, its Madder is
under FORCE_OFF (R460, R485, R564, R114). -/
def coreAllows (s : State) (core : Nat) (n : Need) : Bool :=
  core < 24 && (match (s.cores.clusters.getD (core / 4) {}).excl with
    | some c => c == n.ctx
    | none => true) &&
  (getDom s core).policy != .forceOff && (n.drive.isNone || (getDom s (24 + core)).policy != .forceOff)

/-- CLUSTERS of a packet names a core's cluster; 0 means all (Table 10-1). -/
def clusterNamed (mask core : Nat) : Bool := mask % 64 == 0 || bitNat mask (core / 4)

/-- Groups of a workgroup of a dispatch (R452). -/
def Dispatch.groupCount (x : Dispatch) : Nat := (x.wgDims.1 * x.wgDims.2.1 * x.wgDims.2.2 + 31) / 32

/-- What the next workgroup of a dispatch needs. -/
def Dispatch.need (x : Dispatch) : Need :=
  { ctx := x.queue.ctx, groups := x.groupCount, vregs := x.vregs, ls := x.lsBytes, drive := x.drive }

/-- A core is reserved for a dispatch other than the one named that ranks higher than a key (R756). -/
def reservedFrom (s : State) (core : Nat) (d : Option Nat) (key : List Nat) : Bool :=
  match tblGet s.cores.reserve core with
  | some d' => d ≠ some d' && match tblGet s.cores.dispatches d' with
    | some x => lexLt (orderKey s x.queue x.ready) key
    | none => false
  | none => false

/-- A context's work is placed: its device serves it and no forfeit covers it. -/
def placeable (s : State) (q : QueueId) : Bool := isOpen s && !inWarm s && (forfeitOf s q.ctx).isNone

/-- A queue's pre-emption stops new placements: FINE and WORKGROUP do, PACKET lets its packets complete (Table 17-1). -/
def placesNew (s : State) (q : QueueId) : Bool :=
  match (getQueue s q).bind Queue.preempting with
  | some 2 => true
  | some _ => false
  | none => true

/-- A context holds saved groups (R766). -/
def hasSaved (s : State) (c : CtxId) : Bool := s.cores.saved.any fun e => e.2.wg.queue.ctx == c

/-- Cores that are eligible for the next workgroup of a dispatch (R460, R756). -/
def eligibleCores (s : State) (d : Nat) (x : Dispatch) : List Nat :=
  (List.range 24).filter fun core =>
    clusterNamed x.clusters core && coreAllows s core x.need && !reservedFrom s core (some d) (orderKey s x.queue x.ready)

/-- A dispatch's next workgroup may be placed now (R755, R766). -/
def dispatchReady (s : State) (x : Dispatch) : Bool :=
  x.unplaced && placeable s x.queue && placesNew s x.queue && !hasSaved s x.queue.ctx

/-- The core that the next workgroup of a dispatch goes to: the lowest-indexed powered one on which it fits (R460). -/
def placeCore (s : State) (d : Nat) (x : Dispatch) : Option Nat :=
  if dispatchReady s x then (eligibleCores s d x).find? fun core => domOn s core && fits s core x.need else none

/-- The core that is woken where none fits: the lowest-indexed eligible core that is off (R460). -/
def wakeFor (s : State) (d : Nat) (x : Dispatch) : Option Nat :=
  if dispatchReady s x then (eligibleCores s d x).find? fun core => !domOn s core && fits s core x.need else none

/-- What a saved workgroup needs. -/
def SavedWg.need (x : SavedWg) : Need :=
  let g := x.groups.head?
  { ctx := x.wg.queue.ctx, groups := x.groups.length, vregs := (g.map Group.vregs).getD 1, ls := x.wg.lsBytes
    drive := g.bind Group.drive }

/-- CLUSTERS of the dispatch of a workgroup. -/
def wgClusters (s : State) (w : Workgroup) : Nat :=
  ((w.dispatch.bind fun d => tblGet s.cores.dispatches d).map Dispatch.clusters).getD 0

/-- A saved workgroup may resume on a core (R764, R766, R767). -/
def restorable (s : State) (x : SavedWg) (core : Nat) : Bool :=
  placeable s x.wg.queue && (getQueue s x.wg.queue).any (fun r => r.preempting.isNone) &&
    clusterNamed (wgClusters s x.wg) core && coreAllows s core x.need &&
    !reservedFrom s core none (orderKey s x.wg.queue x.since) && domOn s core && fits s core x.need

/-- Work that ranks above a key could go to a core instead (R753, R755). -/
def outranked (s : State) (core : Nat) (key : List Nat) : Bool :=
  (s.cores.dispatches.any fun e => lexLt (orderKey s e.2.queue e.2.ready) key && placeCore s e.1 e.2 == some core) ||
    s.cores.saved.any fun e => lexLt (orderKey s e.2.wg.queue e.2.since) key && restorable s e.2 core

/-! Launching groups -/

/-- A free resident slot of a scheduler. DESIGN CHOICE, safe: log 22. -/
def freeSlot (s : State) (core sched : Nat) (taken : List Nat) : Option Nat :=
  (rangeFrom (48 * core + 12 * sched) 12).find? fun k => !taken.contains k && (tblGet s.cores.groups k).isNone

/-- Scheduler and slot of each of n groups on a core (R459). -/
def assignSlots (s : State) (core base n : Nat) : List (Nat × Nat) :=
  ((List.range n).foldl (fun (acc : List (Nat × Nat)) j =>
    let sched := (base + j) % 4
    match freeSlot s core sched (acc.map Prod.snd) with
    | some k => acc ++ [(sched, k)]
    | none => acc) [])

/-- The 16 scalar registers of 64 bytes of arguments (Table 10-2). -/
def argRegs (bs : List Byte) : List Word := (List.range 16).map fun k => BitVec.ofNat 32 (fieldAt bs (4 * k) 4)

/-- The local thread IDs of a lane (R452, Table 10-2). -/
def localIds (dims : Nat × Nat × Nat) (n : Nat) : Nat × Nat × Nat :=
  (n % dims.1, n / dims.1 % dims.2.1, n / dims.1 / dims.2.1)

/-- Vector registers at launch: zero, but for the named ones. DESIGN CHOICE, unsafe: log 5. -/
def launchRegs (vregs : Nat) (named : List (List Word)) : List (List Word) :=
  (List.range (8 * vregs)).map fun r => named.getD r (List.replicate 32 0#32)

/-- Group j of a workgroup of a dispatch at its launch (R453, Table 10-2, R610, R616, R628, R590). -/
def computeGroup (s : State) (x : Dispatch) (id : Nat × Nat × Nat) (wg core sched slot j : Nat) (args : List Byte) : Group :=
  let total := x.wgDims.1 * x.wgDims.2.1 * x.wgDims.2.2
  let ids := (List.range 32).map fun l => localIds x.wgDims (32 * j + l)
  let w := fun (n : Nat) => BitVec.ofNat 32 n
  let seed := ((getCtx s x.queue.ctx).map Ctx.seed).getD 0#32
  { ctx := x.queue.ctx, queue := x.queue, pkt := x.pkt, tag := x.tag, core := core, sched := sched, wg := wg, j := j
    homeSlot := slot, progVa := x.progVa, vregs := x.vregs, privBytes := x.privBytes, privVa := x.privVa
    pcs := List.replicate 32 x.progVa
    sts := (List.range 32).map fun l => if 32 * j + l < total then ThreadSt.running else .exited
    v := launchRegs x.vregs [ids.map fun e => w e.1, ids.map fun e => w e.2.1, ids.map fun e => w e.2.2]
    sregs := argRegs args ++ [w id.1, w id.2.1, w id.2.2, w j, w x.queue.ctx.idx, w slot] ++ List.replicate 42 0#32
    num := { seed := seed, id0 := w id.1, id1 := w id.2.1, id2 := w id.2.2, j := j }
    drive := x.drive, tiles := List.replicate (x.drive.getD 0) zeroTile, launched := s.stamp, code := x.code }

/-- The workgroup ID of a linear index. -/
def wgId (grid : Nat × Nat × Nat) (n : Nat) : Nat × Nat × Nat := (n % grid.1, n / grid.1 % grid.2.1, n / grid.1 / grid.2.1)

/-- Local store of a core is taken (R110). -/
def useLocal (s : State) (core n : Nat) : State :=
  { s with cores := { s.cores with lsEver := tblSet s.cores.lsEver core (tblGetD s.cores.lsEver core 0 + n) } }

/-- Nothing that took local store of a core since it woke has given it back, so that what is free has not been used (R110). -/
def localFresh (s : State) (core : Nat) : Bool := tblGetD s.cores.lsEver core 0 == localUsed s core fun _ => false

/-- A workgroup enters a core with its groups; graphics groups use the core's reserved 64 KiB (R457). -/
def addWg (s : State) (wg : Workgroup) (groups : List (Nat × Group)) : State :=
  let w := { wg with fresh := localFresh s wg.core }
  let s := useLocal s wg.core (if wg.dispatch.isSome then alignUp wg.lsBytes 512 else 0x10000)
  { s with cores := { s.cores with
      groups := s.cores.groups ++ groups, wgs := s.cores.wgs ++ [(s.cores.nextWg, w)], nextWg := s.cores.nextWg + 1 } }

/-- The 64 bytes of arguments of groups placed on a core, read at the core's NI (R459). -/
def readArgs (s : State) (q : QueueId) (core va : Nat) : Reading :=
  engineRead s { reader := .args q core, ni := coreNi core, ctx := q.ctx, pri := queuePrio s q } .load va 64

/-- A failed read of launch arguments kills the context as a thread group's load would (Table 10-6).
DEDUCED, unsafe: log 13. -/
def argsFault (s : State) (q : QueueId) (tag : Word) (core va : Nat) (e : Option XFault) : State :=
  let code := (e.map XFault.code).getD 0x0500
  killContext s q.ctx { ctxRec s code 3 (faultLetters code) q.ctx with
    queue := some q.q, tag := tag, addr := .va va, loc := { unit := .core, index := core } }

/-- Work that takes launch arguments goes on: it waits for them, is killed where they fail, or launches with them.
DESIGN CHOICE, safe: log 12. -/
def withArgs (s : State) (q : QueueId) (tag : Word) (core va : Nat) (launch : State → List Byte → State) : State :=
  match readArgs s q core va with
  | .wait s => s
  | .fault e a => argsFault s q tag core a (some e)
  | .ready bs => match cleanBytes bs with
    | some bs => useReads (launch s bs) (.args q core)
    | none => argsFault s q tag core va none

/-- The next workgroup of a dispatch launches on a core (R453, R459, R760). -/
def launchWg (s : State) (d : Nat) (x : Dispatch) (core : Nat) (args : List Byte) : State :=
  let id := wgId x.grid x.index
  let wg := s.cores.nextWg
  let slots := assignSlots s core (baseSched (groupsOn s core fun _ => false)) x.groupCount
  let groups := slots.zipIdx.map fun e => (e.1.2, computeGroup s x id wg core e.1.1 e.1.2 e.2 args)
  let w : Workgroup := { dispatch := some d, queue := x.queue, id := id, core := core, lsBytes := x.lsBytes, groups := x.groupCount }
  let s := addWg s w groups
  let s : State := { s with cores := { s.cores with
      dispatches := tblModify s.cores.dispatches d Dispatch.placed
      reserve := s.cores.reserve.filter fun e => e.2 ≠ d } }
  modQueue s x.queue fun r => { r with lastPlaced := s.stamp }

/-- A workgroup was placed in this step and has run nothing. -/
def justPlaced (s : State) (core : Nat) (e : Nat × Workgroup) : Bool :=
  e.2.core == core && e.2.dispatch.isSome && s.cores.groups.all fun g =>
    g.2.wg != e.1 || (g.2.launched == s.stamp && g.2.pcs.all (fun pc => pc == g.2.progVa) && !groupBusy s g.1)

/-- The linear index of a workgroup ID. -/
def wgIndex (grid id : Nat × Nat × Nat) : Nat := id.1 + grid.1 * (id.2.1 + grid.2.1 * id.2.2)

/-- A workgroup is taken back from its core, to be placed elsewhere (R493). -/
def takeBack (s : State) (e : Nat × Workgroup) : State :=
  let slots := (s.cores.groups.filter fun g => g.2.wg == e.1).map Prod.fst
  let s := slots.foldl leaveSlot s
  let return_ := fun (x : Dispatch) => { x with back := x.back ++ [wgIndex x.grid e.2.id] }
  { s with cores := { s.cores with
      wgs := tblErase s.cores.wgs e.1
      dispatches := match e.2.dispatch with
        | some d => tblModify s.cores.dispatches d return_
        | none => s.cores.dispatches } }

/-- A FORCE_OFF of a core comes before the placements of its own step (R493). -/
def policyFirst (s : State) (core : Nat) : State := (s.cores.wgs.filter (justPlaced s core)).foldl takeBack s

/-! Stopping work -/

/-- Workgroups stop at FINE: none of their groups issues again (R765). -/
def stopWgs (s : State) (p : Nat → Bool) : State :=
  let stop : Nat × Group → Nat × Group := fun e =>
    if p e.2.wg && !e.2.isGraphics then (e.1, { e.2 with stopping := true }) else e
  { s with cores := { s.cores with groups := s.cores.groups.map stop } }

/-- Compute workgroups that meet a test stop at FINE, whatever their queue's code (R763). -/
def forceStop (s : State) (p : Workgroup → Bool) : State :=
  let wgs := (s.cores.wgs.filter fun e => e.2.dispatch.isSome && p e.2).map Prod.fst
  stopWgs s wgs.contains

/-- A queue is pre-empted at a granularity (R754, R762, R764, R782). -/
def preemptQueue (s : State) (q : QueueId) (code : Nat) : State :=
  let s := modQueue s q fun r =>
    { r with stops := insertOnce r.stops .preempt, preempting := some (min code (r.preempting.getD code)) }
  let fine := code == 0
  let s := if fine then forceStop s (fun w => w.queue == q) else s
  let stop : Nat × XferOp → Nat × XferOp := fun e => if e.2.queue = q then (e.1, { e.2 with stopping := true }) else e
  let s := if fine then { s with xfer := { s.xfer with active := s.xfer.active.map stop } } else s
  settleQueue s q

/-- A queue's PREEMPT code. DEDUCED, unsafe: log 23. -/
def preemptCode (s : State) (q : QueueId) : Nat := ((getQueue s q).map Queue.preempt).getD 0

/-- A read of a queue's engine is outstanding on a link (R774). -/
def fetchOut (s : State) (q : QueueId) : Bool :=
  s.traffic.accesses.any fun e => !e.2.dropped && e.2.client == .reader (.queue q) && e.2.tagOf.isSome

/-- Every engine has stopped the work of a pre-empted queue (R764, R774, Table 17-1). -/
def stopComplete (s : State) (q : QueueId) (r : Queue) : Bool :=
  let others := r.pkts.filter fun p => !(r.wait.any (fun w => w.pkt == p.num))
  let xferIdle := !(s.xfer.active.any fun e => e.2.queue == q)
  let binnerIdle := s.gfx.bound != some q && !(s.gfx.tiles.any fun e => e.2.queue == q)
  !fetchOut s q && match r.preempting with
  | some 0 => !(s.cores.groups.any fun e => e.2.queue == q && !e.2.isGraphics) && xferIdle && binnerIdle
  | some 1 => !(s.cores.groups.any fun e => e.2.queue == q && !e.2.isGraphics) && xferIdle && binnerIdle
  | some _ => others.isEmpty
  | none => false

/-! The choice of victims -/

/-- A victim's groups may be pre-empted for a queue: a lower class, or the same class with a later deadline or none while the
queue has one (R757). -/
def mayPreempt (s : State) (q victim : QueueId) : Bool :=
  let d := (getQueue s q).bind Queue.sub
  let v := (getQueue s victim).bind Queue.sub
  queuePrio s victim < queuePrio s q || (queuePrio s victim == queuePrio s q && match d, v with
    | some a, some b => a < b
    | some _, none => true
    | none, _ => false)

/-- A workgroup is on its way out: all its groups stop. -/
def wgStopping (s : State) (wg : Nat) : Bool := s.cores.groups.any fun e => e.2.wg == wg && e.2.stopping

/-- The order that puts the lowest-ranked first. -/
def insertLowest (s : State) (x : Nat × Workgroup) : List (Nat × Workgroup) → List (Nat × Workgroup)
  | [] => [x]
  | y :: ys => if lexLt (queueKey s y.2.queue) (queueKey s x.2.queue) then x :: y :: ys else y :: insertLowest s x ys

/-- The workgroups on a core that a queue may pre-empt, lowest-ranked first (R757). -/
def victimWgs (s : State) (q : QueueId) (core : Nat) : List (Nat × Workgroup) :=
  (s.cores.wgs.filter fun e =>
    e.2.core == core && e.2.dispatch.isSome && mayPreempt s q e.2.queue && !wgStopping s e.1 &&
      lexLt (queueKey s q) (queueKey s e.2.queue)).foldl (fun l e => insertLowest s e l) []

/-- The shortest run of lowest-ranked workgroups whose removal makes room, with those that stop already. -/
def makeRoom (s : State) (core : Nat) (n : Need) (vs : List (Nat × Workgroup)) : Option (List (Nat × Workgroup)) :=
  ((List.range (vs.length + 1)).map fun k => vs.take k).find? fun run =>
    fitsLess s core n fun wg => wgStopping s wg || (run.any fun e => e.1 == wg)

/-- A core pre-emption for a dispatch (R757): none where its workgroup fits somewhere, or will once stops complete.
DEDUCED, unsafe: log 23. -/
def corePreempt (s : State) (d : Nat) (x : Dispatch) : Option (Nat × List (Nat × Workgroup)) :=
  let cores := (eligibleCores s d x).filter fun core => domOn s core
  if (placeCore s d x).isSome || (wakeFor s d x).isSome || cores.any fun core => makeRoom s core x.need [] == some [] then none
  else (cores.filterMap fun core => (makeRoom s core x.need (victimWgs s x.queue core)).map fun vs => (core, vs)).head?

/-! The end of a stop -/

/-- The load, sample or MLOAD that an access belongs to ends INCOMPLETE-READ or unissued (Table 17-4). -/
def sameRead (a b : Access) : Bool := a.client == b.client

/-- A read that waits for a tag (R774). -/
def tagless (a : Access) : Bool :=
  match a.stage, a.kind with
  | .waitTag _, .read => true
  | _, _ => false

/-- The accesses of a group. -/
def slotAccesses (s : State) (slot : Nat) : List (Nat × Access) :=
  s.traffic.accesses.filter fun e => workOf slot e.2

/-- The reads of a stopping group that are recorded for re-issue: those that wait for a tag, and answers of an instruction
some of whose reads are recorded (R774, Table 17-4). DEDUCED, unsafe: log 23. -/
def toReplay (s : State) (slot : Nat) (g : Group) : List (Nat × Access) :=
  let acc := slotAccesses s slot
  let held := (acc.filter fun e => tagless e.2).map Prod.snd ++ g.replays
  acc.filter fun e => tagless e.2 || (e.2.stage == .answered && held.any (sameRead e.2))

/-- The Madder operation of a read. -/
def loadOp : Client → Option Nat
  | .madderLoad _ op => some op
  | _ => none

/-- The staged operations that a stop records: from the first MLOAD whose reads are recorded, and those not handed over while
the Madder is off (R774, R564). -/
def opsToReplay (s : State) (slot : Nat) (g : Group) : List (Nat × MOp) :=
  let reads := (toReplay s slot g).map Prod.snd ++ g.replays
  let first := leastNat (reads.filterMap fun a => loadOp a.client)
  (s.madders.ops.filter fun e => e.2.group == slot).filter fun e =>
    (first.any fun k => k ≤ e.1) || (!e.2.handed && !domOn s (24 + g.core))

/-- A stopping group's accesses have returned and its tokens have resolved, but for what is recorded for re-issue (R765). -/
def stopMet (s : State) (slot : Nat) (g : Group) : Bool :=
  (slotAccesses s slot).length == (toReplay s slot g).length &&
    (s.madders.ops.filter fun e => e.2.group == slot).length == (opsToReplay s slot g).length

/-- The client of a re-issued read in its new slot, with the new numbers of its operations. -/
def reslot (slot : Nat) (op : Nat → Nat) : Client → Client
  | .groupLoad _ n => .groupLoad slot n
  | .sampler _ n => .sampler slot n
  | .madderLoad _ n => .madderLoad slot (op n)
  | c => c

end Sys2Proof.Machine
end

