-- ==== Sys2Proof/Machine/TransferOps.lean ====
section
/-!
DEFINITION. The transfer channels: packets, reads into the staging buffer, swapping, and the shapes of writes (spec 16).
-/

namespace Sys2Proof.Machine

/-! Channels and packets -/

/-- A funnel channel (Table 16-1). -/
def isFunnel (ch : Nat) : Bool := ch % 16 < 8

/-- The client NI of a channel's engine: routers 1, 2, 5 and 6 (Table 09-1). -/
def xferNi (ch : Nat) : Nat := 48 + [1, 2, 5, 6].getD (ch / 16) 1

/-- Bytes of a SWAP unit (Table 16-3). -/
def swapUnit (code : Nat) : Nat :=
  match code with
  | 1 => 2
  | 2 => 4
  | 3 => 8
  | 4 => 4
  | 5 => 8
  | _ => 1

/-- The byte of its unit that goes to byte k (Table 16-3). -/
def swapIndex (code k : Nat) : Nat :=
  match code with
  | 1 => 1 - k
  | 2 => 3 - k
  | 3 => 7 - k
  | 4 => (k + 2) % 4
  | 5 => 6 - k / 2 * 2 + k % 2
  | _ => k

/-- The transfer of a packet's body (Table 16-2). -/
def xferOf (s : State) (q : QueueId) (p : Pkt) (bs : List Byte) : XferOp :=
  let rows := p.type == 0x81
  let fill := p.type == 0x82
  { queue := q, pkt := p.num, tag := p.tag, type := p.type, ch := fieldAt bs 28 1 % 64, src := vaAt bs 8, dst := vaAt bs 16
    len := fieldAt bs 24 4, rows := if rows then fieldAt bs 32 4 else 1
    srcPitch := if rows then fieldAt bs 36 4 else 0, dstPitch := if rows then fieldAt bs 40 4 else 0
    swap := if fill then 0 else fieldAt bs 29 1 % 8, pattern := BitVec.ofNat 64 (fieldAt bs 32 8), start := s.stamp }

/-- A field out of range, a reserved SWAP, or a LENGTH that is no multiple of the SWAP unit (R719). -/
def xferBad (o : XferOp) : Bool :=
  o.len == 0 || o.swap ≥ 6 || o.len % swapUnit o.swap != 0 ||
    (o.type == 0x81 && (o.len > 2 ^ 24 || o.rows == 0 || o.rows > 65535 || (o.srcPitch != 0 && o.srcPitch < o.len) ||
      o.dstPitch < o.len))

/-- Why a packet moves no byte (R717, R731, R747), the lowest code first. DEDUCED, unsafe: log 24. -/
def xferRefused (s : State) (o : XferOp) : Option Nat :=
  if !(getFn s o.queue.ctx.tenant).grant.chans.getLsbD o.ch then some 0x0701
  else if (o.swap == 3 || o.swap == 5) && isFunnel o.ch then some 0x0702
  else if inSepia s && o.ch ≥ 4 then some 0x0703
  else none

/-- Bytes of a packet. -/
def XferOp.total (o : XferOp) : Nat := o.len * o.rows

/-- The source VA of a byte of a packet (R719). -/
def XferOp.srcAt (o : XferOp) (off : Nat) : Nat := (o.src + off / o.len * o.srcPitch + off % o.len) % 2 ^ 64

/-- The destination VA of a byte of a packet (R719). -/
def XferOp.dstAt (o : XferOp) (off : Nat) : Nat := (o.dst + off / o.len * o.dstPitch + off % o.len) % 2 ^ 64

/-- The VA that a record of a transfer names, with the byte offset reached (R744, Table 18-4). -/
def xferRec (s : State) (o : XferOp) (code scope va off : Nat) : ErrRec :=
  { queueRec s code scope o.queue with
    tag := o.tag, addr := .va va, loc := { unit := .channel, index := o.ch }
    detail := detailOf o.type 0 off (off / 2 ^ 32) }

/-- An error completion of a transfer packet (Table 16-6). -/
def xferError (s : State) (o : XferOp) (code va off : Nat) : State :=
  errorPkt s o.queue o.pkt code (.va va) { unit := .channel, index := o.ch } (detailOf o.type 0 off (off / 2 ^ 32))

/-- Accesses of a channel. -/
def onChannel (ch : Nat) : Client → Bool
  | .xferRead _ c _ => c == ch
  | .xferWrite _ c _ => c == ch
  | _ => false

/-- An access has not left its NI. -/
def atItsNi (a : Access) : Bool := a.stage == .atNi || a.stage == .held

/-- A channel's reads are abandoned and its writes that have not left the NI are not made; the channel is free (Table 16-6). -/
def dropChannel (s : State) (ch : Nat) : State :=
  let keep : Nat × Access → Option (Nat × Access) := fun e =>
    if !onChannel ch e.2.client then some e
    else if e.2.kind.isWrite then (if atItsNi e.2 then none else some e)
    else match e.2.stage with
      | .onLink .. => some (e.1, { e.2 with dropped := true })
      | _ => none
  { s with
    traffic := { s.traffic with accesses := s.traffic.accesses.filterMap keep }
    xfer := { s.xfer with active := tblErase s.xfer.active ch } }

/-- A translation fault of an active packet: bytes already written stand, and no further write is made (R739, Table 16-6). -/
def xferFault (s : State) (o : XferOp) (e : XFault) (va off : Nat) : State :=
  xferError (tableKill (dropChannel s o.ch) o.queue.ctx va e) o e.code va off

/-- The state with a channel's packet set. -/
def putXfer (s : State) (o : XferOp) : State :=
  { s with xfer := { s.xfer with active := tblSet s.xfer.active o.ch o } }

/-! Reads -/

/-- Bytes of a channel's staging buffer (R722). DEDUCED, unsafe: log 24. -/
def stagingBytes : Nat := 4096

/-- Bytes of the read that starts at an offset: to the end of the row or of the 128-byte source line (R723). -/
def XferOp.readLen (o : XferOp) (off : Nat) : Nat := min (o.len - off % o.len) (128 - o.srcAt off % 128)

/-- One read of an active packet (R720, R723). -/
def xferReadAccess (s : State) (o : XferOp) (off : Nat) (h : Home) (l : Leaf) : Access :=
  let va := o.srcAt off
  lineAccess s (.xferRead o.queue o.ch off) (xferNi o.ch) o.queue.ctx (queuePrio s o.queue) (va / 128 * 128) (lineHome h va)
    (leafShared l) (lineSecs (va / 128 * 128) (o.readLen off) [va]) .read

/-- Reads are issued while the buffer has room (R723); at most `fuel` of them. -/
def issueReads (s : State) (o : XferOp) : Nat → State
  | 0 => putXfer s o
  | k + 1 =>
    let n := o.readLen o.issued
    if o.stopping || o.issued ≥ o.total || o.issued + n - o.written > stagingBytes then putXfer s o
    else match translate s o.queue.ctx (o.srcAt o.issued) .load with
      | .error e => xferFault s o e (o.srcAt o.issued) o.issued
      | .ok (h, l) => issueReads (enterFabric s (xferReadAccess s o o.issued h l)) { o with issued := o.issued + n } k

/-! Writes -/

/-- The size of a funnel's head or tail write: the largest of 16, 8, 4, 2 and 1 that is aligned at the address and does not
pass the end (R726). -/
def funnelSize (a rest : Nat) : Nat := ([16, 8, 4, 2, 1].find? fun n => a % n == 0 && n ≤ rest).getD 1

/-- The length of the write at an address with so many bytes of the row left (R726, R727). DEDUCED, unsafe: log 24. -/
def writeLen (funnel : Bool) (a rest : Nat) : Nat :=
  if funnel && (a % 32 ≠ 0 || rest < 32) then funnelSize a rest
  else if funnel then min (128 - a % 128) (rest / 32 * 32)
  else min (128 - a % 128) rest

/-- Bytes received, up to a whole SWAP unit. -/
def XferOp.ready (o : XferOp) : Nat := (o.base + o.buf.length) / swapUnit o.swap * swapUnit o.swap

/-- The offset of the source byte that goes to an offset of the destination (R730). -/
def XferOp.swapped (o : XferOp) (off : Nat) : Nat :=
  let u := swapUnit o.swap
  off / u * u + swapIndex o.swap (off % u)

/-- The byte that a copy writes at an offset, with its poison (R730). -/
def XferOp.byteAt (o : XferOp) (off : Nat) : Byte × Bool := o.buf.getD (o.swapped off - o.base) (0#8, false)

/-- The byte that a packet writes at an offset (R719, R730). -/
def XferOp.outByte (o : XferOp) (off : Nat) : Byte × Bool :=
  if o.type = 0x82 then (o.pattern.extractLsb' (8 * (off % 8)) 8, false) else o.byteAt off

/-- One write of an active packet (R726 to R728): its bytes from an offset, and the destination sectors that are poison. -/
def xferWriteAccess (s : State) (o : XferOp) (off n : Nat) (h : Home) (l : Leaf) : Access :=
  let va := o.dstAt off
  let data := (List.range n).map fun k => (va % 128 + k, o.outByte (off + k))
  let bad := ((data.filter fun e => e.2.2).map fun e => e.1 / 32).eraseDups
  let a := lineAccess s (.xferWrite o.queue o.ch off) (xferNi o.ch) o.queue.ctx (queuePrio s o.queue) (va / 128 * 128)
    (lineHome h va) (leafShared l) (lineSecs (va / 128 * 128) n [va]) (.write (data.map fun e => (e.1, e.2.1)) false)
  { a with flitPoison := bad }

/-- XFER_POISON is written at the first poisoned byte of a packet, with the VA of the source byte (R744, Table 16-6). -/
def notePoison (s : State) (o : XferOp) (off n : Nat) : State × XferOp :=
  match (rangeFrom off n).find? fun k => (o.outByte k).2 with
  | some k =>
    if o.poisoned then (s, o)
    else (detect s (xferRec s o 0x0700 0 (o.srcAt (o.swapped k)) k), { o with poisoned := true })
  | none => (s, o)

/-- The buffer without the bytes that no later write needs. -/
def trimBuf (o : XferOp) : XferOp :=
  let keep := o.written / swapUnit o.swap * swapUnit o.swap
  if o.type = 0x82 || keep ≤ o.base then o else { o with base := keep, buf := o.buf.drop (keep - o.base) }

/-- Writes are made in ascending order while their bytes are ready, up to `limit`; a stopping channel writes every byte it
holds (R723, R726, R727, R735). At most `fuel` of them. -/
def issueWrites (s : State) (o : XferOp) (limit : Nat) : Nat → State
  | 0 => putXfer s (trimBuf o)
  | k + 1 =>
    let off := o.written
    let rest := o.len - off % o.len
    let whole := writeLen (isFunnel o.ch) (o.dstAt off) rest
    let n := if off + whole ≤ limit then whole
      else if o.stopping && off < limit then writeLen (isFunnel o.ch) (o.dstAt off) (min rest (limit - off))
      else 0
    if n = 0 || off ≥ o.total then putXfer s (trimBuf o)
    else match translate s o.queue.ctx (o.dstAt off) .store with
      | .error e => xferFault s o e (o.dstAt off) off
      | .ok (h, l) =>
        let (s, o) := notePoison s o off n
        issueWrites (enterFabric s (xferWriteAccess s o off n h l)) { o with written := off + n } limit k

/-- Writes in a staging buffer's worth of bytes: each is at least one byte. -/
def writeFuel : Nat := 4096

/-- The packet that holds a channel goes on: the writes that are ready, then the reads that have room; a fill writes up to
4 KiB. -/
def pumpXfer (s : State) (ch : Nat) : State :=
  match tblGet s.xfer.active ch with
  | none => s
  | some o =>
    if o.type = 0x82 then (if o.stopping then s else issueWrites s o (min o.total (o.written + stagingBytes)) writeFuel)
    else
      let s := issueWrites s o (min o.total o.ready) writeFuel
      match tblGet s.xfer.active ch with
      | none => s
      | some o => issueReads s o 64

/-! Taking a channel -/

/-- R716's order of waiting packets, as a list. -/
def xferKey (s : State) (o : XferOp) : List Nat :=
  [3 - queuePrio s o.queue, o.start, o.queue.ctx.tenant, o.queue.ctx.idx, o.queue.q]

/-- The packet that takes a channel next (R716). -/
def nextXfer (s : State) (ch : Nat) : Option XferOp :=
  (s.xfer.waiting.filter fun o => o.ch == ch && (getQueue s o.queue).any (fun r => r.preempting.isNone)).foldl
    (fun acc o => match acc with
      | none => some o
      | some a => if lexLt (xferKey s o) (xferKey s a) then some o else some a) none

/-- The transfer domain serves (R748, R736); a watchdog halt runs no transfer packet (R847). -/
def xferOn (s : State) : Bool := domOn s 71 && (getDom s 71).policy != .forceOff && s.lock.mode != .halted

/-- The next packet takes a free channel. -/
def takeChannel (s : State) (ch : Nat) : State :=
  if (tblGet s.xfer.active ch).isSome || !xferOn s then s
  else match nextXfer s ch with
    | none => s
    | some o =>
      pumpXfer (putXfer { s with xfer := { s.xfer with waiting := s.xfer.waiting.filter fun x => x ≠ o } } o) ch

/-! Stopping -/

/-- A read of a channel is outstanding: it has a tag or is on its way (R735, R774). -/
def readsOut (s : State) (ch : Nat) : Bool :=
  s.traffic.accesses.any fun e => !e.2.dropped && !tagless e.2 && match e.2.client with
    | .xferRead _ c _ => c == ch
    | _ => false

/-- A write of a channel has not left the engine's NI (R732). -/
def writesAtNi (s : State) (ch : Nat) : Bool :=
  s.traffic.accesses.any fun e => !e.2.dropped && atItsNi e.2 && match e.2.client with
    | .xferWrite _ c _ => c == ch
    | _ => false

/-- A stopping channel has no read outstanding, holds nothing that it could write, and its writes have left (R735). A packet with
every byte written is complete at its pulse, and is not saved (R738). -/
def xferStopped (s : State) (ch : Nat) (o : XferOp) : Bool :=
  o.stopping && o.written < o.total && !readsOut s ch && !writesAtNi s ch && (o.type == 0x82 || o.ready ≤ o.written)

/-- A stopped packet leaves its channel with its progress: the bytes written. It is saved with its queue, or waits where only
the transfer domain was stopped (R735, R736, Table 17-4). DEDUCED, unsafe: log 24. -/
def saveXfer (s : State) (ch : Nat) (o : XferOp) : State :=
  let o : XferOp := { o with issued := o.written, pieces := [], base := o.written / swapUnit o.swap * swapUnit o.swap, buf := [],
                             stopping := false }
  let o : XferOp := { o with issued := o.base }
  let pre := (getQueue s o.queue).any fun r => r.preempting.isSome
  let read : Nat × Access → Bool := fun e => match e.2.client with
    | .xferRead _ c _ => c == ch && !e.2.dropped
    | _ => false
  { s with
    traffic := { s.traffic with accesses := s.traffic.accesses.filter fun e => !read e }
    xfer := { s.xfer with
      active := tblErase s.xfer.active ch
      saved := if pre then s.xfer.saved ++ [o] else s.xfer.saved
      waiting := if pre then s.xfer.waiting else s.xfer.waiting ++ [o] } }

end Sys2Proof.Machine
end

