-- ==== Sys2Proof/Machine/Sched.lean ====
section
/-!
DEFINITION. Compute and matrix dispatches, the placement of workgroups, pre-emption, and the end of a forfeit's writes
(spec 10, 12, 17, 18).
-/

namespace Sys2Proof.Machine

/-! Dispatch packets -/

/-- Words X, Y and Z of a grid, out of range (Table 10-1). -/
def gridBad (g : Nat × Nat × Nat) : Bool := g.1 > 2 ^ 31 || g.2.1 > 65535 || g.2.2 > 65535

/-- A grid with a word 0. -/
def gridEmpty (g : Nat × Nat × Nat) : Bool := g.1 == 0 || g.2.1 == 0 || g.2.2 == 0

/-- A dispatch's workgroup does not fit an empty core (R461, R563). DEDUCED, unsafe: log 23. -/
def unfit (x : Dispatch) : Bool :=
  let g := x.groupCount
  (g + 3) / 4 > min 12 (64 / x.vregs) || match x.drive with
    | some acc => 8 * g > 64 || g * acc > 64
    | none => false

/-- The dispatch of a packet's body with its grid and drive (Table 10-1). -/
def dispatchOf (s : State) (q : QueueId) (p : Pkt) (bs : List Byte) (grid : Nat × Nat × Nat) (drive : Option Nat) : Dispatch :=
  { queue := q, pkt := p.num, tag := p.tag, progVa := vaAt bs 8, grid := grid
    wgDims := (fieldAt bs 24 2, fieldAt bs 26 2, fieldAt bs 28 2), vregs := fieldAt bs 30 1, clusters := fieldAt bs 31 1 % 64
    lsBytes := fieldAt bs 32 4, privBytes := fieldAt bs 36 4, argVa := vaAt bs 40, privVa := vaAt bs 48, drive := drive
    ready := s.stamp, code := s.cores.overwritten.length }

/-- A field of a dispatch is out of range (Table 10-1). -/
def dispatchBad (x : Dispatch) : Bool :=
  let n := x.wgDims.1 * x.wgDims.2.1 * x.wgDims.2.2
  x.progVa % 8 != 0 || n == 0 || n > 1024 || x.vregs == 0 || x.vregs > 32 || x.lsBytes > 65536 ||
    x.privBytes > 65536 || x.privBytes % 16 != 0 || x.argVa % 64 != 0 || x.privVa % 256 != 0

/-- A dispatch starts: a bad field, a workgroup that fits no core, an empty grid, or a grid to place (R451, R461). -/
def startDispatch (s : State) (q : QueueId) (p : Pkt) (x : Dispatch) (accBad indirect : Bool) : State :=
  if dispatchBad x || accBad || gridBad x.grid || (!indirect && gridEmpty x.grid) then badField s q p
  else if gridEmpty x.grid then completePkt s q p.num
  else if unfit x then errorPkt s q p.num 0x0507 .none { unit := .queueEngine } 0#128
  else { s with cores := { s.cores with
      dispatches := s.cores.dispatches ++ [(s.cores.nextDispatch, x)], nextDispatch := s.cores.nextDispatch + 1 } }

/-- GRID_X, GRID_Y and GRID_Z of a packet. -/
def gridOf (bs : List Byte) : Nat × Nat × Nat := (fieldAt bs 16 4, fieldAt bs 20 2, fieldAt bs 22 2)

/-- The drive of a matrix packet: ACC_TILES of single-issuer groups, none for cooperative fragments (Table 12-3). -/
def driveOf (bs : List Byte) : Option Nat := if bitNat (fieldAt bs 65 1) 0 then none else some (fieldAt bs 64 1)

/-- ACC_TILES out of range (Table 12-3). -/
def accTilesBad (bs : List Byte) : Bool := fieldAt bs 64 1 > 64

/-- DISPATCH (0x40): a grid of workgroups (R450 to R454). -/
def execDispatch (q : QueueId) (t : Stamp) (s : State) : Out :=
  .next (packetRow (s.upTo t) q 0x40 anyBytes anyTime fun s p bs =>
    startDispatch s q p (dispatchOf s q p bs (gridOf bs) none) false false)

/-- MDISPATCH (0x60): a dispatch with ACC_TILES and a drive mode (R561). -/
def execMdispatch (q : QueueId) (t : Stamp) (s : State) : Out :=
  .next (packetRow (s.upTo t) q 0x60 anyBytes anyTime fun s p bs =>
    startDispatch s q p (dispatchOf s q p bs (gridOf bs) (driveOf bs)) (accTilesBad bs) false)

/-- GRID_VA of an indirect packet (Table 10-1). -/
def gridVa (bs : List Byte) : Nat := vaAt bs 56

/-- The grid words of an indirect packet as its queue engine reads them (R451). -/
def readGrid (s : State) (q : QueueId) (bs : List Byte) : Reading := engineRead s (queueEngine s q) .load (gridVa bs) 12

/-- An indirect packet waits for its grid words. -/
def gridHold (q : QueueId) (s : State) (bs : List Byte) : Option State :=
  if gridVa bs % 4 ≠ 0 then none
  else match readGrid s q bs with
    | .wait s => some s
    | _ => none

/-- A failed read of grid words kills the context as a load would (R451). -/
def gridFault (s : State) (q : QueueId) (p : Pkt) (code va : Nat) : State :=
  killContext s q.ctx { ctxRec s code 3 (faultLetters code) q.ctx with
    queue := some q.q, tag := p.tag, addr := .va va, loc := { unit := .queueEngine } }

/-- The dispatch of an indirect packet starts with the grid words read (R451). -/
def indirectDispatch (s : State) (q : QueueId) (p : Pkt) (bs : List Byte) (drive : Option Nat) (accBad : Bool) : State :=
  if gridVa bs % 4 ≠ 0 then badField s q p
  else match readGrid s q bs with
    | .wait s => s
    | .fault e va => gridFault s q p e.code va
    | .ready g => match cleanBytes g with
      | none => gridFault s q p 0x0500 (gridVa bs)
      | some g => startDispatch s q p (dispatchOf s q p bs (fieldAt g 0 4, fieldAt g 4 4, fieldAt g 8 4) drive) accBad true

/-- DISPATCH_INDIRECT (0x41): the grid is read from memory when the packet starts (R451). -/
def execDispatchIndirect (q : QueueId) (t : Stamp) (s : State) : Out :=
  .next (packetRow (s.upTo t) q 0x41 anyBytes (gridHold q) fun s p bs =>
    indirectDispatch s q p bs none false)

/-- MDISPATCH_INDIRECT (0x61): an indirect matrix dispatch (R561). -/
def execMdispatchIndirect (q : QueueId) (t : Stamp) (s : State) : Out :=
  .next (packetRow (s.upTo t) q 0x61 anyBytes (gridHold q) fun s p bs =>
    indirectDispatch s q p bs (driveOf bs) (accTilesBad bs))

/-! Placement -/

/-- WORKGROUP_PLACE: the next workgroup of a dispatch goes to the lowest-indexed powered core on which it fits, or that core
is woken (R460, R493, R755, R766). -/
def execWorkgroupPlace (d core : Nat) (t : Stamp) (s : State) : Out :=
  let s := s.upTo t
  match tblGet s.cores.dispatches d with
  | none => .next s
  | some x =>
    match placeCore s d x with
    | some k =>
      if k ≠ core || outranked s core (orderKey s x.queue x.ready) then .next s
      else .next (withArgs s x.queue x.tag core x.argVa fun s bs => launchWg s d x core bs)
    | none =>
      match wakeFor s d x with
      | some k => .next (if k = core then requestWake s core else s)
      | none => .next s

/-- A dispatch ranks above every other that has workgroups to place. -/
def topDispatch (s : State) (d : Nat) (x : Dispatch) : Bool :=
  !(s.cores.dispatches.any fun e =>
    e.1 != d && dispatchReady s e.2 && lexLt (orderKey s e.2.queue e.2.ready) (orderKey s x.queue x.ready))

/-- PLACEMENT_RESERVE: the highest-ranked workgroup has waited more than 100 us: the lowest-indexed eligible core on which
it would fit, were it empty, is reserved for it (R756, R786). -/
def execPlacementReserve (d core : Nat) (t : Stamp) (s : State) : Out :=
  let s := s.upTo t
  match tblGet s.cores.dispatches d with
  | none => .next s
  | some x =>
    let held := s.cores.reserve.any fun e => e.2 == d
    let first := (eligibleCores s d x).find? fun c => fitsLess s c x.need fun _ => true
    if timed s && dispatchReady s x && topDispatch s d x && !held && heldMoreThan x.ready s.stamp 100000 && first == some core then
      .next { s with cores := { s.cores with reserve := tblSet s.cores.reserve core d } }
    else .next s

/-! Pre-emption -/

/-- The dispatch of a queue whose workgroup waits, highest-ranked first. -/
def waitingDispatch (s : State) (q : QueueId) : Option (Nat × Dispatch) :=
  s.cores.dispatches.find? fun e => e.2.queue == q && dispatchReady s e.2

/-- The victims' groups stop at FINE; where a victim's code is another, it runs to exit and the core is kept for the waiting
workgroup (R757, Table 17-1). DEDUCED, unsafe: log 23. -/
def startCorePreempt (s : State) (d core : Nat) (vs : List (Nat × Workgroup)) : State :=
  let fine := (vs.filter fun e => preemptCode s e.2.queue == 0).map Prod.fst
  let s := stopWgs s fine.contains
  if fine.length = vs.length then s
  else { s with cores := { s.cores with reserve := tblSet s.cores.reserve core d } }

/-- A queue's transfer packet waits for a channel that a lower-ranked queue's packet holds (R759). -/
def wantsChannel (s : State) (q victim : QueueId) : Bool :=
  s.xfer.waiting.any fun o => o.queue == q && match tblGet s.xfer.active o.ch with
    | some a => a.queue == victim && lexLt (orderKey s q o.start) (orderKey s victim a.start)
    | none => false

/-- A frame of a queue has work for the Binner: a draw in progress. -/
def readyToBind (s : State) (q : QueueId) : Bool :=
  match tblGet s.gfx.frames q with
  | some f => !f.draws.isEmpty && !f.flushing && (getQueue s q).any (fun r => r.preempting.isNone)
  | none => false

/-- A queue's frame is ready to bind while the Binner serves a lower-ranked queue's (R758). -/
def wantsBinner (s : State) (q victim : QueueId) : Bool :=
  s.gfx.bound == some victim && q != victim && readyToBind s q && lexLt (queueKey s q) (queueKey s victim)

/-- PREEMPT_DECISION: a core pre-emption for a workgroup that fits nowhere, or a queue pre-emption for a channel or the
Binner (R757 to R759, R762). -/
def execPreemptDecision (q : QueueId) (kind : PreemptKind) (t : Stamp) (s : State) : Out :=
  let s := s.upTo t
  match kind with
  | .core c =>
    match waitingDispatch s q with
    | none => .next s
    | some (d, x) =>
      match corePreempt s d x with
      | some (core, vs) => .next (if core = c then startCorePreempt s d core vs else s)
      | none => .next s
  | .queue victim =>
    let fresh := (getQueue s victim).any fun r => r.preempting.isNone
    if placeable s q && fresh && (wantsChannel s q victim || wantsBinner s q victim) then
      .next (preemptQueue s victim (preemptCode s victim))
    else .next s

/-- Queues that hold a core with groups of a class and no deadline throughout a window (R760). -/
def heldThrough (s : State) (core prio b : Nat) : Bool :=
  match tblGet s.cores.classSince (core, prio) with
  | some since => since + 1000000 ≤ b
  | none => false

/-- A queue was ready for the whole window that ends at b, placed no work in it, and queues of its class and standing held
every core that is eligible for it (R760). -/
def starved (s : State) (d : Nat) (x : Dispatch) (b : Nat) : Bool :=
  let cores := eligibleCores s d x
  dispatchReady s x && noDeadline s x.queue && x.ready + 1000000 ≤ b &&
    ((getQueue s x.queue).map Queue.lastPlaced).getD 0 + 1000000 ≤ b && !cores.isEmpty &&
    cores.all fun c => heldThrough s c (queuePrio s x.queue) b

/-- Queues of a class without a deadline, other than one, that hold a core eligible for a dispatch and are not being
pre-empted. -/
def sliceHolders (s : State) (d : Nat) (x : Dispatch) : List QueueId :=
  let on := s.cores.groups.filter fun e =>
    (eligibleCores s d x).contains e.2.core && e.2.queue != x.queue && noDeadline s e.2.queue &&
      queuePrio s e.2.queue == queuePrio s x.queue && (getQueue s e.2.queue).any (fun r => r.preempting.isNone)
  (on.map fun e => e.2.queue).eraseDups

/-- The lowest-ranked of some queues. -/
def lowestQueue (s : State) (qs : List QueueId) : Option QueueId :=
  qs.foldl (fun acc q => match acc with
    | none => some q
    | some r => if lexLt (queueKey s r) (queueKey s q) then some q else some r) none

/-- TIME_SLICE_BOUNDARY: at a multiple of 1 ms each starved queue pre-empts the lowest-ranked holder at its granularity
(R760, R782, R786). -/
def execTimeSliceBoundary (t : Stamp) (s : State) : Out :=
  let s := s.upTo t
  if timed s && s.stamp == t && t % 1000000 == 0 then
    .next (s.cores.dispatches.foldl (fun s e =>
      if starved s e.1 e.2 t then
        match lowestQueue s (sliceHolders s e.1 e.2) with
        | some x => preemptQueue s x (preemptCode s x)
        | none => s
      else s) s)
  else .next s

/-! Stop, save and restore -/

/-- GROUP_STOP_COMPLETE: a stopping group's accesses have returned and its tokens have resolved; reads not performed and the
operations they hold back are recorded (R765, R774, Table 17-4). -/
def execGroupStopComplete (slot : Nat) (t : Stamp) (s : State) : Out :=
  let s := s.upTo t
  match getGroup s slot with
  | none => .next s
  | some g =>
    if !g.stopping || g.stopped || !stopMet s slot g then .next s
    else
      let reads := toReplay s slot g
      let ops := opsToReplay s slot g
      let s := reads.foldl (fun s e => removeAccess s e.1) s
      let s : State := { s with madders := { s.madders with ops := s.madders.ops.filter fun e => !(ops.any fun o => o.1 == e.1) } }
      .next (putGroup s slot { g with
        stopped := true, replays := g.replays ++ reads.map Prod.snd, replayOps := g.replayOps ++ ops })

/-- A workgroup whose every group has stopped or exited, and some has stopped. -/
def wgStopped (s : State) (wg : Nat) : Bool :=
  let gs := s.cores.groups.filter fun e => e.2.wg == wg
  (gs.any fun e => e.2.stopped) && gs.all fun e => e.2.stopped || groupExited e.2

/-- A stopped workgroup leaves its core for the save area (R766, R768). -/
def saveWg (s : State) (wg : Nat) (x : Workgroup) : State :=
  let gs := s.cores.groups.filter fun e => e.2.wg == wg && e.2.stopped
  let s := gs.foldl (fun s e => dropFetches s e.1) s
  { s with cores := { s.cores with
      groups := s.cores.groups.filter fun e => e.2.wg != wg || !e.2.stopped
      wgs := tblErase s.cores.wgs wg
      saved := s.cores.saved ++ [(wg, { wg := x, groups := gs.map Prod.snd, since := s.stamp })] } }

/-- SAVE_COMPLETE: the save of what a queue has stopped is written, and the cores and channels are free (R768, R771). -/
def execSaveComplete (q : QueueId) (t : Stamp) (s : State) : Out :=
  let s := s.upTo t
  let ready := s.cores.wgs.filter fun e => e.2.queue == q && wgStopped s e.1
  let ops := s.xfer.active.filter fun e => e.2.queue == q && xferStopped s e.1 e.2
  let s := ready.foldl (fun s e => saveWg s e.1 e.2) s
  .next (ops.foldl (fun s e => saveXfer s e.1 e.2) s)

/-- QUEUE_RESUME: a pre-empted queue whose work has stopped leaves STOPPED, its saved transfers wait for their channels again, and
its wait is evaluated again at once (R764, R773). -/
def execQueueResume (q : QueueId) (t : Stamp) (s : State) : Out :=
  let s := s.upTo t
  match getQueue s q with
  | none => .next s
  | some r =>
    if !r.stops.contains .preempt || !stopComplete s q r || !placeable s q then .next s
    else
      let back := s.xfer.saved.filter fun o => o.queue == q
      let s : State := { s with xfer := { s.xfer with
          saved := s.xfer.saved.filter fun o => o.queue != q, waiting := s.xfer.waiting ++ back } }
      .next (settleQueue (modQueue s q fun r =>
        { r with stops := removeAll r.stops .preempt, preempting := none, wait := r.wait.map fun w => { w with due := true } }) q)

/-- A read that is issued again fails translation: a load or a sampler request kills its context, a Madder load is a fault that its
operation holds (Table 07-9, R329, R347). -/
def replayFault (s : State) (slot : Nat) (g : Group) (a : Access) (e : XFault) : State :=
  let lanes := fun (ls : List Nat) => BitVec.ofNat 32 ((ls.map fun l => 2 ^ l).sum)
  match a.client with
  | .groupLoad _ n =>
    match g.loads.find? fun x => x.num == n with
    | some x => groupFault s slot g e.code (.va a.va) x.pc (lanes (x.lanes.map Prod.fst)) { base := x.base, ext := x.ext }
    | none => s
  | .sampler _ n =>
    match g.samples.find? fun x => x.num == n with
    | some x => groupFault s slot g e.code (.va a.va) x.pc (lanes x.lanes) { base := x.base, ext := x.ext }
    | none => s
  | .madderLoad _ op => modOp s op fun o => { o with fault := some (o.fault.getD (e.code, .va a.va, 0)) }
  | _ => s

/-- A read that a stop recorded is a new request, under the translation of now (R347, R775). -/
def replayRead (s : State) (slot core : Nat) (g : Group) (a : Access) : State :=
  match translate s g.ctx a.va .load with
  | .error e => replayFault s slot g a e
  | .ok (h, l) =>
    enterFabric s { a with
      home := lineHome h a.va, shared := leafShared l, ni := coreNi core, part := a.ctx.bind (chargePart s), stage := .atNi
      bytes := [], got := 0, poison := false, fillPoison := [], flitPoison := [], fills := [], ended := none }

/-- A saved group's recorded operations and reads are handed over again in its new slot (Table 17-4, R775). -/
def replayGroup (s : State) (slot core : Nat) (g : Group) : State :=
  let base := s.madders.nextOp
  let renumber := fun (k : Nat) => base + ((g.replayOps.zipIdx.find? fun e => e.1.1 == k).map Prod.snd).getD 0
  let ops := g.replayOps.zipIdx.map fun e => (base + e.2, { e.1.2 with group := slot, core := core })
  let s : State := { s with madders := { ops := s.madders.ops ++ ops, nextOp := base + ops.length } }
  let s := g.replays.foldl (fun s a => replayRead s slot core g { a with client := reslot slot renumber a.client }) s
  putGroup s slot { g with replays := [], replayOps := [] }

/-- A saved workgroup takes its place on a core (R766, R591). -/
def restoreWg (s : State) (wg core : Nat) (x : SavedWg) : State :=
  let slots := assignSlots s core (baseSched (groupsOn s core fun _ => false)) x.groups.length
  let groups := (slots.zip x.groups).map fun e =>
    (e.1.2, { e.2 with core := core, sched := e.1.1, stopping := false, stopped := false })
  let s : State := { s with cores := { s.cores with
      groups := s.cores.groups ++ groups, wgs := s.cores.wgs ++ [(wg, { x.wg with core := core })]
      lsEver := tblSet s.cores.lsEver core (tblGetD s.cores.lsEver core 0 + alignUp x.wg.lsBytes 512)
      saved := tblErase s.cores.saved wg } }
  groups.foldl (fun s e => replayGroup s e.1 core e.2) s

/-- RESTORE_COMPLETE: a saved workgroup is restored to a core; `lost` says that the save area read as poison, which kills
the context (R766, R771, R775, R788). -/
def execRestoreComplete (wg core : Nat) (lost : Bool) (t : Stamp) (s : State) : Out :=
  let s := s.upTo t
  match tblGet s.cores.saved wg with
  | none => .next s
  | some x =>
    if !restorable s x core || outranked s core (orderKey s x.wg.queue x.since) then .next s
    else if lost then
      .next (killContext s x.wg.queue.ctx { ctxRec s 0x0711 3 [.t, .d] x.wg.queue.ctx with
        queue := some x.wg.queue.q, tag := ((x.groups.head?).map Group.tag).getD 0#32, loc := { unit := .mordant } })
    else .next (restoreWg s wg core x)

/-! The end of a forfeit -/

/-- FORFEIT_WRITES_PERFORMED: a forfeit goes on where the writes of its set are performed (R809, Table 18-8), with a checkpoint at
each step (R833). A watchdog halt holds
every forfeit but that of the warm reset that ends it (R847). -/
def execForfeitWritesPerformed (k : Nat) (t : Stamp) (s : State) : Out :=
  let s := s.upTo t
  match s.forfeits[k]? with
  | none => .next s
  | some f => .next (if s.lock.mode == .halted && !inWarm s then s else takeCheckpoint (stepForfeit s k f))

end Sys2Proof.Machine
end

