-- ==== Sys2Proof/Machine/MailboxOps.lean ====
section
/-!
DEFINITION. What every Onaeno command shares (spec 05): the catalogue's classes and issuers, arguments, claims, the service
order with its waits, the causes common to all commands, and running a command.
-/

namespace Sys2Proof.Machine

/-! Arguments -/

/-- A command's ARGn, 0 for BODY0 (Table 05-2). -/
def argN (cmd : List Word) (n : Nat) : Nat := (cmd.getD n 0#32).toNat

/-- Bits [hi:lo] of ARGn. -/
def argF (cmd : List Word) (n hi lo : Nat) : Nat := bitsNat (argN cmd n) hi lo

/-- CODE of a command (Table 05-2). -/
def cmdCode (cmd : List Word) : Nat := argF cmd 0 15 0

/-- A 48-bit VA in ARGn and bits [15:0] of the next argument. -/
def argVa (cmd : List Word) (n : Nat) : Nat := argN cmd n + argF cmd (n + 1) 15 0 * 2 ^ 32

/-- A 64-bit value in ARGn and the next argument. -/
def argWide (cmd : List Word) (n : Nat) : Nat := argN cmd n + argN cmd (n + 1) * 2 ^ 32

/-- A result word of a number. -/
def resWord (n : Nat) : Word := BitVec.ofNat 32 n

/-- The context that a command of a function names in A1[5:0]. -/
def argCtx (fn : Nat) (cmd : List Word) : CtxId := { tenant := fn, idx := argF cmd 1 5 0 }

/-- The context that a command names exists. -/
def ctxThere (s : State) (fn : Nat) (cmd : List Word) : Bool := (getCtx s (argCtx fn cmd)).isSome

/-! The catalogue (Tables 05-6 to 05-9) -/

/-- Who may issue a command. -/
inductive Issuer where
  | any | admin | dev
  deriving DecidableEq, Repr

/-- Availability of a command in Sepia mode. -/
inductive SepiaUse where
  | no | yes | only
  deriving DecidableEq, Repr

/-- A catalogue entry: class D, issuer and availability in Sepia mode. -/
structure CmdInfo where
  classD : Bool := false
  issuer : Issuer := .any
  sepia : SepiaUse := .no
  deriving DecidableEq, Repr

/-- The catalogue entry of a code, none where the code is absent (R188, R210). -/
def cmdInfo : Nat → Option CmdInfo
  | 0x0001 => some { sepia := .yes }
  | 0x0002 => some { sepia := .yes }
  | 0x0010 => some {}
  | 0x0011 => some { classD := true }
  | 0x0012 => some { classD := true }
  | 0x0013 => some {}
  | 0x0020 => some {}
  | 0x0021 => some { classD := true }
  | 0x0022 => some {}
  | 0x0030 => some {}
  | 0x0031 => some { classD := true }
  | 0x0032 => some { classD := true }
  | 0x0033 => some { classD := true }
  | 0x0040 => some { classD := true }
  | 0x0041 => some { classD := true }
  | 0x0042 => some { classD := true }
  | 0x0050 => some { classD := true }
  | 0x0100 => some { issuer := .admin }
  | 0x0101 => some { classD := true, issuer := .admin }
  | 0x0102 => some { classD := true, issuer := .admin }
  | 0x0103 => some { issuer := .admin }
  | 0x0104 => some { issuer := .admin }
  | 0x0105 => some { issuer := .admin, sepia := .yes }
  | 0x0200 => some { issuer := .dev }
  | 0x0201 => some { issuer := .dev }
  | 0x0202 => some { issuer := .admin, sepia := .yes }
  | 0x0203 => some { issuer := .dev }
  | 0x0204 => some { issuer := .dev }
  | 0x0205 => some { classD := true, issuer := .dev }
  | 0x0206 => some { classD := true, issuer := .dev }
  | 0x0207 => some { issuer := .dev }
  | 0x0208 => some { classD := true, issuer := .dev, sepia := .yes }
  | 0x0209 => some { classD := true, issuer := .dev }
  | 0x0300 => some { classD := true, issuer := .admin, sepia := .only }
  | 0x0301 => some { classD := true, issuer := .admin, sepia := .only }
  | 0x0302 => some { classD := true, issuer := .admin, sepia := .only }
  | _ => none

/-- A command is of class D (R200). -/
def isClassD (cmd : List Word) : Bool := ((cmdInfo (cmdCode cmd)).map CmdInfo.classD).getD false

/-- A target that a command of an administration function claims (R206). -/
inductive Claim where
  | tenant (fn : Nat)
  | everyTenant
  | share (id : Nat)
  | resource (code : Nat)
  deriving DecidableEq, Repr

/-- Two claims overlap. -/
def Claim.meets : Claim → Claim → Bool
  | .everyTenant, .tenant _ => true
  | .tenant _, .everyTenant => true
  | a, b => a == b

/-- What a command claims (Tables 05-7, 05-8). -/
def claimOf (cmd : List Word) : Option Claim :=
  match cmdCode cmd with
  | 0x0100 => some (.tenant (argF cmd 1 6 0))
  | 0x0101 => some (.tenant (argF cmd 1 6 0))
  | 0x0102 => some (.tenant (argF cmd 1 6 0))
  | 0x0104 => some (.share (argF cmd 1 15 0))
  | 0x0200 => some (.resource (argF cmd 1 7 0))
  | 0x0206 => some (.tenant (argF cmd 2 6 0))
  | 0x0208 => some .everyTenant
  | 0x0209 => some .everyTenant
  | _ => none

/-- Two commands claim overlapping targets. -/
def claimsMeet (a b : List Word) : Bool :=
  match claimOf a, claimOf b with
  | some x, some y => x.meets y
  | _, _ => false

/-- The context that a command of a tenant names (R203); CTX_CREATE with AUTO names none. -/
def namesCtx (cmd : List Word) : Option Nat :=
  let c := cmdCode cmd
  if (c = 0x10 && argF cmd 1 6 6 = 0) || (0x11 ≤ c && c ≤ 0x13) || (0x20 ≤ c && c ≤ 0x22) || (0x32 ≤ c && c ≤ 0x50) || 0x300 ≤ c then
    some (argF cmd 1 5 0) else none

/-- The memory handle that a command of a tenant names (R203). -/
def namesHandle (cmd : List Word) : Option Nat :=
  let c := cmdCode cmd
  if c = 0x31 then some (argN cmd 1)
  else if c = 0x32 && argF cmd 1 12 11 = 0 then some (argN cmd 4)
  else none

/-- Two commands of a tenant name one context or one handle; a queue is named with its context (R203). -/
def sameObject (a b : List Word) : Bool :=
  ((namesCtx a).isSome && namesCtx a == namesCtx b) || ((namesHandle a).isSome && namesHandle a == namesHandle b)

/-! Service order (R201 to R209) -/

/-- Accepted commands: slots in BUSY. -/
def busySlots (s : State) : List (SlotId × Slot) := s.slots.filter fun e => e.2.st == .busy

/-- The place of an accepted command in the order of R201: the lower list starts first. -/
def startKey (s : State) (k : SlotId) (v : Slot) : List Nat := [v.goStamp, if k.fn = devAdmin s then 0 else 1, k.fn, k.slot]

/-- Class D commands in progress (R202). -/
def inProgress (s : State) : Nat := ((busySlots s).filter fun e => e.2.started && isClassD e.2.cmd).length

/-- A context is under a context reset or a context destroy, by a command of its tenant or by a revoke (R214, R226). -/
def ctxEnding (s : State) (c : CtxId) : Bool :=
  s.forfeits.any fun f => f.parts.any fun p => p == .ctxReset c || p == .ctxDestroy c || p == .revokeReset c

/-- An earlier class D command of the same function is not complete on an object that the command names, or the context that it names
is being reset or destroyed (R203, R226). -/
def objectWait (s : State) (k : SlotId) (v : Slot) : Bool :=
  ((namesCtx v.cmd).any fun i => ctxEnding s { tenant := k.fn, idx := i }) || (busySlots s).any fun e =>
    e.1 ≠ k && e.1.fn == k.fn && isClassD e.2.cmd && sameObject e.2.cmd v.cmd &&
      (e.2.started || lexLt (startKey s e.1 e.2) (startKey s k v))

/-- A device administrator's command waits for an overlapping command of the other administration function that has started
(R209). -/
def claimWait (s : State) (k : SlotId) (v : Slot) : Bool :=
  k.fn == devAdmin s && (busySlots s).any fun e => e.2.started && isAdmin e.1.fn && e.1.fn != k.fn && claimsMeet e.2.cmd v.cmd

/-- A VAT_CONVERT waits for the VAT_CONVERT in progress (R383). -/
def convertWait (s : State) (v : Slot) : Bool := cmdCode v.cmd == 0x0205 && s.vat.converting.isSome

/-- A compose command waits for the compose in progress (R858). -/
def composeWait (s : State) (v : Slot) : Bool := (rangeFrom 0x0300 3).contains (cmdCode v.cmd) && s.compose.isSome

/-- A command waits, and those after it may start: 32 class D commands are in progress (R202), an object, a claim, a
conversion or the compose service is busy (R203, R209, R383, R858), or a tenant's command came at or after a loss of the crystal
reference and no warm device reset has followed (R229).
DEDUCED, unsafe: log 8. -/
def slotWaits (s : State) (k : SlotId) (v : Slot) : Bool :=
  (isClassD v.cmd && inProgress s ≥ 32) || objectWait s k v || claimWait s k v || convertWait s v || composeWait s v ||
    (crystalStops s && !isAdmin k.fn)

/-- The Mordant takes commands: start-up is complete, no warm reset restarts it, and the watchdog has not halted it (R847). -/
def takesCommands (s : State) : Bool := mordantServes s && !inWarm s

/-- An accepted command may start now (R201 to R203). DEDUCED, unsafe: log 8. -/
def startable (s : State) (k : SlotId) : Bool :=
  let v := getSlot s k
  takesCommands s && v.st == .busy && !v.started && !slotWaits s k v &&
    !((busySlots s).any fun e => !e.2.started && lexLt (startKey s e.1 e.2) (startKey s k v) && !slotWaits s e.1 e.2)

/-! Refusal causes (Table 05-14) -/

/-- Causes that a list of conditions gives. -/
def causesOf (l : List (Bool × Nat)) : List Nat := (l.filter Prod.fst).map Prod.snd

/-- Causes of the issuer: NOT_AUTHORISED and NOT_DEVICE_ADMIN (Table 05-14). -/
def issuerCauses (s : State) (fn : Nat) (i : CmdInfo) : List Nat :=
  causesOf [(i.issuer != .any && !isAdmin fn, 0x02), (i.issuer == .dev && isAdmin fn && fn != devAdmin s, 0x03)]

/-- A device-administrator command that claims an overlapping target is accepted and not complete (R208). -/
def conflicts (s : State) (k : SlotId) (cmd : List Word) : Bool :=
  isAdmin k.fn && k.fn != devAdmin s && (busySlots s).any fun e => e.1.fn == devAdmin s && claimsMeet e.2.cmd cmd

/-- The causes that apply to every command: UNKNOWN_CMD, the issuer's, ADMIN_CONFLICT, SEPIA and NOT_IN_SEPIA (R188, R208,
R211, R219). DEDUCED, unsafe: log 8. -/
def commonCauses (s : State) (k : SlotId) (cmd : List Word) : List Nat :=
  match cmdInfo (cmdCode cmd) with
  | none => [0x01]
  | some i =>
    issuerCauses s k.fn i ++ causesOf [(conflicts s k cmd, 0x0C), (inSepia s && i.sepia == .no, 0x12),
      (!inSepia s && i.sepia == .only, 0x13)]

/-! Running a command -/

/-- A slot whose command has started. -/
def markStarted (s : State) (k : SlotId) : State := setSlot s k { getSlot s k with started := true }

/-- A started command keeps its results until it completes; RES reads them only in DONE (R198). -/
def holdResult (s : State) (k : SlotId) (res : List Word) : State := setSlot s k { getSlot s k with res := res }

/-- A started command completes with the results it holds. -/
def finishHeld (s : State) (k : SlotId) : State := slotDone s k (getSlot s k).res

/-- The Mordant serves the command of a slot: it is refused with the lowest cause that applies and changes nothing (R189,
R221), or it starts. `mine` tells from the arguments that the command is the row's; `resume` is what a later event of the row
does for a command in progress. DESIGN CHOICE, safe: log 3. DEDUCED, unsafe: log 10. -/
def mbxRow (s : State) (k : SlotId) (code : Nat) (mine : List Word → Bool) (causes : State → SlotId → List Word → List Nat)
    (run resume : State → SlotId → List Word → State) : State :=
  let v := getSlot s k
  if v.st ≠ .busy || cmdCode v.cmd ≠ code || !mine v.cmd || !takesCommands s then s
  else if v.started then resume s k v.cmd
  else if !startable s k then s
  else match leastNat (commonCauses s k v.cmd ++ causes s k v.cmd) with
    | some c => slotRefuse s k c
    | none => run (markStarted s k) k v.cmd

/-- Every command of the code is the row's. -/
def anyCmd : List Word → Bool := fun _ => true

/-- No cause beside the common ones. -/
def noCauses : State → SlotId → List Word → List Nat := fun _ _ _ => []

/-- A command that completes when it starts has nothing to resume. -/
def noResume : State → SlotId → List Word → State := fun s _ _ => s

end Sys2Proof.Machine
end

