-- ==== Sys2Proof/Machine/PixelOps.lean ====
section
/-!
DEFINITION. FP32 arithmetic of the fixed-function units, exact rationals, and the pixel formats of Table 15-6: their layouts
and the conversions of R698 between them and FP32.
-/

namespace Sys2Proof.Machine

/-! Rationals and FP32 -/

/-- A value that narrows to every format as num / den does: the quotient with 160 further bits and a sticky bit. -/
def ratVal (neg : Bool) (num den : Nat) : FVal :=
  if den = 0 then (if num = 0 then .nan else .inf neg)
  else
    let n := num * 2 ^ 160
    let q := n / den
    let k := Nat.log2 den + 1
    let q2 := n * 2 ^ k / den
    let sticky := if n * 2 ^ k % den = 0 then 0 else 1
    if q2 = 0 && sticky = 0 then .fin neg 0 0
    else if q = 0 && sticky = 0 then .fin neg 0 0
    else .fin neg (2 * q2 + sticky) (-(161 + (k : Int)))

/-- The value of an integer ratio with a positive denominator. -/
def intRat (num : Int) (den : Nat) : FVal := ratVal (num < 0) num.natAbs den

/-- FP32 sum, RNE. -/
def f32Add (a b : Word) : Word := toF32 0 (faddExact false (f32 a) (f32 b))

/-- FP32 difference, RNE. -/
def f32Sub (a b : Word) : Word := toF32 0 (faddExact false (f32 a) (f32 b).neg)

/-- FP32 product, RNE. -/
def f32Mul (a b : Word) : Word := toF32 0 (fmulExact (f32 a) (f32 b))

/-- The quotient of two values, to be narrowed once (IEEE 754-2019). -/
def fdivVal : FVal → FVal → FVal
  | .nan, _ => .nan
  | _, .nan => .nan
  | .inf _, .inf _ => .nan
  | .inf a, .fin b _ _ => .inf (a != b)
  | .fin a _ _, .inf b => .fin (a != b) 0 0
  | .fin a m e, .fin b n f =>
    if n = 0 then (if m = 0 then .nan else .inf (a != b))
    else if m = 0 then .fin (a != b) 0 0
    else match ratVal (a != b) (m * 2 ^ 64) n with
      | .fin s q x => .fin s q (x + e - f - 64)
      | v => v

/-- FP32 quotient, RNE. -/
def f32Div (a b : Word) : Word := toF32 0 (fdivVal (f32 a) (f32 b))

/-- FP32 +0, 1 and -1. -/
def f32Zero : Word := 0#32
/-- FP32 1.0. -/
def f32One : Word := 0x3F800000#32

/-- a ≥ 0 as FP32; a NaN is not. -/
def f32Ge0 (a : Word) : Bool := compareCode 5 (fcompare (f32 a) (.fin false 0 0))

/-- a < b as FP32. -/
def f32Lt (a b : Word) : Bool := compareCode 2 (fcompare (f32 a) (f32 b))

/-- FP32 minimum and maximum of IEEE 754-2019. -/
def f32Min (a b : Word) : Word := toF32 0 (fminNum (f32 a) (f32 b))
/-- FP32 maximum. -/
def f32Max (a b : Word) : Word := toF32 0 (fmaxNum (f32 a) (f32 b))

/-- An FP32 value scaled by 2^k and rounded by RNE to an integer; a NaN or an infinity gives 0. -/
def f32Fixed (a : Word) (k : Int) : Int :=
  match f32 a with
  | .fin neg m e =>
    let r := roundShift 0 {} neg m (e + k)
    if neg then -(r : Int) else r
  | _ => 0

/-! Formats -/

/-- How a component is read and written (Table 15-6). -/
inductive CompKind where
  | unorm | snorm | uint | sint | sfloat | ufloat
  deriving DecidableEq, Repr

/-- A pixel format: bytes, components from bit 0 up as (channel 0 R to 3 A, kind, bits), sRGB encoding of R, G and B, and
whether it may be attached, blended and filtered. -/
structure PixFmt where
  bytes : Nat
  comps : List (Nat × CompKind × Nat)
  srgb : Bool := false
  attach : Bool := true
  blend : Bool := true
  filter : Bool := true
  deriving DecidableEq, Repr

/-- Channels of one kind and width from R up. -/
def chans (n : Nat) (k : CompKind) (bits : Nat) : List (Nat × CompKind × Nat) := (List.range n).map fun c => (c, k, bits)

/-- B8 G8 R8 A8. -/
def bgra8 : List (Nat × CompKind × Nat) := [(2, .unorm, 8), (1, .unorm, 8), (0, .unorm, 8), (3, .unorm, 8)]

/-- An integer format: neither blended nor filtered. -/
def intFmt (bytes n : Nat) (k : CompKind) (bits : Nat) : PixFmt :=
  { bytes := bytes, comps := chans n k bits, blend := false, filter := false }

/-- The colour formats of Table 15-6 that are not compressed. The order of components within a packed word is that of the
Vulkan formats of these names. -/
def pixFmt : Nat → Option PixFmt
  | 0x01 => some { bytes := 1, comps := chans 1 .unorm 8 }
  | 0x02 => some { bytes := 1, comps := chans 1 .snorm 8 }
  | 0x03 => some (intFmt 1 1 .uint 8)
  | 0x04 => some (intFmt 1 1 .sint 8)
  | 0x05 => some { bytes := 2, comps := chans 2 .unorm 8 }
  | 0x06 => some (intFmt 2 2 .uint 8)
  | 0x07 => some { bytes := 4, comps := chans 4 .unorm 8 }
  | 0x08 => some { bytes := 4, comps := chans 4 .unorm 8, srgb := true }
  | 0x09 => some { bytes := 4, comps := bgra8 }
  | 0x0A => some { bytes := 4, comps := bgra8, srgb := true }
  | 0x0B => some { bytes := 4, comps := chans 4 .snorm 8 }
  | 0x0C => some (intFmt 4 4 .uint 8)
  | 0x0D => some (intFmt 4 4 .sint 8)
  | 0x0E => some { bytes := 4, comps := chans 3 .unorm 10 ++ [(3, .unorm, 2)] }
  | 0x0F => some { bytes := 4, comps := [(0, .ufloat, 11), (1, .ufloat, 11), (2, .ufloat, 10)] }
  | 0x10 => some { bytes := 4, comps := [], attach := false, blend := false }
  | 0x11 => some { bytes := 2, comps := chans 1 .unorm 16 }
  | 0x12 => some { bytes := 2, comps := chans 1 .sfloat 16 }
  | 0x13 => some (intFmt 2 1 .uint 16)
  | 0x14 => some { bytes := 4, comps := chans 2 .sfloat 16 }
  | 0x15 => some { bytes := 4, comps := chans 2 .unorm 16 }
  | 0x16 => some { bytes := 8, comps := chans 4 .sfloat 16 }
  | 0x17 => some { bytes := 8, comps := chans 4 .unorm 16 }
  | 0x18 => some (intFmt 8 4 .uint 16)
  | 0x19 => some { bytes := 4, comps := chans 1 .sfloat 32 }
  | 0x1A => some (intFmt 4 1 .uint 32)
  | 0x1B => some (intFmt 4 1 .sint 32)
  | 0x1C => some { bytes := 8, comps := chans 2 .sfloat 32 }
  | 0x1D => some (intFmt 8 2 .uint 32)
  | 0x1E => some { bytes := 16, comps := chans 4 .sfloat 32 }
  | 0x1F => some (intFmt 16 4 .uint 32)
  | 0x20 => some { bytes := 2, comps := [(2, .unorm, 5), (1, .unorm, 6), (0, .unorm, 5)] }
  | 0x21 => some { bytes := 2, comps := [(3, .unorm, 4), (2, .unorm, 4), (1, .unorm, 4), (0, .unorm, 4)] }
  | _ => none

/-- Bytes per sample of a depth or stencil format (Table 15-6). -/
def depthBytes : Nat → Option Nat
  | 0x30 => some 2
  | 0x31 => some 4
  | 0x32 => some 4
  | 0x33 => some 8
  | 0x34 => some 1
  | _ => none

/-- Bytes of a block of a compressed format (Table 15-6). -/
def blockBytes (f : Nat) : Option Nat :=
  if 0x40 ≤ f && f ≤ 0x43 then some 8 else if f == 0x44 || f == 0x45 then some 16
  else if f == 0x46 || f == 0x47 then some 8 else if f == 0x48 || f == 0x49 then some 16
  else if 0x50 ≤ f && f ≤ 0x52 then some 16 else none

/-- Bytes of a sample of an attachment in a slot, where its format is allowed there (Table 15-1). -/
def attachBytes (slot format : Nat) : Option Nat :=
  if slot = 8 then depthBytes format
  else match pixFmt format with
    | some f => if f.attach then some f.bytes else none
    | none => none

/-! sRGB -/

/-- The n-th power root of x by bits, from bit k - 1 of the root. -/
def rootBits (n x : Nat) : Nat → Nat → Nat
  | 0, r => r
  | k + 1, r => if (r + 2 ^ k) ^ n ≤ x then rootBits n x k (r + 2 ^ k) else rootBits n x k r

/-- Fraction bits of the decoded sRGB curve. -/
def srgbBits : Nat := 64

/-- An 8-bit sRGB code decoded to linear (R698): c / 12.92 below the knee, else ((c + 0.055) / 1.055)^2.4. -/
def srgbDecode (c : Nat) : Word :=
  if c * 100000 ≤ 4045 * 255 then toF32 0 (ratVal false (c * 100) (255 * 1292))
  else
    let p := c * 1000 + 55 * 255
    let q := 1055 * 255
    let x := p ^ 12 * 2 ^ (5 * srgbBits) / q ^ 12
    toF32 0 (.fin false (2 * rootBits 5 x (srgbBits + 1) 0 + 1) (-(srgbBits : Int) - 1))

/-- The linear value m * 2^e, e ≤ 0, is at most the sRGB level num / den: the inverse curve compared exactly. -/
def linearBelow (m : Nat) (e : Int) (num : Int) (den : Nat) : Bool :=
  let d := 2 ^ (-e).toNat
  if num < 0 then false
  else
    let n := num.toNat
    if n * 100000 ≤ 4045 * den then m * den * 1292 ≤ n * 100 * d
    else
      let p := n * 1000 + 55 * den
      let q := 1055 * den
      m ^ 5 * q ^ 12 ≤ p ^ 12 * d ^ 5

/-- A code is within 0.6 of one UNORM step of the encoding of a linear value in [0, 1] (R698). -/
def srgbNear (m : Nat) (e : Int) (c : Nat) : Bool :=
  linearBelow m e (10 * (c : Int) + 6) 2550 && !(linearBelow m e (10 * (c : Int) - 6) 2550 && !(c == 0))

/-- A linear value encoded to an 8-bit sRGB code: the free code where it is near enough, else the lowest that is (R698). -/
def srgbEncode (v : FVal) (free : Nat) : Nat :=
  match saturate v with
  | .fin _ m e =>
    let (m, e) := if 0 < e then (m * 2 ^ e.toNat, 0) else (m, e)
    if srgbNear m e (free % 256) then free % 256
    else ((List.range 256).find? (srgbNear m e)).getD 255
  | _ => 0

/-! Components -/

/-- The unsigned small floats of RG11B10: five exponent bits. -/
def smallFloat (bits : Nat) : Fmt :=
  let m := bits - 5
  { exp := 5, mant := m, bias := 15, specials := .ieee, maxCode := 31 * 2 ^ m - 1, nanCode := 31 * 2 ^ m + 1 }

/-- A component read as FP32, or as a 32-bit integer. -/
def decodeComp (k : CompKind) (bits x : Nat) : Word :=
  match k with
  | .unorm => toF32 0 (ratVal false x (2 ^ bits - 1))
  | .snorm =>
    let v : Int := if x ≥ 2 ^ (bits - 1) then (x : Int) - 2 ^ bits else x
    let m : Nat := 2 ^ (bits - 1) - 1
    toF32 0 (intRat (max v (-(m : Int))) m)
  | .uint => BitVec.ofNat 32 x
  | .sint => BitVec.ofInt 32 (if x ≥ 2 ^ (bits - 1) then (x : Int) - 2 ^ bits else x)
  | .sfloat => if bits = 32 then BitVec.ofNat 32 x else toF32 0 (f16 x)
  | .ufloat => toF32 0 (fdecode (smallFloat bits) x)

/-- A value clamped between two. -/
def clampVal (lo hi v : FVal) : FVal := fminNum hi (fmaxNum lo v)

/-- A value times n, rounded by RNE to an integer. -/
def scaledInt (v : FVal) (n : Nat) : Int :=
  match fmulExact v (.fin false n 0) with
  | .fin neg m e => let r := roundShift 0 {} neg m e; if neg then -(r : Int) else r
  | _ => 0

/-- A component written from an FP32 value, or from the low bits of an integer (R698). -/
def encodeComp (k : CompKind) (bits : Nat) (w : Word) : Nat :=
  match k with
  | .unorm => (scaledInt (saturate (f32 w)) (2 ^ bits - 1)).toNat
  | .snorm =>
    let v := if f32 w = .nan then .fin false 0 0 else clampVal (.fin true 1 0) (.fin false 1 0) (f32 w)
    (scaledInt v (2 ^ (bits - 1) - 1) % 2 ^ bits).toNat
  | .uint => w.toNat % 2 ^ bits
  | .sint => w.toNat % 2 ^ bits
  | .sfloat => if bits = 32 then w.toNat else toF16 0 (f32 w)
  | .ufloat =>
    let v := f32 w
    let v := if v = .nan then v else fmaxNum (.fin false 0 0) v
    (narrow (smallFloat bits) 0 {} v).code

/-- The bits of a component within a raw pixel: its offset. -/
def compOffsets (comps : List (Nat × CompKind × Nat)) : List (Nat × Nat × CompKind × Nat) :=
  (comps.foldl (fun (acc : Nat × List (Nat × Nat × CompKind × Nat)) c => (acc.1 + c.2.2, acc.2 ++ [(acc.1, c)])) (0, [])).2

/-- RGB9E5: three 9-bit mantissas with a shared exponent of bias 15. -/
def decode9e5 (x : Nat) : List Word :=
  let e : Int := (x / 2 ^ 27 : Nat)
  ((List.range 3).map fun c => toF32 0 (.fin false (x / 2 ^ (9 * c) % 2 ^ 9) (e - 24))) ++ [f32One]

/-- A format holds integers. -/
def PixFmt.isInt (f : PixFmt) : Bool := f.comps.any fun c => c.2.1 == .uint || c.2.1 == .sint

/-- The four components of a raw pixel: FP32, or 32-bit integers for UINT and SINT formats; absent ones read 0, 0, 0 and 1
(R698, Table 15-6). -/
def decodePixel (code x : Nat) : List Word :=
  if code = 0x10 then decode9e5 x
  else match pixFmt code with
    | none => [0#32, 0#32, 0#32, f32One]
    | some f =>
      let cs := compOffsets f.comps
      (List.range 4).map fun ch =>
        match cs.find? fun c => c.2.1 = ch with
        | some (off, _, k, bits) =>
          let v := x / 2 ^ off % 2 ^ bits
          if f.srgb && ch < 3 then srgbDecode v else decodeComp k bits v
        | none => if ch < 3 then 0#32 else if f.isInt then 1#32 else f32One

/-- Channels of a mask (bit 0 R to bit 3 A) of a raw pixel replaced by the encodings of new components (R698); `free` chooses
among the codes that the sRGB bound allows. -/
def encodePixel (code : Nat) (mask old : Nat) (cs : List Word) (free : Nat → Nat) : Nat :=
  match pixFmt code with
  | none => old
  | some f =>
    (compOffsets f.comps).foldl (fun acc c =>
      let (off, ch, k, bits) := c
      if !bitNat mask ch then acc
      else
        let w := cs.getD ch 0#32
        let v := if f.srgb && ch < 3 then srgbEncode (f32 w) (free ch) else encodeComp k bits w
        acc - acc / 2 ^ off % 2 ^ bits * 2 ^ off + v * 2 ^ off) old

/-! Depth and stencil -/

/-- The depth format is UNORM of so many bits; none for FP32. -/
def depthUnorm : Nat → Option Nat
  | 0x30 => some 16
  | 0x31 => some 24
  | _ => none

/-- The format holds depth. -/
def hasDepth (f : Nat) : Bool := 0x30 ≤ f && f ≤ 0x33

/-- The format holds stencil. -/
def hasStencil (f : Nat) : Bool := f == 0x31 || f == 0x33 || f == 0x34

/-- The depth field of a raw sample. -/
def depthField (f x : Nat) : Nat :=
  match f with
  | 0x30 => x % 2 ^ 16
  | 0x31 => x % 2 ^ 24
  | _ => x % 2 ^ 32

/-- The stencil field of a raw sample. -/
def stencilField (f x : Nat) : Nat :=
  match f with
  | 0x31 => x / 2 ^ 24 % 256
  | 0x33 => x / 2 ^ 32 % 256
  | 0x34 => x % 256
  | _ => 0

/-- A raw sample from its fields. -/
def packDepth (f d st : Nat) : Nat :=
  match f with
  | 0x30 => d
  | 0x31 => d + st * 2 ^ 24
  | 0x32 => d
  | 0x33 => d + st * 2 ^ 32
  | _ => st

/-- A depth converted to the attachment's format (R690): a NaN is +0, UNORM clamps to [0, 1]. -/
def encodeDepth (f : Nat) (d : Word) : Nat :=
  let v := if f32 d = .nan then f32Zero else d
  match depthUnorm f with
  | some bits => (scaledInt (saturate (f32 v)) (2 ^ bits - 1)).toNat
  | none => v.toNat

/-- A depth field as a value, for comparisons and textures. -/
def depthVal (f x : Nat) : FVal :=
  match depthUnorm f with
  | some bits => ratVal false x (2 ^ bits - 1)
  | none => f32 (BitVec.ofNat 32 x)

end Sys2Proof.Machine
end

