-- ==== Sys2Proof/Machine/Compose.lean ====
section
/-!
DEFINITION. The compose service of Sepia mode (spec 05 Table 05-10, spec 19 R855 to R859). A started command goes on one
128-byte line at a time: it reads source pixels ahead, or writes destination pixels.
-/

namespace Sys2Proof.Machine

/-! Arguments (Table 05-10) -/

/-- The format of ARG1[15:8] as a code of Table 15-6; none where it is reserved. -/
def composeFormat (cmd : List Word) : Option Nat :=
  match argF cmd 1 15 8 with
  | 1 => some 0x07
  | 2 => some 0x09
  | 3 => some 0x0E
  | 4 => some 0x16
  | _ => none

/-- Bytes per pixel (R855). -/
def composeBpp (cmd : List Word) : Nat := if argF cmd 1 15 8 = 4 then 8 else 4

/-- Width in pixels. -/
def composeWidth (cmd : List Word) : Nat := argF cmd 1 31 16

/-- Height in pixels. -/
def composeHeight (cmd : List Word) : Nat := argF cmd 2 15 0

/-- The VA of pixel n of a rectangle, row by row (R856). -/
def pixelVa (cmd : List Word) (base pitch n : Nat) : Nat :=
  base + 64 * pitch * (n / composeWidth cmd) + composeBpp cmd * (n % composeWidth cmd)

/-- The VA of a destination pixel. -/
def dstVa (cmd : List Word) (n : Nat) : Nat := pixelVa cmd (argVa cmd 3) (argF cmd 4 31 16) n

/-- The VA of a source pixel. -/
def srcVa (cmd : List Word) (n : Nat) : Nat := pixelVa cmd (argVa cmd 5) (argF cmd 6 31 16) n

/-- A rectangle's pitch or VA breaks R855. -/
def rectBad (cmd : List Word) (base pitch : Nat) : Bool :=
  64 * pitch < composeWidth cmd * composeBpp cmd || base % composeBpp cmd != 0

/-- Causes of a compose command (R855). -/
def composeCauses (fill : Bool) (s : State) (k : SlotId) (cmd : List Word) : List Nat :=
  let w := composeWidth cmd
  let h := composeHeight cmd
  causesOf [(!ctxThere s k.fn cmd || (composeFormat cmd).isNone || w == 0 || w > 16384 || h == 0 || h > 16384 ||
      rectBad cmd (argVa cmd 3) (argF cmd 4 31 16) || argF cmd 4 31 16 == 0 ||
      (!fill && rectBad cmd (argVa cmd 5) (argF cmd 6 31 16)), 0x04)]

/-! Pixels (R857) -/

/-- The colour of COMPOSE_FILL as a raw pixel. -/
def fillPixel (cmd : List Word) : Nat := if composeBpp cmd = 8 then argN cmd 5 + argN cmd 7 * 2 ^ 32 else argN cmd 5

/-- The constant multiplier k. -/
def blendK (cmd : List Word) : Word := toF32 0 (ratVal false (argF cmd 7 7 0) 255)

/-- COMPOSE_BLEND of a source pixel over a destination pixel, in FP32 with RNE at each step. -/
def blendPixel (cmd : List Word) (src dst : Nat) : Nat :=
  let code := (composeFormat cmd).getD 0
  let sp := decodePixel code src
  let dp := decodePixel code dst
  let k := blendK cmd
  let a := f32Mul (sp.getD 3 0#32) k
  let rest := f32Sub f32One a
  let under := fun (ch : Nat) => f32Mul (dp.getD ch 0#32) rest
  let comp := fun (ch : Nat) =>
    let c := sp.getD ch 0#32
    if argF cmd 7 8 8 = 1 then f32Add (f32Mul c k) (under ch)
    else if ch = 3 then f32Add a (under 3)
    else f32Add (f32Mul c a) (under ch)
  encodePixel code 15 dst ((List.range 4).map comp) fun _ => 0

/-- Raw pixels from bytes. -/
def rawPixels (bpp n : Nat) (bs : List Byte) : List Nat := (List.range n).map fun i => leNat ((bs.drop (bpp * i)).take bpp)

/-- Bytes of raw pixels as a store. -/
def pixelStore (bpp : Nat) (ps : List Nat) : List (Nat × Byte) := ((ps.flatMap (leBytes bpp)).zipIdx).map fun e => (e.2, e.1)

/-- Pixels from pixel n that lie in its row and in the 128-byte line of its VA. -/
def lineRun (cmd : List Word) (va n : Nat) : Nat :=
  min (composeWidth cmd - n % composeWidth cmd) ((128 - va % 128) / composeBpp cmd)

/-! Reading and writing -/

/-- The compose service as an engine: core 0 reads, under the context of the command (R853, R856).
DESIGN CHOICE, unsafe: log 55. -/
def composeEngine (x : ComposeOp) (dst : Bool) : Engine := { reader := .compose dst, ni := coreNi 0, ctx := x.ctx, pri := 0 }

/-- Every pixel of the rectangle is written. -/
def composeWhole (cmd : List Word) (x : ComposeOp) : Bool := x.written ≥ composeWidth cmd * composeHeight cmd

/-- A translation fault, poison or timeout stops a compose command: the record of the condition with SCOPE PACKET and the
pixel's VA; rows written before stand (R859). DEDUCED, unsafe: log 32. -/
def stopCompose (s : State) (x : ComposeOp) (code va : Nat) : State :=
  let s := dropReads (dropReads s (.compose false)) (.compose true)
  { pushRecord s { ctxRec s code 1 [.t] x.ctx with addr := .va va, loc := { unit := .core, index := 0 } } with
    compose := some { x with stopped := true } }

/-- The first pixel of bytes read from a VA that has poison. DEDUCED, unsafe: log 32. -/
def poisonPixel (l : List (Byte × Bool)) (va bpp : Nat) : Option Nat :=
  (l.findIdx? fun b => b.2).map fun k => va + k / bpp * bpp

/-- What a read of pixels has come to: the state to leave, or their bytes and the state with the reads used. -/
inductive PixelRead where
  | leave (s : State)
  | ok (s : State) (bytes : List Byte)

/-- Pixels of one line read under the checks for a load (R856). DEDUCED, unsafe: log 32. -/
def readPixels (s : State) (x : ComposeOp) (dst : Bool) (va bpp n : Nat) : PixelRead :=
  match engineRead s (composeEngine x dst) .load va (n * bpp) with
  | .wait s => .leave s
  | .fault e a => .leave (stopCompose s x e.code a)
  | .ready l => match poisonPixel l va bpp with
    | some a => .leave (stopCompose s x (badReadCode s (.compose dst)) a)
    | none => .ok (useReads s (.compose dst)) (l.map Prod.fst)

/-- The source pixels of one line are read ahead. DEDUCED, unsafe: log 32. -/
def composeRead (s : State) (cmd : List Word) (x : ComposeOp) : State :=
  let va := srcVa cmd x.read
  let n := lineRun cmd va x.read
  let bpp := composeBpp cmd
  if x.read ≥ composeWidth cmd * composeHeight cmd then s
  else match readPixels s x false va bpp n with
    | .leave s => s
    | .ok s bs => { s with compose := some { x with buf := x.buf ++ rawPixels bpp n bs, read := x.read + n } }

/-- What a command of each row writes for the pixels of a line: from the pixels read ahead and the destination's bytes. -/
inductive ComposeKind where
  | copy | fill | blend
  deriving DecidableEq, Repr

/-- The pixels to write: of the source, of one colour, or blended. -/
def newPixels (kind : ComposeKind) (cmd : List Word) (src dst : List Nat) (n : Nat) : List Nat :=
  match kind with
  | .copy => src.take n
  | .fill => List.replicate n (fillPixel cmd)
  | .blend => (src.zip dst).take n |>.map fun e => blendPixel cmd e.1 e.2

/-- The compose service's own accesses to a line that a write comes after. -/
def composeEarlier (s : State) (line : Nat) : List Nat :=
  (s.traffic.accesses.filter fun e => e.2.va == line && e.2.stage != .answered && !e.2.dropped && match e.2.client with
    | .reader (.compose _) => true
    | .composeWrite => true
    | _ => false).map Prod.fst

/-- Pixels of one line go to their home, and the command goes on. -/
def sendPixels (s : State) (x : ComposeOp) (va : Nat) (h : Home) (l : Leaf) (bytes : List (Nat × Byte)) (n : Nat) : State :=
  let line := va / 128 * 128
  let bytes := bytes.map fun e => (e.1 + va % 128, e.2)
  let a := lineAccess s .composeWrite (coreNi 0) x.ctx 0 line (lineHome h va) (leafShared l)
    (lineSecs line bytes.length [va]) (.write bytes false)
  let s := enterFabric s { a with after := composeEarlier s line }
  { s with compose := some { x with buf := x.buf.drop n, written := x.written + n } }

/-- Destination pixels of one line are written under the checks for a store; BLEND reads them first (R856, R857).
DEDUCED, unsafe: log 32. -/
def composeWrite (kind : ComposeKind) (s : State) (cmd : List Word) (x : ComposeOp) : State :=
  let va := dstVa cmd x.written
  let bpp := composeBpp cmd
  let run := lineRun cmd va x.written
  let n := if kind = .fill then run else min run x.buf.length
  if n = 0 then s
  else match translate s x.ctx va .store with
    | .error e => stopCompose s x e.code va
    | .ok (h, l) =>
      let put := fun (s : State) (dst : List Nat) =>
        sendPixels s x va h l (pixelStore bpp (newPixels kind cmd x.buf dst n)) n
      if kind = .blend then
        match readPixels s x true va bpp n with
        | .leave s => s
        | .ok s bs => put s (rawPixels bpp n bs)
      else put s []

/-! The end of a command -/

/-- Pixel writes of the compose service in flight. -/
def pixelWrites (s : State) : List (Nat × Access) :=
  s.traffic.accesses.filter fun e => e.2.client == .composeWrite && !e.2.dropped

/-- A pixel write that ended at a timeout: its code and the VA of its first pixel. -/
def badWrite (s : State) : Option (Nat × Nat) :=
  ((pixelWrites s).filterMap fun e =>
    match e.2.stage, e.2.ended, e.2.kind with
    | .answered, some code, .write ((o, _) :: _) _ => some (code, e.2.va + o)
    | _, _, _ => none).head?

/-- Pixel writes that are performed leave. -/
def takeWrites (s : State) : State :=
  { s with traffic := { s.traffic with accesses := s.traffic.accesses.filter fun e =>
      !(e.2.client == .composeWrite && e.2.stage == .answered) } }

/-- A compose command that has written its last pixel, or was stopped, completes once its writes are performed (R859). -/
def endCompose (s : State) (k : SlotId) : State :=
  if (pixelWrites s).isEmpty then slotDone { s with compose := none } k [] else s

/-! Commands -/

/-- A compose command starts: it takes the service and wakes core 0 and tile backend 0 (R858, R853). -/
def startCompose (s : State) (k : SlotId) (cmd : List Word) : State :=
  requestWake (requestWake { s with compose := some { slot := k, ctx := argCtx k.fn cmd } } 0) 65

/-- A compose command goes on; one whose work a forfeit discarded completes (R859). DESIGN CHOICE, safe: log 9. -/
def stepCompose (kind : ComposeKind) (ahead : Bool) (s : State) (k : SlotId) (cmd : List Word) : State :=
  match s.compose with
  | none => slotDone s k []
  | some x =>
    let bad := if x.stopped then none else badWrite s
    let s := takeWrites s
    if x.slot ≠ k then slotDone s k []
    else match bad with
      | some (code, va) => stopCompose s x code va
      | none =>
        if x.stopped || composeWhole cmd x then endCompose s k
        else if !domOn s 0 || !domOn s 65 then requestWake (requestWake s 0) 65
        else if ahead && kind ≠ .fill then composeRead s cmd x
        else composeWrite kind s cmd x

/-- COMPOSE_COPY (0x0300): each source pixel is written to the destination (R857). -/
def execComposeCopy (k : SlotId) (ahead : Bool) (t : Stamp) (s : State) : Out :=
  .next (mbxRow (s.upTo t) k 0x0300 anyCmd (composeCauses false) startCompose (stepCompose .copy ahead))

/-- COMPOSE_FILL (0x0301): every destination pixel takes one colour (R857). -/
def execComposeFill (k : SlotId) (ahead : Bool) (t : Stamp) (s : State) : Out :=
  .next (mbxRow (s.upTo t) k 0x0301 anyCmd (composeCauses true) startCompose (stepCompose .fill ahead))

/-- COMPOSE_BLEND (0x0302): the source is blended over the destination (R857). -/
def execComposeBlend (k : SlotId) (ahead : Bool) (t : Stamp) (s : State) : Out :=
  .next (mbxRow (s.upTo t) k 0x0302 anyCmd (composeCauses false) startCompose (stepCompose .blend ahead))

end Sys2Proof.Machine
end

