-- ==== Sys2Proof/Machine/GeomOps.lean ====
section
/-!
DEFINITION. The geometry front end's operations (spec 14): the bin pool, index fetch and batches, vertices, clipping and
culling, and the binning of a batch.
-/

namespace Sys2Proof.Machine

/-! Frames -/

/-- The open frame of a queue. -/
def getFrame (s : State) (q : QueueId) : Option Frame := tblGet s.gfx.frames q

/-- The state with an open frame changed. -/
def modFrame (s : State) (q : QueueId) (f : Frame → Frame) : State :=
  { s with gfx := { s.gfx with frames := tblModify s.gfx.frames q f } }

/-- The geometry front end's NI: the client NI at router 4 (Table 09-1). -/
def geomNi : Nat := 48 + 4

/-- A record of the geometry front end for a packet of a queue. -/
def geomRec (s : State) (q : QueueId) (code scope : Nat) (tag : Word) (addr : RecAddr) : ErrRec :=
  { queueRec s code scope q with tag := tag, addr := addr, loc := { unit := .geometry } }

/-- A translation fault of the geometry front end or a tile backend kills the context (Table 07-9). -/
def graphicsKill (s : State) (q : QueueId) (tag : Word) (unit : LocUnit) (index code va : Nat) : State :=
  killContext s q.ctx { ctxRec s code 3 (faultLetters code) q.ctx with
    queue := some q.q, tag := tag, addr := .va va, loc := { unit := unit, index := index } }

/-- The TAG of the packet of a frame that the front end works for: its oldest draw, or its FRAME_END. -/
def frameTag (s : State) (q : QueueId) : Word :=
  ((getQueue s q).bind fun r => (r.pkts.find? fun p => 0x10 ≤ p.type && p.type < 0x40).map Pkt.tag).getD 0#32

/-- An error completion of a packet of the front end. -/
def geomError (s : State) (q : QueueId) (num code : Nat) (addr : RecAddr) : State :=
  errorPkt s q num code addr { unit := .geometry } 0#128

/-- An access of the geometry front end or a tile backend to one line. -/
def gfxAccess (s : State) (client : Client) (ni : Nat) (q : QueueId) (va : Nat) (h : Home) (l : Leaf) (secs : List Nat)
    (kind : AccKind) : Access :=
  lineAccess s client ni q.ctx (queuePrio s q) (va / 128 * 128) (lineHome h va) (leafShared l) secs kind

/-- Accesses of the front end for a queue that are on their way, not yet performed, with their numbers. -/
def geomPending (s : State) (q : QueueId) : List (Nat × Access) :=
  s.traffic.accesses.filter fun e => e.2.client == .geometry q && e.2.stage != .answered && !e.2.dropped

/-- Bytes written for a queue's frame from an NI: one write for each line, after the earlier ones to the line. A fault kills
the context (Table 14-9). DESIGN CHOICE, safe: log 19. -/
def binWriteAt (s : State) (q : QueueId) (ni va : Nat) (bytes : List Byte) : State :=
  (linePieces va bytes.length).foldl (fun s e =>
    if (forfeitOf s q.ctx).isSome then s
    else match translate s q.ctx e.1 .store with
      | .error x => graphicsKill s q (frameTag s q) .geometry 0 x.code e.1
      | .ok (h, l) =>
        let data := ((bytes.drop e.2.1).take e.2.2).zipIdx.map fun b => (e.1 % 128 + b.2, b.1)
        let a := gfxAccess s (.geometry q) ni q e.1 h l (lineSecs (e.1 / 128 * 128) e.2.2 [e.1]) (.write data false)
        enterFabric s { a with after := ((geomPending s q).filter fun x => x.2.va == a.va).map Prod.fst }) s

/-- Bytes written by the Binner. -/
def binWrite (s : State) (q : QueueId) (va : Nat) (bytes : List Byte) : State := binWriteAt s q geomNi va bytes

/-- A record written in 64-byte units (R639, R661). -/
def writeUnits (s : State) (q : QueueId) (ni va : Nat) (bytes : List Byte) : State :=
  (List.range (bytes.length / 64)).foldl (fun s k => binWriteAt s q ni (va + 64 * k) ((bytes.drop (64 * k)).take 64)) s

/-- Bytes that the front end reads for a queue at its NI (R19). -/
def geomRead (s : State) (q : QueueId) (va len : Nat) : Reading :=
  engineRead s { reader := .geometry q, ni := geomNi, ctx := q.ctx, pri := queuePrio s q } .load va len

/-- The front end's answered reads for a queue are used up. -/
def geomUsed (s : State) (q : QueueId) : State := useReads s (.geometry q)

/-- GEOM_POISON for a poisoned descriptor word or ring entry: a notice (Table 14-9). -/
def geomPoison (s : State) (q : QueueId) (va : Nat) : State := detect s (geomRec s q 0x0607 0 (frameTag s q) (.va va))

/-- A record that is written once per packet (R713). -/
def noteOnce (s : State) (q : QueueId) (pkt : Nat) (r : ErrRec) : State :=
  if s.gfx.noted.contains (q, pkt, r.code) then s
  else detect { s with gfx := { s.gfx with noted := s.gfx.noted ++ [(q, pkt, r.code)] } } r

/-! The pool descriptor (Table 14-4) -/

/-- A byte that a write carries, by its offset in the line. -/
def writtenByte (a : Access) (off : Nat) : Option Byte :=
  match a.kind with
  | .write bytes _ => tblGet bytes off
  | _ => none

/-- LOW and PARTIAL of a descriptor as they stand, which only the host clears (Table 14-4): of the Binner's own write on its way, else
of memory. DEDUCED, unsafe: log 25. -/
def poolFlags (s : State) (q : QueueId) (f : Frame) : Nat :=
  let va := f.pool + 0x1E
  let mine := (geomPending s q).filterMap fun e => if e.2.va == va / 128 * 128 then writtenByte e.2 (va % 128) else none
  match mine.getLast? with
  | some b => bitsNat b.toNat 3 2
  | none => match translate s q.ctx va .load with
    | .ok (h, _) =>
      let r := homeRead s h 1
      if r.2 then 0 else bitsNat (leNat r.1) 3 2
    | .error _ => 0

/-- STATUS of a frame's pool: LOW and PARTIAL stay, or are set now. -/
def poolStatus (s : State) (q : QueueId) (f : Frame) (open_ : Bool) : Nat :=
  natOfBool open_ + 2 * natOfBool f.stall.isSome + 4 * (poolFlags s q f ||| (natOfBool f.low + 2 * natOfBool f.partial_))

/-- The Binner's words of the descriptor: TAKEN, FRAME_FIRST, FRAME_TAG and STATUS (R645). -/
def writePool (s : State) (q : QueueId) (open_ : Bool) : State :=
  match getFrame s q with
  | none => s
  | some f =>
    let status := poolStatus s q f open_
    let s := modFrame s q fun f => { f with low := false, partial_ := false }
    let s := binWrite s q (f.pool + 0x10) (leBytes 4 f.taken)
    binWrite s q (f.pool + 0x18) (leBytes 4 f.first ++ leBytes 2 f.tag ++ leBytes 2 status)

/-- What a read of PUBLISHED yields: nothing yet, a fault that has killed the context, or the free count. -/
inductive FreeCount where
  | wait (s : State)
  | gone (s : State)
  | count (s : State) (free : Nat)

/-- The free count (R647): poison counts as 0 (Table 14-9). -/
def freeCount (s : State) (q : QueueId) (f : Frame) : FreeCount :=
  let va := f.pool + 0x0C
  match geomRead s q va 4 with
  | .wait s => .wait s
  | .fault e _ => .gone (graphicsKill s q (frameTag s q) .geometry 0 e.code va)
  | .ready bs => match cleanBytes bs with
    | none => .count (geomPoison s q va) 0
    | some bs => .count s ((leNat bs + 2 ^ 32 - f.taken) % 2 ^ 32)

/-- The tile table read as empty: every entry written 0 (R652). -/
def clearTable (s : State) (q : QueueId) (f : Frame) (tiles : Nat) : State :=
  (List.range (tiles + 1)).foldl (fun s k => binWrite s q (f.table + 8 * k) (leBytes 8 0)) s

/-- Tiles of a frame in x and in all (R644). -/
def Frame.tilesX (f : Frame) : Nat := (f.width + f.edge - 1) / f.edge
/-- Tiles of a frame. -/
def Frame.tileCount (f : Frame) : Nat := f.tilesX * ((f.height + f.edge - 1) / f.edge)

/-- FRAME_TAG goes up by 1 modulo 2^16; a new tag 0 clears the table (R652). -/
def raiseTag (s : State) (q : QueueId) : State :=
  match getFrame s q with
  | none => s
  | some f =>
    let tag := (f.tag + 1) % 2 ^ 16
    let s := if tag = 0 then clearTable s q f f.tileCount else s
    modFrame s q fun f => { f with tag := tag }

/-- The lines of a frame's pages are discarded without write-back (R662, R672). -/
def discardBins (s : State) (q : QueueId) (f : Frame) : State :=
  let pas := f.pages.filterMap fun va => match translate s q.ctx va .load with
    | .ok (.device pa, _) => some pa
    | _ => none
  { s with vat := { s.vat with lines := s.vat.lines.filter fun ln => !(pas.any fun pa => pa ≤ linePa ln && linePa ln < pa + 0x10000) } }

/-- Graphics groups and tiles of a queue's frame are discarded. -/
def dropFrameWork (s : State) (q : QueueId) : State :=
  let gone := (s.cores.groups.filter fun e => e.2.queue == q && e.2.isGraphics).map Prod.fst
  let wgs := (s.cores.groups.filter fun e => gone.contains e.1).map fun e => e.2.wg
  let s := stopAccesses s fun a => match clientSlot a.client with
    | some k => gone.contains k
    | none => match a.client with
      | .tile core => (tblGet s.gfx.tiles core).any fun x => x.queue == q
      | .reader (.bins core) => (tblGet s.gfx.tiles core).any fun x => x.queue == q
      | _ => false
  { s with
    cores := { s.cores with
      groups := s.cores.groups.filter fun e => !gone.contains e.1
      wgs := s.cores.wgs.filter fun e => !wgs.contains e.1 }
    madders := { s.madders with ops := s.madders.ops.filter fun e => !gone.contains e.2.group }
    gfx := { s.gfx with tiles := s.gfx.tiles.filter fun e => e.2.queue != q } }

/-- A frame is abandoned (R670): closed with no further rendering and no status record; OPEN is cleared, and other draws of it
end with FRAME_ORDER. -/
def abandonFrame (s : State) (q : QueueId) : State :=
  match getFrame s q with
  | none => s
  | some f =>
    let s := writePool (modFrame s q fun f => { f with stall := none }) q false
    let s := dropFrameWork (discardBins s q f) q
    let s : State := { s with gfx := { s.gfx with
        frames := tblErase s.gfx.frames q, bound := if s.gfx.bound = some q then none else s.gfx.bound } }
    (f.draws.map Draw.pkt ++ f.endPkt.toList).foldl (fun s num => geomError s q num 0x0600 .none) s

/-! Pages of the pool -/

/-- What a take of a page does. -/
inductive PageTake where
  | taken (s : State)
  | empty (s : State)
  /-- PUBLISHED or the ring entry is still on its way. -/
  | wait (s : State)
  /-- The frame is gone: its context was killed or its ring entry is bad. -/
  | gone (s : State)

/-- The target of a page is device memory (R646, Table 14-9); a page without W faults where it is written.
DEDUCED, unsafe: log 25. -/
def pageOk (s : State) (q : QueueId) (va : Nat) : Except XFault Bool :=
  match translate s q.ctx va .load with
  | .error e => .error e
  | .ok (.device _, _) => .ok true
  | .ok _ => .ok false

/-- A page of the ring joins a frame (R646, R653): its ring entry has been read. -/
def enterPage (s : State) (q : QueueId) (pkt at_ page free : Nat) : PageTake :=
  let badPage := fun (s : State) => PageTake.gone (abandonFrame (geomError s q pkt 0x0603 (.va at_)) q)
  if page % 2 ^ 16 ≠ 0 then badPage s
  else match pageOk s q page with
    | .error e => .gone (graphicsKill s q (frameTag s q) .geometry 0 e.code page)
    | .ok false => badPage s
    | .ok true =>
      let low := free == 3
      let s := modFrame s q fun f =>
        { f with taken := (f.taken + 1) % 2 ^ 32, pages := f.pages ++ [page], low := f.low || low }
      let s := writePool s q true
      .taken (if low then queueEvent (detect s (geomRec s q 0x0604 0 (frameTag s q) .none)) q else s)

/-- The frame takes the next page of its ring (R646, R647, R653). -/
def takePage (s : State) (q : QueueId) (pkt : Nat) : PageTake :=
  match getFrame s q with
  | none => .gone s
  | some f =>
    match freeCount s q f with
    | .wait s => .wait s
    | .gone s => .gone s
    | .count s 0 => .empty (geomUsed s q)
    | .count s free =>
      let at_ := f.ringVa + 8 * (f.taken % 2 ^ f.ringLog2)
      match geomRead s q at_ 8 with
      | .wait s => .wait s
      | .fault e _ => .gone (graphicsKill s q (frameTag s q) .geometry 0 e.code at_)
      | .ready bs => match cleanBytes bs with
        | none => .empty (geomUsed (geomPoison s q at_) q)
        | some bs => enterPage (geomUsed s q) q pkt at_ (leNat bs % 2 ^ 48) free

/-- A place for a record of n units after the records of a frame: no record crosses a page (R649). -/
def allocUnits (f : Frame) (n : Nat) : Nat × Frame :=
  let p := if f.unit + n > 1024 then (f.ordinal + 1, 0) else (f.ordinal, f.unit)
  (p.1 * 1024 + p.2, { f with ordinal := p.1, unit := p.2 + n })

/-- The VA of a pool reference. -/
def refVa (f : Frame) (r : Nat) : Nat := f.pages.getD (r / 1024) 0 + 64 * (r % 1024)

/-! Draw state (Tables 14-2 and 15-2) -/

/-- A 32-bit word of a draw state block. -/
def stW (d : Draw) (off : Nat) : Word := BitVec.ofNat 32 (fieldAt d.state off 4)

/-- GFLAGS. -/
def gflags (d : Draw) : Nat := fieldAt d.state 0x20 4

/-- The blend words and factors of a block are in range (R677). -/
def blendOk (w : Nat) : Bool :=
  bitsNat w 3 1 ≤ 4 && bitsNat w 16 14 ≤ 4 && bitsNat w 8 4 ≤ 18 && bitsNat w 13 9 ≤ 18 && bitsNat w 21 17 ≤ 18 && bitsNat w 26 22 ≤ 18

/-- A private area's size and base (R634). -/
def privOk (bytes va : Nat) : Bool := bytes ≤ 65536 && bytes % 16 == 0 && va % 256 == 0

/-- A draw state block that no draw ends on (R633, R634, R677). -/
def stateOk (bs : List Byte) : Bool :=
  let g := fieldAt bs 0x20 4
  let fprog := fieldAt bs 0x80 6
  bitsNat g 15 8 &&& bitsNat g 23 16 == 0 && privOk (fieldAt bs 0x30 4) (fieldAt bs 0x38 6) &&
    privOk (fieldAt bs 0x40 4) (fieldAt bs 0x48 6) && fieldAt bs 0x29 1 ≤ 31 && fprog % 8 == 0 &&
    (fprog == 0 || (fieldAt bs 0x88 6 % 64 == 0 && 1 ≤ fieldAt bs 0x90 1 && fieldAt bs 0x90 1 ≤ 32)) &&
    (List.range 8).all fun a => blendOk (fieldAt bs (0xC0 + 4 * a) 4)

/-! Vertices -/

/-- The components of an output slot; a slot never written reads +0 (R638). -/
def vslot (v : Vert) (k : Nat) : List Word := (tblGet v.outs k).getD [0#32, 0#32, 0#32, 0#32]

/-- One component of an output slot. -/
def vcomp (v : Vert) (k c : Nat) : Word := (vslot v k).getD c 0#32

/-- Clip or cull distance i: slots 33 and 34 (R638). -/
def vdist (v : Vert) (i : Nat) : Word := vcomp v (33 + i / 4) (i % 4)

/-- The vertex on the edge from a to b at t (R642). -/
def lerpVert (t : Word) (a b : Vert) : Vert :=
  let keys := (0 :: a.outs.map Prod.fst ++ b.outs.map Prod.fst).eraseDups
  { gen := true
    outs := keys.map fun k => (k, (List.range 4).map fun c =>
      f32Add (vcomp a k c) (f32Mul t (f32Sub (vcomp b k c) (vcomp a k c)))) }

/-- A signed distance to a plane. -/
abbrev Plane := Vert → Word

/-- The vertex generated where the edge from a to b crosses a plane (R642). PRESUMED, unsafe: log 26. -/
def crossing (p : Plane) (a b : Vert) : Vert := lerpVert (f32Div (p a) (f32Sub (p a) (p b))) a b

/-- A polygon, or the two ends of a line, clipped against one plane in vertex order; `ring` closes a polygon. -/
def clipPlane (ring : Bool) (p : Plane) (vs : List Vert) : List Vert :=
  let n := vs.length
  vs.zipIdx.flatMap fun e =>
    let a := e.1
    let inA := f32Ge0 (p a)
    let here := if inA then [a] else []
    if !ring && e.2 + 1 = n then here
    else match vs[(e.2 + 1) % n]? with
      | some b => if inA != f32Ge0 (p b) then here ++ [crossing p a b] else here
      | none => here

/-- The planes of R640. PRESUMED, unsafe: log 26. -/
def clipPlanes (d : Draw) : List Plane :=
  let z : List Plane := if bitNat (gflags d) 3 then []
    else [fun v => vcomp v 0 2, fun v => f32Sub (vcomp v 0 3) (vcomp v 0 2)]
  z ++ [fun v => f32Sub (vcomp v 0 3) 0x30800000#32] ++ (maskBits 8 (bitsNat (gflags d) 15 8)).map fun i v => vdist v i

/-- Half of an FP32 value. -/
def f32Half (w : Word) : Word := f32Mul w 0x3F000000#32

/-- The FP32 screen position of a vertex along x or y (R685). -/
def screenAt (d : Draw) (axis : Nat) (v : Vert) : Word :=
  let half := f32Half (stW d (8 + 4 * axis))
  f32Add (f32Mul (f32Div (vcomp v 0 axis) (vcomp v 0 3)) half) (f32Add (stW d (4 * axis)) half)

/-- The FP32 screen depth of a vertex. -/
def screenZ (d : Draw) (v : Vert) : Word :=
  f32Add (f32Mul (f32Div (vcomp v 0 2) (vcomp v 0 3)) (f32Sub (stW d 0x14) (stW d 0x10))) (stW d 0x10)

/-- A vertex lies inside the guard band along an axis (R641). -/
def inGuard (d : Draw) (axis : Nat) (v : Vert) : Bool :=
  let p := f32 (screenAt d axis v)
  compareCode 5 (fcompare p (.fin true 32768 0)) && compareCode 2 (fcompare p (.fin false 32768 0))

/-- The guard band's four edges as planes in clip space (R641). -/
def guardPlanes (d : Draw) : List Plane :=
  (List.range 2).flatMap fun axis =>
    let half := f32Half (stW d (8 + 4 * axis))
    let origin := f32Add (stW d (4 * axis)) half
    let lo : Plane := fun v => f32Add (f32Mul (vcomp v 0 axis) half) (f32Mul (vcomp v 0 3) (f32Add origin 0x47000000#32))
    let hi : Plane := fun v => f32Sub (f32Mul (vcomp v 0 3) (f32Sub 0x47000000#32 origin)) (f32Mul (vcomp v 0 axis) half)
    [lo, hi]

/-- A polygon from its first vertex that clipping has not generated (R642). -/
def fromFirst (vs : List Vert) : List Vert :=
  let k := (vs.findIdx? fun v => !v.gen).getD 0
  vs.drop k ++ vs.take k

/-- A primitive of n vertices clipped: its vertices in order, empty where it lies outside (R640, R641). -/
def clipPrim (d : Draw) (vs : List Vert) : List Vert :=
  let ring := vs.length == 3
  let vs := (clipPlanes d).foldl (fun vs p => clipPlane ring p vs) vs
  if vs.all fun v => inGuard d 0 v && inGuard d 1 v then vs
  else (guardPlanes d).foldl (fun vs p => clipPlane ring p vs) vs

/-- The primitives that a clipped primitive becomes: a fan of triangles, a line, or a point (R642). -/
def fanOf (kind : Nat) (vs : List Vert) : List (List Vert) :=
  match kind with
  | 2 =>
    match fromFirst vs with
    | a :: rest => (rest.zip (rest.drop 1)).map fun e => [a, e.1, e.2]
    | [] => []
  | 1 => if vs.length = 2 then [vs] else []
  | _ => if vs.length = 1 then [vs] else []

/-! Snapped geometry, in 1/256 pixel -/

/-- A vertex snapped to the sub-pixel grid (R685). -/
def snapVert (d : Draw) (v : Vert) : Int × Int := (f32Fixed (screenAt d 0 v) 8, f32Fixed (screenAt d 1 v) 8)

/-- Twice the area of a triangle, positive where its vertices turn clockwise on the screen with y downward. -/
def cross2 (a b c : Int × Int) : Int := (b.1 - a.1) * (c.2 - a.2) - (b.2 - a.2) * (c.1 - a.1)

/-- The side of a point in FP32 pixels, clamped (R633). -/
def pointSize (d : Draw) (v : Vert) : Word :=
  let x := if bitNat (fieldAt d.state 0x28 1) 0 then vcomp v 32 0 else stW d 0x24
  if f32 x = .nan then f32One else f32Min 0x43800000#32 (f32Max f32One x)

/-- The width of a line in 1/256 pixel: a multiple of 0.125 pixel, clamped (Table 15-2). -/
def lineWidth (d : Draw) : Int :=
  let x := stW d 0xBC
  let x := if f32 x = .nan then f32One else f32Min 0x41800000#32 (f32Max f32One x)
  f32Fixed x 3 * 32

/-- Scissor and render area: the pixels [x0, x1) and [y0, y1) that may be covered (Table 14-2). -/
def clipRect (f : Frame) (d : Draw) : Nat × Nat × Nat × Nat :=
  (fieldAt d.state 0x18 2, fieldAt d.state 0x1A 2, min f.width (fieldAt d.state 0x1C 2), min f.height (fieldAt d.state 0x1E 2))

/-- The snapped bounding box of a primitive in 1/256 pixel: least x, least y, greatest x, greatest y. -/
def boundsOf (d : Draw) (kind : Nat) (vs : List Vert) : Int × Int × Int × Int :=
  let ps := vs.map (snapVert d)
  let grow : Int := match kind with
    | 2 => 0
    | 1 => (lineWidth d + 1) / 2
    | _ => match vs with
      | v :: _ => (f32Fixed (pointSize d v) 8 + 1) / 2
      | [] => 0
  let xs := ps.map Prod.fst
  let ys := ps.map Prod.snd
  let lo := fun (l : List Int) => l.foldl min (l.headD 0)
  let hi := fun (l : List Int) => l.foldl max (l.headD 0)
  (lo xs - grow, lo ys - grow, hi xs + grow, hi ys + grow)

/-- Sample positions in 1/16 pixel (Table 15-3). -/
def samplePositions : Nat → List (Nat × Nat)
  | 0 => [(8, 8)]
  | 1 => [(12, 12), (4, 4)]
  | 2 => [(6, 2), (14, 6), (2, 10), (10, 14)]
  | _ => [(9, 5), (7, 11), (13, 9), (5, 3), (3, 13), (1, 7), (11, 15), (15, 1)]

/-- Some pixel of [a, b) has its position at an offset within [lo, hi]. -/
def someAt (lo hi : Int) (off : Nat) (a b : Nat) : Bool :=
  let least := max (a : Int) ((lo - off + 255) / 256)
  least < (b : Int) && 256 * least + off ≤ hi

/-- The bounding box holds a sample position within the scissor and render area (R643). -/
def boxHasSample (f : Frame) (d : Draw) (box : Int × Int × Int × Int) : Bool :=
  let r := clipRect f d
  (samplePositions f.log2s).any fun p =>
    someAt box.1 box.2.2.1 (16 * p.1) r.1 r.2.2.1 && someAt box.2.1 box.2.2.2 (16 * p.2) r.2.1 r.2.2.2

/-- The facing of a triangle: front where its signed area is positive and FRONT_CW is 0, or negative and FRONT_CW is 1
(R643); the area is that of Vulkan, negative for vertices that turn clockwise on the screen.
PRESUMED, unsafe: log 26. -/
def isFront (d : Draw) (area : Int) : Bool := (area < 0) != bitNat (gflags d) 2

/-- A triangle, line or point is culled by its snapped shape (R643). -/
def shapeCulled (f : Frame) (d : Draw) (kind : Nat) (vs : List Vert) : Bool :=
  let ps := vs.map (snapVert d)
  let cull := bitsNat (gflags d) 1 0
  let bad := match kind, ps with
    | 2, [a, b, c] =>
      let area := cross2 a b c
      area == 0 || (isFront d area && bitNat cull 0) || (!isFront d area && bitNat cull 1)
    | 1, [a, b] => a == b
    | _, _ => false
  bad || !boxHasSample f d (boundsOf d kind vs)

/-- Every vertex of a primitive has one distance selected by CULL_MASK below 0 (R643). -/
def distCulled (d : Draw) (vs : List Vert) : Bool :=
  (maskBits 8 (bitsNat (gflags d) 23 16)).any fun i => vs.all fun v => f32Lt (vdist v i) 0#32

/-! Primitives of a batch -/

/-- The kind of a topology's primitives. PRESUMED, unsafe: log 26. -/
def topoKind : Nat → Nat
  | 0 => 0
  | 1 => 1
  | 2 => 1
  | _ => 2

/-- A primitive of a batch after clipping and culling: its records to write, and what the counts of Table 14-7 gain. -/
structure PrimOut where
  prims : List Prim
  culled : Bool
  clipped : Bool

/-- One primitive of a batch (R640 to R643). DEDUCED, unsafe: log 25. -/
def processPrim (f : Frame) (d : Draw) (inst : Nat) (vs : List Vert) (provoke id : Nat) : PrimOut :=
  let kind := topoKind d.topology
  let flat := vs.getD provoke { outs := [] }
  if distCulled d vs then { prims := [], culled := true, clipped := false }
  else
    let cut := clipPrim d vs
    let gen := cut.any Vert.gen
    let parts := (fanOf kind cut).filter fun p => !shapeCulled f d kind p
    let mk := fun (p : List Vert) =>
      let front := match p.map (snapVert d) with
        | [a, b, c] => isFront d (cross2 a b c)
        | _ => true
      ({ kind := kind, front := front, clipped := gen, provoke := provoke, id := id, draw := d.index, inst := inst
         verts := p, flat := flat } : Prim)
    { prims := parts.map mk, culled := parts.isEmpty, clipped := gen }

/-- Tiles that a primitive's bounding box covers; more than 64 go to the wide list, which is the entry after the last tile
(R650, R651). -/
def tilesOf (f : Frame) (d : Draw) (p : Prim) : List Nat :=
  let b := boundsOf d p.kind p.verts
  let px := fun (v : Int) (n : Nat) => (min (max (v / 256) 0) (n - 1)).toNat / f.edge
  let x0 := px b.1 f.width
  let x1 := px b.2.2.1 f.width
  let y0 := px b.2.1 f.height
  let y1 := px b.2.2.2 f.height
  if (x1 + 1 - x0) * (y1 + 1 - y0) > 64 then [f.tileCount]
  else (List.range (y1 + 1 - y0)).flatMap fun j => (List.range (x1 + 1 - x0)).map fun i => (y0 + j) * f.tilesX + x0 + i

/-! Index fetch and batches -/

/-- The entries of an instance's vertex sequence (R635): an index, a restart, or a poisoned index. -/
inductive IndexEntry where
  | vertex (v : Nat)
  | restart
  | poisoned
  deriving DecidableEq, Repr

/-- The primitives of a run of n vertices of a topology: positions in the run with the provoking position; `last` selects the
last vertex (Table 14-1, PROVOKE_LAST). PRESUMED, unsafe: log 26. -/
def assemble (topo : Nat) (last : Bool) (n : Nat) : List (List Nat × Nat) :=
  match topo with
  | 0 => (List.range n).map fun i => ([i], 0)
  | 1 => (List.range (n / 2)).map fun i => ([2 * i, 2 * i + 1], if last then 1 else 0)
  | 2 => (List.range (n - 1)).map fun i => ([i, i + 1], if last then 1 else 0)
  | 3 => (List.range (n / 3)).map fun i => ([3 * i, 3 * i + 1, 3 * i + 2], if last then 2 else 0)
  | 4 => (List.range (n - 2)).map fun i =>
      if i % 2 = 0 then ([i, i + 1, i + 2], if last then 2 else 0) else ([i, i + 2, i + 1], if last then 1 else 0)
  | _ => (List.range (n - 2)).map fun i => ([i + 1, i + 2, 0], if last then 1 else 0)

/-- The runs of a vertex sequence between restarts. -/
def splitRuns : List IndexEntry → List IndexEntry → List (List IndexEntry)
  | [], cur => [cur.reverse]
  | .restart :: rest, cur => cur.reverse :: splitRuns rest []
  | e :: rest, cur => splitRuns rest (e :: cur)

/-- The primitives of an instance in order, by vertex index with the provoking position; a primitive with a poisoned index is
none (Table 14-9). -/
def instancePrims (topo : Nat) (last : Bool) (es : List IndexEntry) : List (Option (List Nat × Nat)) :=
  (splitRuns es []).flatMap fun run => (assemble topo last run.length).map fun p =>
    let vs := p.1.map fun k => run.getD k .poisoned
    if vs.any fun e => e == .poisoned then none
    else some (vs.map fun e => match e with
      | .vertex v => v
      | _ => 0, p.2)

/-- Primitives divided into batches of at most 32 distinct indices, in order (R636). -/
def formBatches (ps : List ((List Nat × Nat) × Nat)) : List Batch :=
  let r := ps.foldl (fun (acc : List Batch × Batch) p =>
      let cur := acc.2
      let idx := p.1.1.foldl insertOnce cur.idx
      let start := idx.length > 32
      let done := if start then acc.1 ++ [cur] else acc.1
      let base : Batch := if start then { number := cur.number + 1, idx := [], prims := [] } else cur
      let idx := p.1.1.foldl insertOnce base.idx
      (done, { base with idx := idx, prims := base.prims ++ [(p.1.1.map fun v => idx.idxOf v, p.1.2, p.2)] }))
    ([], { number := 0, idx := [], prims := [] })
  if r.2.prims.isEmpty then r.1 else r.1 ++ [r.2]

/-! Records in the pool (Table 14-5) -/

/-- Little-endian bytes of words. -/
def wordsLe (ws : List Word) : List Byte := ws.flatMap fun w => leBytes 4 w.toNat

/-- The bytes of a list up to a length, filled with zeros. -/
def padTo (n : Nat) (bs : List Byte) : List Byte := (bs ++ List.replicate n 0#8).take n

/-- A vertex record (Table 14-5). -/
def vertexRecord (d : Draw) (v : Vert) : List Byte :=
  let attrs := fieldAt d.state 0x29 1
  let head := wordsLe (vslot v 0) ++ wordsLe [pointSize d v] ++ leBytes 4 (natOfBool v.gen) ++ leBytes 8 0 ++
    wordsLe ((List.range 8).map (vdist v))
  let body := (List.range attrs).flatMap fun k => wordsLe (vslot v (k + 1))
  padTo (alignUp (64 + 16 * attrs) 64) (head ++ body)

/-- A primitive record (Table 14-5). -/
def primRecord (d : Draw) (p : Prim) (refs : List Nat) : List Byte :=
  let w0 := p.kind + 4 * natOfBool p.front + 8 * natOfBool p.clipped + 16 * p.provoke
  padTo 64 (leBytes 4 w0 ++ leBytes 4 p.id ++ leBytes 4 p.seq ++ leBytes 4 p.draw ++ leBytes 4 p.inst ++ leBytes 4 0 ++
    leBytes 8 d.stateVa ++ leBytes 4 (refs.getD 0 0) ++ leBytes 4 (refs.getD 1 0) ++ leBytes 4 (refs.getD 2 0))

/-- A bin block (Table 14-5). -/
def binBlock (next : Nat) (entries : List Nat) : List Byte :=
  padTo 64 (leBytes 4 next ++ leBytes 4 entries.length ++ entries.flatMap fun e => leBytes 4 e)

/-- A tile-table entry (R650). -/
def tableEntry (head tail tag : Nat) : List Byte := leBytes 8 (head + tail * 2 ^ 22 + tag * 2 ^ 44)

/-- The reference of a primitive of a frame by its number. -/
def primRef (f : Frame) (seq : Nat) : Nat := (f.prims[seq]?.map Prim.ref).getD 0

/-- A write of bin data: of a core, whose group has exited, or of the Binner to the pool by reference, or to an address of the tile
table (R639). -/
inductive BinPut where
  | vertex (ref : Nat) (bytes : List Byte)
  | pool (ref : Nat) (bytes : List Byte)
  | table (va : Nat) (bytes : List Byte)

/-- One entry appended to a bin, in its last block or in a new one (R650, R651, Table 14-5). -/
def appendEntry (f : Frame) (bin seq : Nat) : Frame × List BinPut :=
  let old := tblGetD f.bins bin []
  let f := { f with bins := tblSet f.bins bin (old ++ [seq]) }
  let entry := f.table + 8 * bin
  match tblGet f.blocks bin with
  | some (blocks, count) =>
    let tail := blocks.getLast?.getD 0
    let last := (old.drop (old.length - count)).map (primRef f)
    if count < 14 then
      ({ f with blocks := tblSet f.blocks bin (blocks, count + 1) }, [.pool tail (binBlock 0 (last ++ [primRef f seq]))])
    else
      let (place, f) := allocUnits f 1
      ({ f with blocks := tblSet f.blocks bin (blocks ++ [place], 1) },
        [.pool tail (binBlock place last), .pool place (binBlock 0 [primRef f seq]),
          .table entry (tableEntry (blocks.head?.getD 0) place f.tag)])
  | none =>
    let (place, f) := allocUnits f 1
    ({ f with blocks := tblSet f.blocks bin ([place], 1) },
      [.pool place (binBlock 0 [primRef f seq]), .table entry (tableEntry place place f.tag)])

/-! The binning of a batch -/

/-- The records of a batch's lanes are its core's writes (R639). -/
def BinPut.byCore : BinPut → BinPut
  | .pool ref bytes => .vertex ref bytes
  | p => p

/-- A vertex record written for a vertex that has none yet. -/
def putVertex (d : Draw) (acc : Frame × List BinPut) (v : Vert) : (Frame × List BinPut) × Vert :=
  let rec_ := vertexRecord d v
  let (ref, f) := allocUnits acc.1 (rec_.length / 64)
  ((f, acc.2 ++ [.pool ref rec_]), { v with ref := ref })

/-- The vertices of a primitive with their references: records of generated ones are written. -/
def putVertices (d : Draw) (acc : Frame × List BinPut) : List Vert → (Frame × List BinPut) × List Vert
  | [] => (acc, [])
  | v :: vs =>
    let r := if v.gen then putVertex d acc v else (acc, v)
    let rest := putVertices d r.1 vs
    (rest.1, r.2 :: rest.2)

/-- A primitive's record and its entries in bins (R651). -/
def putPrim (d : Draw) (acc : Frame × List BinPut) (p : Prim) : Frame × List BinPut :=
  let (acc, verts) := putVertices d acc p.verts
  let (ref, f) := allocUnits acc.1 1
  let p := { p with verts := verts, seq := f.prims.length, ref := ref }
  let f := { f with prims := f.prims ++ [p], primsBinned := f.primsBinned + 1 }
  let acc := (f, acc.2 ++ [.pool ref (primRecord d p (verts.map Vert.ref))])
  (tilesOf f d p).foldl (fun acc bin =>
    let r := appendEntry acc.1 bin p.seq
    (r.1, acc.2 ++ r.2)) acc

/-- The vertices of a batch as its group left them: output slots by lane (R638). -/
def laneVerts (b : Batch) (outs : List ((Nat × Nat) × List Word)) : List Vert :=
  let slots := (outs.map fun e => e.1.1).eraseDups
  (List.range b.idx.length).map fun lane =>
    { outs := slots.map fun k => (k, (List.range 4).map fun c => (tblGetD outs (k, c) []).getD lane 0#32) }

/-- A batch is clipped, culled and binned in order, as if the pool had room (R639 to R643, R651).
DEDUCED, unsafe: log 25. -/
def binBatch (f : Frame) (d : Draw) (b : Batch) (inst : Nat) (outs : List ((Nat × Nat) × List Word)) : Frame × List BinPut :=
  let r := (laneVerts b outs).foldl (fun (acc : (Frame × List BinPut) × List Vert) v =>
      let x := putVertex d acc.1 v
      (x.1, acc.2 ++ [x.2])) ((f, []), [])
  let verts := r.2
  let start : Frame × List BinPut := (r.1.1, r.1.2.map BinPut.byCore)
  b.prims.foldl (fun acc p =>
    let o := processPrim acc.1 d inst (p.1.map fun l => verts.getD l { outs := [] }) p.2.1 p.2.2
    let f := { acc.1 with
      primsIn := acc.1.primsIn + 1
      primsCulled := acc.1.primsCulled + natOfBool o.culled
      primsClipped := acc.1.primsClipped + natOfBool o.clipped }
    o.prims.foldl (putPrim d) (f, acc.2)) start

/-- The writes of a batch that was shaded on a core (R639, R661). DEDUCED, unsafe: log 25. -/
def putBins (s : State) (q : QueueId) (f : Frame) (core : Nat) (puts : List BinPut) : State :=
  puts.foldl (fun s p => match p with
    | .vertex ref bs => writeUnits s q (coreNi core) (refVa f ref) bs
    | .pool ref bs => writeUnits s q geomNi (refVa f ref) bs
    | .table va bs => binWrite s q va bs) s

end Sys2Proof.Machine
end

