-- ==== Sys2Proof/Machine/Geometry.lean ====
section
/-!
DEFINITION. Graphics packets, vertex thread groups, binning, stalls and partial render flushes (spec 14, 15).
-/

namespace Sys2Proof.Machine

/-! Packets -/

/-- The front end takes new work: its domain is on and not under FORCE_OFF (R114). -/
def frontServes (s : State) : Bool := domOn s 64 && (getDom s 64).policy != .forceOff

/-- A graphics packet waits while FRAME_END of its queue is in progress (R708), while the front end is off, which it wakes
(R671), or under FORCE_OFF (R114), and for what it reads (`more`). DEDUCED, unsafe: log 25. -/
def gfxHold (q : QueueId) (more : State → List Byte → Option State) (s : State) (bs : List Byte) : Option State :=
  if ((getFrame s q).bind Frame.endPkt).isSome then some s
  else if !frontServes s then some (requestWake s 64)
  else more s bs

/-- The fields of FRAME_BEGIN as a frame that has taken nothing (Table 14-1). -/
def frameOf (bs : List Byte) : Frame :=
  { pool := vaAt bs 8, table := vaAt bs 16, statusVa := vaAt bs 32, width := fieldAt bs 24 2, height := fieldAt bs 26 2
    log2s := fieldAt bs 28 1 % 4, sampleBytes := fieldAt bs 29 1, frameId := BitVec.ofNat 32 (fieldAt bs 40 4), edge := 0
    ringVa := 0, ringLog2 := 0, first := 0, taken := 0, tag := 0 }

/-- A field of FRAME_BEGIN out of range (Table 14-1). -/
def frameBad (f : Frame) : Bool :=
  f.pool % 128 != 0 || f.table % 64 != 0 || f.statusVa % 32 != 0 || f.width == 0 || f.width > 16384 ||
    f.height == 0 || f.height > 16384 || f.sampleBytes == 0 || f.sampleBytes > 64

/-- The tile edge of a frame (R644). -/
def tileEdge (f : Frame) : Option Nat :=
  if 1024 * 2 ^ f.log2s * f.sampleBytes ≤ 65536 then some 32
  else if f.log2s = 3 && f.sampleBytes ≤ 32 then some 16 else none

/-- FRAME_BEGIN waits for the pool descriptor that it opens its frame with. -/
def beginHold (q : QueueId) (s : State) (bs : List Byte) : Option State :=
  let f := frameOf bs
  if frameBad f || (getFrame s q).isSome || (tileEdge f).isNone then none
  else match geomRead s q f.pool 32 with
    | .wait s => some s
    | _ => none

/-- FRAME_BEGIN opens a frame with the descriptor read (R644, R647, R652): poison counts as no free page (Table 14-9). -/
def openFrame (s : State) (q : QueueId) (p : Pkt) (f : Frame) : State :=
  match geomRead s q f.pool 32 with
  | .wait s => s
  | .fault e _ => graphicsKill s q p.tag .geometry 0 e.code f.pool
  | .ready data =>
    let s := geomUsed s q
    match cleanBytes data with
    | none => geomError (geomPoison s q f.pool) q p.num 0x0602 (.va f.pool)
    | some bs =>
      if (fieldAt bs 0x0C 4 + 2 ^ 32 - fieldAt bs 0x10 4) % 2 ^ 32 < 10 then geomError s q p.num 0x0602 (.va f.pool)
      else
        let f := { f with ringVa := fieldAt bs 0 6, ringLog2 := fieldAt bs 8 4 % 32, taken := fieldAt bs 0x10 4
                          first := fieldAt bs 0x10 4, tag := fieldAt bs 0x1C 2 }
        let s : State := { s with gfx := { s.gfx with frames := s.gfx.frames ++ [(q, f)] } }
        completePkt (writePool (raiseTag s q) q true) q p.num

/-- FRAME_BEGIN (0x10): a frame opens where none is open, its tile size fits and 10 pages are free (R630, R644, R647). -/
def execFrameBegin (q : QueueId) (t : Stamp) (s : State) : Out :=
  .next (packetRow (s.upTo t) q 0x10 anyBytes (gfxHold q (beginHold q)) fun s p bs =>
    let f := frameOf bs
    if frameBad f then badField s q p
    else if (getFrame s q).isSome then geomError s q p.num 0x0600 .none
    else match tileEdge f with
      | none => geomError s q p.num 0x0601 .none
      | some e => openFrame s q p { f with edge := e })

/-- The attachment of a packet (Table 15-1). -/
def attachOf (bs : List Byte) : Attach :=
  { format := fieldAt bs 9 1, load := fieldAt bs 10 1 % 4, store := fieldAt bs 10 1 / 4 % 4, pitch := fieldAt bs 12 4
    va := vaAt bs 16, resolveVa := vaAt bs 24, resolvePitch := fieldAt bs 32 4
    clear := (List.range 4).map fun k => BitVec.ofNat 32 (fieldAt bs (40 + 4 * k) 4) }

/-- A mapped base lies in device memory with W (R674); an unmapped one faults where it is used. -/
def attachTarget (s : State) (q : QueueId) (va : Nat) : Bool :=
  match translate s q.ctx va .load with
  | .ok (.device _, l) => l.w
  | .ok _ => false
  | .error _ => true

/-- An attachment is misaligned, too narrow, of a format that its slot does not allow, or not in device memory (Table 15-9). -/
def attachBad (s : State) (q : QueueId) (f : Frame) (slot : Nat) (a : Attach) : Bool :=
  match attachBytes slot a.format with
  | none => true
  | some b =>
    a.pitch % 256 != 0 || a.pitch < f.width * 2 ^ f.log2s * b || a.va % 256 != 0 || !attachTarget s q a.va ||
      (2 ≤ a.store && (a.resolveVa % 256 != 0 || a.resolvePitch % 256 != 0 || a.resolvePitch < f.width * b ||
        !attachTarget s q a.resolveVa))

/-- ATTACH (0x14): an attachment of the open frame, before its first draw (R673 to R675, Table 15-9). -/
def execAttach (q : QueueId) (t : Stamp) (s : State) : Out :=
  .next (packetRow (s.upTo t) q 0x14 anyBytes (gfxHold q anyTime) fun s p bs =>
    let slot := fieldAt bs 8 1
    let a := attachOf bs
    if slot > 8 || a.load == 3 then badField s q p
    else match getFrame s q with
      | none => geomError s q p.num 0x0600 .none
      | some f =>
        if f.drawn then geomError s q p.num 0x0600 .none
        else if attachBad s q f slot a then abandonFrame (geomError s q p.num 0x0613 (.va a.va)) q
        else completePkt (modFrame s q fun f => { f with attach := tblSet f.attach slot a }) q p.num)

/-- SAMPLE_BYTES equals the sum of B over the attached slots (R676). -/
def attachMatch (f : Frame) : Bool := (f.attach.map fun e => (attachBytes e.1 e.2.format).getD 0).sum == f.sampleBytes

/-- The parameters of a draw: count, instances, first, base vertex, first instance. -/
structure DrawArgs where
  count : Nat
  instances : Nat
  first : Nat
  base : Nat
  firstInstance : Nat

/-- A field of a draw out of range (Table 14-1). -/
def drawBad (bs : List Byte) : Bool :=
  vaAt bs 8 % 8 != 0 || vaAt bs 16 % 256 != 0 || fieldAt bs 30 2 % 4 == 3 || fieldAt bs 52 1 % 8 ≥ 6 ||
    fieldAt bs 53 1 == 0 || fieldAt bs 53 1 > 32 || vaAt bs 56 % 64 != 0

/-- INDEX_TYPE of a draw as bytes for each index; 0 for none. -/
def indexSize (bs : List Byte) : Nat :=
  match fieldAt bs 30 2 % 4 with
  | 1 => 2
  | 2 => 4
  | _ => 0

/-- Index entry k of a draw from its bytes (R635). -/
def indexEntry (bs : List (Byte × Bool)) (size : Nat) (restart : Bool) (base k : Nat) : IndexEntry :=
  let e := (bs.drop (size * k)).take size
  let v := leNat (e.map Prod.fst)
  if e.any Prod.snd then .poisoned
  else if restart && v = 2 ^ (8 * size) - 1 then .restart
  else .vertex ((v + base) % 2 ^ 32)

/-- The bytes of a draw's indices, from entry FIRST (R635); none are read without an index type or an instance. -/
def readIndices (s : State) (q : QueueId) (bs : List Byte) (x : DrawArgs) : Reading :=
  let size := indexSize bs
  if size = 0 || x.instances = 0 then .ready []
  else geomRead s q (vaAt bs 24 + size * x.first) (size * x.count)

/-- The vertex sequence of an instance from the bytes of its indices (R635). DEDUCED, unsafe: log 25. -/
def vertexSequence (bs : List Byte) (x : DrawArgs) (restart : Bool) (data : List (Byte × Bool)) : List IndexEntry :=
  let size := indexSize bs
  if x.instances = 0 then []
  else if size = 0 then (List.range x.count).map fun k => .vertex ((x.first + k) % 2 ^ 32)
  else (List.range x.count).map (indexEntry data size restart x.base)

/-- The 256 bytes of a draw state block (R632). -/
def readState (s : State) (q : QueueId) (bs : List Byte) : Reading := geomRead s q (vaAt bs 16) 256

/-- A draw's batches are formed and the draw joins its frame; one with nothing to draw completes (R631, R635, R636).
DEDUCED, unsafe: log 25. -/
def enterDraw (s : State) (q : QueueId) (p : Pkt) (bs : List Byte) (x : DrawArgs) (state : List Byte) (es : List IndexEntry) :
    State :=
  let topo := fieldAt bs 52 1 % 8
  let prims := instancePrims topo (bitNat (fieldAt state 0x20 4) 5) es
  let good := prims.zipIdx.filterMap fun e => e.1.map fun p => (p, e.2)
  let poisoned := prims.any Option.isNone
  match getFrame s q with
  | none => s
  | some f =>
    let d : Draw := { pkt := p.num, tag := p.tag, index := f.nextDraw, stateVa := vaAt bs 16, state := state, vprog := vaAt bs 8
                      argVa := vaAt bs 56, vregs := fieldAt bs 53 1, topology := topo, instances := x.instances
                      firstInstance := x.firstInstance, plan := formBatches good, poisoned := poisoned
                      code := s.cores.overwritten.length }
    let s := modFrame s q fun f => { f with nextDraw := f.nextDraw + 1, drawn := true }
    if d.plan.isEmpty || d.instances = 0 then
      (if poisoned && d.instances ≠ 0 then geomError s q p.num 0x0607 (.va (vaAt bs 24)) else completePkt s q p.num)
    else modFrame s q fun f => { f with draws := f.draws ++ [d] }

/-- A draw that can start waits for its state block, then for its indices. DESIGN CHOICE, safe: log 12. -/
def drawHold (s : State) (q : QueueId) (bs : List Byte) (x : DrawArgs) : Option State :=
  match readState s q bs with
  | .wait s => some s
  | .fault .. => none
  | .ready _ => match readIndices s q bs x with
    | .wait s => some s
    | _ => none

/-- A draw starts with its state block and indices read (R630, R632 to R636, R676): a poisoned block is recorded and reads as zeros
(Table 07-9). DEDUCED, unsafe: log 25. -/
def startDraw (s : State) (q : QueueId) (p : Pkt) (bs : List Byte) (x : DrawArgs) : State :=
  match getFrame s q with
  | none => geomError s q p.num 0x0600 .none
  | some f =>
    if !f.drawn && !attachMatch f then abandonFrame (geomError s q p.num 0x0614 .none) q
    else match readState s q bs with
      | .wait s => s
      | .fault e va => graphicsKill s q p.tag .geometry 0 e.code va
      | .ready data =>
        let clean := cleanBytes data
        let state := clean.getD (List.replicate 256 0#8)
        let noted := fun (s : State) => geomUsed (if clean.isSome then s else geomPoison s q (vaAt bs 16)) q
        if !stateOk state then badField (noted s) q p
        else match readIndices s q bs x with
          | .wait s => s
          | .fault e va => graphicsKill (noted s) q p.tag .geometry 0 e.code va
          | .ready ix =>
            let restart := bitNat (fieldAt state 0x20 4) 4 && [2, 4, 5].contains (fieldAt bs 52 1 % 8) && indexSize bs != 0
            enterDraw (noted s) q p bs x state (vertexSequence bs x restart ix)

/-- The parameters of a DRAW (Table 14-1). -/
def drawArgs (bs : List Byte) : DrawArgs :=
  { count := fieldAt bs 32 4, instances := fieldAt bs 36 4, first := fieldAt bs 40 4, base := fieldAt bs 44 4
    firstInstance := fieldAt bs 48 4 }

/-- DRAW (0x11): vertex batches of a draw are formed (R631, R635, R636). -/
def execDraw (q : QueueId) (t : Stamp) (s : State) : Out :=
  .next (packetRow (s.upTo t) q 0x11 anyBytes
    (gfxHold q fun s bs => if drawBad bs || (getFrame s q).isNone then none else drawHold s q bs (drawArgs bs)) fun s p bs =>
    if drawBad bs then badField s q p else startDraw s q p bs (drawArgs bs))

/-- The draw command of DRAW_INDIRECT (Table 14-1): words of VkDrawIndirectCommand or VkDrawIndexedIndirectCommand. -/
def indirectArgs (indexed : Bool) (ws : List Byte) : DrawArgs :=
  { count := fieldAt ws 0 4, instances := fieldAt ws 4 4, first := fieldAt ws 8 4
    base := if indexed then fieldAt ws 12 4 else 0, firstInstance := fieldAt ws (if indexed then 16 else 12) 4 }

/-- The bytes of the command of DRAW_INDIRECT. -/
def readCommand (s : State) (q : QueueId) (bs : List Byte) : Reading :=
  geomRead s q (vaAt bs 32) (if indexSize bs = 0 then 16 else 20)

/-- The parameters of a DRAW_INDIRECT from its command's bytes: a poisoned command reads as zeros. -/
def commandArgs (bs : List Byte) (data : List (Byte × Bool)) : DrawArgs :=
  indirectArgs (indexSize bs ≠ 0) ((cleanBytes data).getD (List.replicate data.length 0#8))

/-- A field of a DRAW_INDIRECT out of range (Table 14-1). -/
def drawIndirectBad (bs : List Byte) : Bool := drawBad bs || vaAt bs 32 % 4 != 0

/-- DRAW_INDIRECT waits for its command, and then as a DRAW does. -/
def indirectHold (q : QueueId) (s : State) (bs : List Byte) : Option State :=
  if drawIndirectBad bs || (getFrame s q).isNone then none
  else match readCommand s q bs with
    | .wait s => some s
    | .fault .. => none
    | .ready data => drawHold s q bs (commandArgs bs data)

/-- DRAW_INDIRECT (0x12): a draw whose parameters are read from memory (R629). -/
def execDrawIndirect (q : QueueId) (t : Stamp) (s : State) : Out :=
  .next (packetRow (s.upTo t) q 0x12 anyBytes (gfxHold q (indirectHold q)) fun s p bs =>
    if drawIndirectBad bs then badField s q p
    else if (getFrame s q).isNone then geomError s q p.num 0x0600 .none
    else match readCommand s q bs with
      | .wait s => s
      | .fault e va => graphicsKill s q p.tag .geometry 0 e.code va
      | .ready data =>
        startDraw (if (cleanBytes data).isSome then s else geomPoison s q (vaAt bs 32)) q p bs (commandArgs bs data))

/-- FRAME_END (0x13): every tile of the frame is to be rendered once its draws are binned (R630, R631, R676, R679). -/
def execFrameEnd (q : QueueId) (t : Stamp) (s : State) : Out :=
  .next (packetRow (s.upTo t) q 0x13 anyBytes (gfxHold q anyTime) fun s p _ =>
    match getFrame s q with
    | none => geomError s q p.num 0x0600 .none
    | some f =>
      if !f.drawn && !attachMatch f then abandonFrame (geomError s q p.num 0x0614 .none) q
      else modFrame s q fun f => { f with endPkt := some p.num })

/-! The Binner's frame -/

/-- The Binner serves a queue's frame, or takes it where it serves none and no ready frame ranks higher (R753, R758). -/
def bindFrame (s : State) (q : QueueId) : Option State :=
  if !domOn s 64 || !placeable s q then none
  else if s.gfx.bound = some q then some s
  else if !frontServes s || s.gfx.bound.isSome || !readyToBind s q then none
  else if s.gfx.frames.any fun e => e.1 != q && readyToBind s e.1 && lexLt (queueKey s e.1) (queueKey s q) then none
  else
    let s : State := { s with gfx := { s.gfx with bound := some q } }
    some (modFrame s q fun f => { f with resumed := f.stall.isSome })

/-- Batches of a draw over all its instances. -/
def Draw.total (d : Draw) : Nat := d.plan.length * d.instances

/-- The batch of a draw by its number over all instances, with its instance. -/
def Draw.batchAt (d : Draw) (k : Nat) : Nat × Batch :=
  (k / d.plan.length, d.plan.getD (k % d.plan.length) { number := 0, idx := [], prims := [] })

/-- The granularity of a queue's pre-emption still lets a draw launch batches: at FINE none, at WORKGROUP those of a draw that
has begun (Table 17-1). -/
def mayLaunchBatch (s : State) (q : QueueId) (d : Draw) : Bool :=
  match (getQueue s q).bind Queue.preempting with
  | none => true
  | some 0 => false
  | some 1 => d.launched != 0
  | some _ => true

/-- What a graphics group needs of a core. -/
def graphicsNeed (q : QueueId) (vregs : Nat) : Need := { ctx := q.ctx, groups := 1, vregs := vregs, ls := 0, drive := none }

/-- A core takes a graphics group: it fits, and its local store leaves the graphics reservation free (R457, R459). -/
def graphicsFits (s : State) (core : Nat) (n : Need) : Bool :=
  fits s core n && localUsed s core (fun _ => false) ≤ 0x20000

/-- The core for a vertex group: the lowest-indexed powered one that takes it (R460, R637). -/
def vertexCore (s : State) (q : QueueId) (n : Need) : Option Nat :=
  (List.range 24).find? fun c => coreAllows s c n && !reservedFrom s c none (queueKey s q) && domOn s c && graphicsFits s c n

/-- The core that is woken for a vertex group where none takes it. -/
def vertexWake (s : State) (q : QueueId) (n : Need) : Option Nat :=
  (List.range 24).find? fun c => coreAllows s c n && !reservedFrom s c none (queueKey s q) && !domOn s c && graphicsFits s c n

/-- A graphics group at its launch: its program, scalar and vector registers, private space, identity and exited lanes.
DESIGN CHOICE, unsafe: log 5. -/
def graphicsGroup (s : State) (q : QueueId) (d : Draw) (kind : GroupKind) (core sched slot wg prog vregs priv privVa : Nat)
    (args : List Byte) (s16 s17 s18 : Nat) (ids : Nat × Nat × Nat) (v : List (List Word)) (lanes : Nat) (helpers : Word) : Group :=
  let w := fun (n : Nat) => BitVec.ofNat 32 n
  { ctx := q.ctx, queue := q, pkt := d.pkt, tag := d.tag, kind := kind, core := core, sched := sched, wg := wg, homeSlot := slot
    progVa := prog, vregs := vregs, privBytes := priv, privVa := privVa, pcs := List.replicate 32 prog
    sts := (List.range 32).map fun l => if l < lanes then ThreadSt.running else .exited
    v := launchRegs vregs v
    sregs := argRegs args ++ [w s16, w s17, w s18, 0#32, w q.ctx.idx, w slot] ++ List.replicate 42 0#32
    num := { seed := ((getCtx s q.ctx).map Ctx.seed).getD 0#32, id0 := w ids.1, id1 := w ids.2.1, id2 := w ids.2.2 }
    helpers := helpers, launched := s.stamp, code := d.code }

/-- A graphics group enters a core as a workgroup of one group. -/
def placeGraphics (s : State) (q : QueueId) (core : Nat) (mk : Nat → Nat → Nat → Group) : Option (Nat × State) :=
  match assignSlots s core (baseSched (groupsOn s core fun _ => false)) 1 with
  | [(sched, slot)] =>
    let w : Workgroup := { dispatch := none, queue := q, core := core, lsBytes := 0, groups := 1 }
    some (slot, addWg s w [(slot, mk sched slot s.cores.nextWg)])
  | _ => none

/-- The first draw of a frame with batches to launch. -/
def launchingDraw (f : Frame) : Option Draw := f.draws.find? fun d => d.launched < d.total

/-- A draw of a frame changed. -/
def setDraw (f : Frame) (d : Draw) : Frame := { f with draws := f.draws.map fun x => if x.index = d.index then d else x }

/-- The next batch of a draw launches on a core (R637, Table 14-3). -/
def launchBatch (s : State) (q : QueueId) (d : Draw) (core : Nat) (args : List Byte) : State :=
  let (inst, b) := d.batchAt d.launched
  let s17 := (d.firstInstance + inst) % 2 ^ 32
  let v0 := (List.range 32).map fun l => BitVec.ofNat 32 (b.idx.getD l 0)
  let mk := fun (sched slot wg : Nat) =>
    graphicsGroup s q d (.vertex d.launched) core sched slot wg d.vprog d.vregs (fieldAt d.state 0x30 4) (fieldAt d.state 0x38 6)
      args d.index s17 b.number (d.index, s17, b.number) [v0] b.idx.length 0#32
  match placeGraphics s q core mk with
  | some (slot, s) => modFrame s q fun f => setDraw f { d with launched := d.launched + 1, slots := d.slots ++ [slot] }
  | none => s

/-- VERTEX_GROUP_LAUNCH: the next batch of the frame that the Binner serves launches on a core, or a core is woken (R636, R637,
R755, R766). -/
def execVertexGroupLaunch (q : QueueId) (core : Nat) (t : Stamp) (s : State) : Out :=
  let s := s.upTo t
  match bindFrame s q with
  | none => .next s
  | some s =>
    match (getFrame s q).bind launchingDraw with
    | none => .next s
    | some d =>
      let n := graphicsNeed q d.vregs
      if !mayLaunchBatch s q d || hasSaved s q.ctx then .next s
      else match vertexCore s q n with
        | some k =>
          if k ≠ core then .next s
          else .next (withArgs s q d.tag core d.argVa fun s bs => launchBatch s q d core bs)
        | none => match vertexWake s q n with
          | some k => .next (if k = core then requestWake s core else s)
          | none => .next s

/-! Binning -/

/-- Tiles that a primitive of the wide list reaches. -/
def wideTiles (f : Frame) (d : Draw) (p : Prim) : List Nat :=
  let b := boundsOf d p.kind p.verts
  let px := fun (v : Int) (n : Nat) => (min (max (v / 256) 0) (n - 1)).toNat / f.edge
  (List.range f.tileCount).filter fun k =>
    let x := k % f.tilesX
    let y := k / f.tilesX
    px b.1 f.width ≤ x && x ≤ px b.2.2.1 f.width && px b.2.1 f.height ≤ y && y ≤ px b.2.2.2 f.height

/-- A draw of a frame by its index, in progress or complete. -/
def drawAt (f : Frame) (index : Nat) : Option Draw := (f.draws ++ f.kept).find? fun d => d.index == index

/-- Tiles with entries, or that the wide list reaches (Table 14-6 step 2). -/
def touchedTiles (f : Frame) : List Nat :=
  let wide := (tblGetD f.bins f.tileCount []).filterMap fun seq => f.prims[seq]?
  let reach := wide.flatMap fun p => match drawAt f p.draw with
    | some d => wideTiles f d p
    | none => []
  (List.range f.tileCount).filter fun k => (tblGet f.bins k).isSome || reach.contains k

/-- A partial render flush starts (R656). -/
def startFlush (s : State) (q : QueueId) : State :=
  let s := modFrame s q fun f =>
    { f with flushing := true, partial_ := true, stall := none, resumed := false, flushes := f.flushes + 1, todo := touchedTiles f }
  queueEvent (detect (writePool s q true) (geomRec s q 0x0606 0 (frameTag s q) .none)) q

/-- The Binner stalls for want of a page (R654). -/
def startStall (s : State) (q : QueueId) : State :=
  let g := ((getCtx s q.ctx).map Ctx.binGrace).getD 0
  let s := modFrame s q fun f => { f with stall := some (s.stamp, g * 1000), resumed := false }
  queueEvent (detect (writePool s q true) (geomRec s q 0x0605 0 (frameTag s q) .none)) q

/-- What a batch's need of pages leads to. -/
inductive PageNeed where
  | ready (s : State)
  | stopped (s : State)

/-- Pages are taken until a frame has `n` of them; at most `fuel` takes. The frame stalls where the pool is empty. -/
def takePages (s : State) (q : QueueId) (pkt n : Nat) : Nat → PageNeed
  | 0 => .stopped s
  | k + 1 =>
    match getFrame s q with
    | none => .stopped s
    | some f =>
      if n ≤ f.pages.length then .ready s
      else match takePage s q pkt with
        | .taken s => takePages s q pkt n k
        | .empty s => .stopped (startStall s q)
        | .wait s => .stopped s
        | .gone s => .stopped s

/-- A vertex or fragment group whose outputs have been taken leaves its core. -/
def dropGroup (s : State) (slot : Nat) : State := leaveSlot s slot

/-- A draw whose batches are all binned completes; a poisoned index makes it an error completion (R631, Table 14-9). -/
def finishDraw (s : State) (q : QueueId) (d : Draw) : State :=
  if d.binned < d.total then s
  else
    let s := modFrame s q fun f => { f with draws := f.draws.filter fun x => x.index ≠ d.index, kept := f.kept ++ [d] }
    if d.poisoned then geomError s q d.pkt 0x0607 .none else completePkt s q d.pkt

/-- The oldest batch that is not binned, whose group has exited with its accesses complete. -/
def batchDone (s : State) (f : Frame) : Option (Draw × Nat × Group) :=
  match f.draws.head? with
  | none => none
  | some d => match d.slots.head? with
    | none => none
    | some slot => match getGroup s slot with
      | none => none
      | some g => if groupExited g && !groupBusy s slot then some (d, slot, g) else none

/-- BATCH_BIN: the next batch in order is clipped, culled and binned, its records and entries written; the Binner takes the
pages that it needs, or stalls, or starts a partial render flush at 4,096 pages (R639 to R655). -/
def execBatchBin (q : QueueId) (t : Stamp) (s : State) : Out :=
  let s := s.upTo t
  match bindFrame s q with
  | none => .next s
  | some s =>
    match getFrame s q with
    | none => .next s
    | some f =>
      if f.flushing || f.stall.isSome then .next s
      else match batchDone s f with
        | none => .next s
        | some (d, slot, g) =>
          let (inst, b) := d.batchAt d.binned
          let r := binBatch f d b ((d.firstInstance + inst) % 2 ^ 32) g.outs
          if r.1.ordinal ≥ 4096 then .next (startFlush s q)
          else match takePages s q d.pkt (r.1.ordinal + 1) 4096 with
            | .stopped s => .next s
            | .ready s =>
              let pages := ((getFrame s q).map Frame.pages).getD []
              let d := { d with binned := d.binned + 1, slots := d.slots.drop 1 }
              let f' := { r.1 with pages := pages }
              let s := modFrame s q fun f =>
                setDraw { f' with taken := f.taken, low := f.low, partial_ := f.partial_ } d
              .next (finishDraw (putBins (dropGroup s slot) q f' g.core r.2) q d)

/-- PUBLISHED_READ_RETURN: a read of PUBLISHED returns to a stalled Binner: with pages free before the grace time has passed, or
at once after a save, the stall ends (R654, R660). -/
def execPublishedReadReturn (q : QueueId) (t : Stamp) (s : State) : Out :=
  let s := s.upTo t
  match bindFrame s q with
  | none => .next s
  | some s =>
    match getFrame s q with
    | none => .next s
    | some f =>
      match f.stall with
      | none => .next s
      | some (e, g) =>
        match freeCount s q f with
        | .wait s => .next s
        | .gone s => .next s
        | .count s free =>
          let s := geomUsed s q
          let s' := modFrame s q fun f => { f with resumed := false }
          if free ≠ 0 && (f.resumed || s.stamp < e + g) then
            .next (writePool (modFrame s' q fun f => { f with stall := none }) q true)
          else .next s'

/-- BIN_GRACE_EXPIRE: the grace time of a stall has passed and a partial render flush starts (R654, R660). -/
def execBinGraceExpire (q : QueueId) (t : Stamp) (s : State) : Out :=
  let s := s.upTo t
  if s.gfx.bound ≠ some q || !timed s then .next s
  else match (getFrame s q).bind Frame.stall with
    | some (e, g) => .next (if s.stamp ≥ e + g && !(((getFrame s q).map Frame.resumed).getD false) then startFlush s q else s)
    | none => .next s

/-- No tile of a queue's frame is in progress. -/
def noTiles (s : State) (q : QueueId) : Bool := !(s.gfx.tiles.any fun e => e.2.queue == q)

/-- PARTIAL_FLUSH_REWIND: the flushed tiles are rendered: the bin lines are discarded, FRAME_TAG goes up, and page use and
PRIM_SEQ restart (Table 14-6 steps 3 and 4, R657). -/
def execPartialFlushRewind (q : QueueId) (t : Stamp) (s : State) : Out :=
  let s := s.upTo t
  match getFrame s q with
  | none => .next s
  | some f =>
    if !f.flushing || !f.todo.isEmpty || !noTiles s q then .next s
    else
      let s := raiseTag (discardBins s q f) q
      let s := modFrame s q fun f =>
        { f with flushing := false, ordinal := 0, unit := 0, prims := [], bins := [], blocks := [], kept := [] }
      .next (writePool s q true)

/-- No batch of a frame is between its launch and its binning, or the Binner is stalled: a batch boundary (R659, R660). -/
def atBatchBoundary (f : Frame) : Bool := f.stall.isSome || f.draws.all fun d => d.slots.isEmpty

/-- The frame's queue is to yield at its granularity, or has no packet in progress (R659, R669, Table 17-1). -/
def yieldDue (s : State) (q : QueueId) (f : Frame) : Bool :=
  match (getQueue s q).bind Queue.preempting with
  | some 0 => true
  | some 1 => f.stall.isSome || f.draws.all fun d => d.launched == 0
  | some _ => false
  | none => f.draws.isEmpty && f.endPkt.isNone

/-- BINNER_YIELD: at a batch boundary the Binner writes SAVE and serves the frame no more (R659, R660, R669). The contents of
SAVE are not architectural. -/
def execBinnerYield (q : QueueId) (t : Stamp) (s : State) : Out :=
  let s := s.upTo t
  match getFrame s q with
  | none => .next s
  | some f =>
    if s.gfx.bound ≠ some q || !atBatchBoundary f || f.flushing || !yieldDue s q f then .next s
    else
      let bytes := leBytes 64 (Config.freeNat s.free)
      let s := binWrite { s with free := s.free + 1 } q (f.pool + 0x40) bytes
      .next { s with gfx := { s.gfx with bound := if s.gfx.bound = some q then none else s.gfx.bound } }

/-- The frame status record (Table 14-7). -/
def statusRecord (f : Frame) : List Byte :=
  leBytes 4 f.frameId.toNat ++ leBytes 4 (natOfBool (f.flushes ≠ 0)) ++ leBytes 4 f.flushes ++ leBytes 4 f.pages.length ++
    leBytes 4 f.primsIn ++ leBytes 4 f.primsBinned ++ leBytes 4 f.primsCulled ++ leBytes 4 f.primsClipped

/-- FRAME_END_COMPLETE: every tile is flushed: the bin lines are discarded, the status record and RETIRED written and OPEN cleared
(R658, R662, R684); once these writes are performed, FRAME_END completes (R631). DEDUCED, unsafe: log 25. -/
def execFrameEndComplete (q : QueueId) (t : Stamp) (s : State) : Out :=
  let s := s.upTo t
  match getFrame s q with
  | none => .next s
  | some f =>
    match f.endPkt with
    | none => .next s
    | some num =>
      if !f.rendering || f.flushing || !f.todo.isEmpty || !noTiles s q then .next s
      else if !f.closing then
        let s := binWrite (discardBins s q f) q f.statusVa (statusRecord f)
        let s := writePool (binWrite s q (f.pool + 0x14) (leBytes 4 f.taken)) q false
        .next (modFrame s q fun f => { f with closing := true })
      else if !(geomPending s q).isEmpty then .next s
      else
        let s : State := { s with gfx := { s.gfx with
            frames := tblErase s.gfx.frames q, bound := if s.gfx.bound = some q then none else s.gfx.bound } }
        .next (completePkt s q num)

end Sys2Proof.Machine
end

