-- ==== Sys2Proof/Machine/RasterOps.lean ====
section
/-!
DEFINITION. Rasterisation, depth and stencil, and Glaze (spec 15): coverage, depths, tests, and the blend of one sample, with no
memory access.
-/

namespace Sys2Proof.Machine

/-! Draw state (Table 15-2) -/

/-- FPROG_VA. -/
def fprogVa (d : Draw) : Nat := fieldAt d.state 0x80 6
/-- FFLAGS. -/
def fflags (d : Draw) : Nat := fieldAt d.state 0x91 1
/-- The draw launches no fragment thread group (R678). -/
def noFrag (d : Draw) : Bool := fprogVa d == 0
/-- SAMPLE_SHADING has effect. -/
def sampleShading (d : Draw) : Bool := bitNat (fflags d) 1 && !noFrag d
/-- The draw uses early testing (R678, R691). -/
def earlyTest (d : Draw) : Bool := noFrag d || !bitNat (fflags d) 5 || bitNat (fflags d) 0
/-- DS. -/
def dsWord (d : Draw) : Nat := fieldAt d.state 0x94 4
/-- BLEND a. -/
def blendWord (d : Draw) (a : Nat) : Nat := fieldAt d.state (0xC0 + 4 * a) 4
/-- LOGIC. -/
def logicByte (d : Draw) : Nat := fieldAt d.state 0xF0 1

/-- A draw whose primitives may belong to a run (R678, R692). -/
def mayRun (d : Draw) : Bool :=
  let ds := dsWord d
  earlyTest d && bitNat ds 0 && bitNat ds 1 && [1, 3, 4, 6].contains (bitsNat ds 4 2) && !bitNat ds 5 &&
    (noFrag d || (bitNat (fflags d) 4 && !bitNat (logicByte d) 0 && (List.range 8).all fun a => !bitNat (blendWord d a) 0))

/-! Coverage -/

/-- A point in 1/256 pixel. -/
abbrev Pt := Int × Int

/-- A sample position of a pixel. -/
def samplePt (log2s x y k : Nat) : Pt :=
  let o := (samplePositions log2s).getD k (8, 8)
  (256 * (x : Int) + 16 * (o.1 : Int), 256 * (y : Int) + 16 * (o.2 : Int))

/-- The centre of a pixel. -/
def centrePt (x y : Nat) : Pt := (256 * (x : Int) + 128, 256 * (y : Int) + 128)

/-- A sample on an edge is covered where the edge, of a figure that turns clockwise on the screen, is a left or a top edge
(R686). -/
def edgeHolds (v : Pt) : Bool := v.2 < 0 || (v.2 == 0 && 0 < v.1)

/-- A sample lies inside an edge of that direction, by the sign of its distance (R686). -/
def insideEdge (v : Pt) (e : Int) : Bool := 0 < e || (e == 0 && edgeHolds v)

/-- The vector from a to b. -/
def ptSub (b a : Pt) : Pt := (b.1 - a.1, b.2 - a.2)

/-- The opposite vector. -/
def ptNeg (v : Pt) : Pt := (-v.1, -v.2)

/-- A triangle covers a sample (R686). -/
def inTriangle (a b c p : Pt) : Bool :=
  let (b, c) := if cross2 a b c < 0 then (c, b) else (b, c)
  insideEdge (ptSub b a) (cross2 a b p) && insideEdge (ptSub c b) (cross2 b c p) && insideEdge (ptSub a c) (cross2 c a p)

/-- The progress of a point along a segment, times its squared length, and that square. -/
def alongLine (a b p : Pt) : Int × Int :=
  let d := ptSub b a
  let o := ptSub p a
  (d.1 * o.1 + d.2 * o.2, d.1 * d.1 + d.2 * d.2)

/-- A line of a width covers a sample: the rectangle centred on the segment (R687). -/
def inLine (w : Int) (a b p : Pt) : Bool :=
  let d := ptSub b a
  let n : Pt := (-d.2, d.1)
  let c := cross2 a b p
  let t := alongLine a b p
  let side := fun (c : Int) => if 0 ≤ c then 1 else w * w * t.2 - 4 * c * c
  insideEdge d (side c) && insideEdge n (t.2 - t.1) && insideEdge (ptNeg d) (side (-c)) && insideEdge (ptNeg n) t.1

/-- A point of an FP32 size covers a sample: the square centred on it (R687). -/
def inPoint (size : Word) (c p : Pt) : Bool :=
  let m := f32Fixed size 23
  let dx := 2 ^ 16 * (p.1 - c.1)
  let dy := 2 ^ 16 * (p.2 - c.2)
  decide (0 ≤ dx + m) && dx < m && 0 ≤ dy + m && dy < m

/-- A primitive covers a sample position. -/
def shapeCovers (d : Draw) (prim : Prim) (p : Pt) : Bool :=
  match prim.kind, prim.verts.map (snapVert d) with
  | 2, [a, b, c] => inTriangle a b c p
  | 1, [a, b] => inLine (lineWidth d) a b p
  | 0, [a] => inPoint (pointSize d (prim.verts.headD { outs := [] })) a p
  | _, _ => false

/-- The covered samples of a pixel as a mask: within the scissor, the render area and SAMPLE_MASK (R686, R687). -/
def coverage (f : Frame) (d : Draw) (prim : Prim) (x y : Nat) : Nat :=
  let r := clipRect f d
  if r.1 ≤ x && x < r.2.2.1 && r.2.1 ≤ y && y < r.2.2.2 then
    (((List.range (2 ^ f.log2s)).filter fun k =>
      bitNat (fieldAt d.state 0x92 1) k && shapeCovers d prim (samplePt f.log2s x y k)).map fun k => 2 ^ k).sum
  else 0

/-! Depth -/

/-- A value per vertex at a screen position: the plane of a triangle, the segment of a line, or the value of a point (R689).
DEDUCED, unsafe: log 27. -/
def planeAt (d : Draw) (prim : Prim) (p : Pt) (vals : List FVal) : FVal :=
  let times := fun (v : FVal) (n : Int) => fmulExact v (ofInt n)
  match prim.verts.map (snapVert d), vals with
  | [a, b, c], [u, v, w] =>
    fdivVal (faddExact false (faddExact false (times u (cross2 b c p)) (times v (cross2 c a p))) (times w (cross2 a b p)))
      (ofInt (cross2 a b c))
  | [a, b], [u, v] =>
    let t := alongLine a b p
    fdivVal (faddExact false (times u (t.2 - t.1)) (times v t.1)) (ofInt t.2)
  | _, u :: _ => u
  | _, _ => .fin false 0 0

/-- Screen depths of a primitive's vertices. -/
def primDepths (d : Draw) (prim : Prim) : List FVal := prim.verts.map fun v => f32 (screenZ d v)

/-- The depth slope of a triangle, in depth per pixel: the length of its gradient. PRESUMED, unsafe: log 28. -/
def depthSlope (d : Draw) (prim : Prim) : Word :=
  let times := fun (v : FVal) (n : Int) => fmulExact v (ofInt n)
  match prim.verts.map (snapVert d), primDepths d prim with
  | [a, b, c], [u, v, w] =>
    let grad := fun (f : Pt → Int) => faddExact false (faddExact false (times u (f (ptSub c b))) (times v (f (ptSub a c))))
      (times w (f (ptSub b a)))
    let gx := grad fun e => -e.2
    let gy := grad fun e => e.1
    match faddExact false (fmulExact gx gx) (fmulExact gy gy) with
    | .fin _ m e =>
      let r := if m = 0 then (0, 0) else sqrtOf m e
      toF32 0 (fdivVal (.fin false r.1 (r.2 + 8)) (ofInt (cross2 a b c)).abs)
    | v => toF32 0 v
  | _, _ => f32Zero

/-- The least resolvable difference r of the depth bias (R689). -/
def biasUnit (d : Draw) (prim : Prim) (fmt : Nat) : FVal :=
  match fmt with
  | 0x30 => .fin false 1 (-16)
  | 0x31 => .fin false 1 (-24)
  | _ =>
    let top := (primDepths d prim).foldl (fun acc v => fmaxNum acc v.abs) (.fin false 0 0)
    .fin false 1 (max (ilogb top) (-126) - 23)

/-- The depth bias of a triangle in FP32 (R689). PRESUMED, unsafe: log 28. -/
def depthBias (d : Draw) (prim : Prim) (fmt : Nat) : Word :=
  if prim.kind ≠ 2 then f32Zero
  else
    let o := f32Add (f32Mul (depthSlope d prim) (stW d 0xAC)) (toF32 0 (fmulExact (biasUnit d prim fmt) (f32 (stW d 0xA8))))
    let clamp := stW d 0xB0
    if f32Lt f32Zero clamp then f32Min o clamp else if f32Lt clamp f32Zero then f32Max o clamp else o

/-- An FP32 depth clamped to the depth range where DEPTH_CLAMP is set; a NaN is +0 (R690). -/
def clampDepth (d : Draw) (z : Word) : Word :=
  let lo := f32Min (stW d 0x10) (stW d 0x14)
  let hi := f32Max (stW d 0x10) (stW d 0x14)
  let z := if f32 z = .nan then f32Zero else z
  if bitNat (gflags d) 3 then f32Min hi (f32Max lo z) else z

/-- A fragment's FP32 depth at a position, with its bias (R689). -/
def biasedDepth (d : Draw) (prim : Prim) (fmt : Nat) (p : Pt) : Word :=
  f32Add (toF32 0 (planeAt d prim p (primDepths d prim))) (depthBias d prim fmt)

/-! Depth and stencil tests -/

/-- A comparison in the order of VkCompareOp. -/
def vkCompare (op : Nat) (o : Option Int) : Bool :=
  match op, o with
  | 0, _ => false
  | 1, some d => d < 0
  | 2, some d => d == 0
  | 3, some d => d ≤ 0
  | 4, some d => 0 < d
  | 5, some d => d != 0
  | 5, none => true
  | 6, some d => 0 ≤ d
  | 7, _ => true
  | _, _ => false

/-- A stencil operation in the order of VkStencilOp. PRESUMED, unsafe: log 28. -/
def stencilOp (op ref old : Nat) : Nat :=
  match op with
  | 1 => 0
  | 2 => ref
  | 3 => min 255 (old + 1)
  | 4 => old - 1
  | 5 => 255 - old
  | 6 => (old + 1) % 256
  | 7 => (old + 255) % 256
  | _ => old

/-- Two depth fields of a format compared. -/
def depthOrder (fmt a b : Nat) : Option Int := fcompare (depthVal fmt a) (depthVal fmt b)

/-- The depth-bounds test of a stored depth (Table 15-2). PRESUMED, unsafe: log 28. -/
def boundsPass (d : Draw) (fmt stored : Nat) : Bool :=
  !bitNat (dsWord d) 6 || !hasDepth fmt ||
    (vkCompare 3 (depthOrder fmt (encodeDepth fmt (stW d 0xB4)) stored) &&
      vkCompare 3 (depthOrder fmt stored (encodeDepth fmt (stW d 0xB8))))

/-- One sample tested against a slot-8 sample of a format: whether it passes, and the sample after (R690).
PRESUMED, unsafe: log 28. -/
def testSample (d : Draw) (front : Bool) (fmt old : Nat) (z : Word) : Bool × Nat :=
  let ds := dsWord d
  let depth := depthField fmt old
  let st := stencilField fmt old
  if !boundsPass d fmt depth then (false, old)
  else
    let off := if front then 0x98 else 0xA0
    let word := fieldAt d.state off 4
    let ref := fieldAt d.state (off + 4) 1
    let stencilOn := bitNat ds 5 && hasStencil fmt
    let cmp := bitsNat word 23 16
    let stPass := !stencilOn || vkCompare (bitsNat word 11 9) (some (((ref &&& cmp : Nat) : Int) - ((st &&& cmp : Nat) : Int)))
    let depthOn := bitNat ds 0 && hasDepth fmt
    let new := encodeDepth fmt z
    let zPass := !depthOn || vkCompare (bitsNat ds 4 2) (depthOrder fmt new depth)
    let op := if !stPass then bitsNat word 2 0 else if zPass then bitsNat word 5 3 else bitsNat word 8 6
    let mask := bitsNat word 31 24
    let st := if stencilOn then (st &&& (255 - mask)) ||| (stencilOp op ref st &&& mask) else st
    let pass := stPass && zPass
    (pass, packDepth fmt (if pass && depthOn && bitNat ds 1 then new else depth) st)

/-! Glaze -/

/-- The clamp that a fixed-point attachment puts on the values of a blend. PRESUMED, unsafe: log 28. -/
def fixClamp (k : CompKind) (w : Word) : Word :=
  match k with
  | .unorm => toF32 0 (saturate (f32 w))
  | .snorm => f32Min f32One (f32Max 0xBF800000#32 w)
  | _ => w

/-- A component of a colour. -/
def chan (c : List Word) (ch : Nat) : Word := c.getD ch 0#32

/-- 1 - w. -/
def oneMinus (w : Word) : Word := f32Sub f32One w

/-- A blend factor for a channel, in the order of VkBlendFactor: sources, destination, constant.
PRESUMED, unsafe: log 28. -/
def blendFactor (code ch : Nat) (s0 s1 dst k : List Word) : Word :=
  match code with
  | 0 => f32Zero
  | 1 => f32One
  | 2 => chan s0 ch
  | 3 => oneMinus (chan s0 ch)
  | 4 => chan dst ch
  | 5 => oneMinus (chan dst ch)
  | 6 => chan s0 3
  | 7 => oneMinus (chan s0 3)
  | 8 => chan dst 3
  | 9 => oneMinus (chan dst 3)
  | 10 => chan k ch
  | 11 => oneMinus (chan k ch)
  | 12 => chan k 3
  | 13 => oneMinus (chan k 3)
  | 14 => if ch = 3 then f32One else f32Min (chan s0 3) (oneMinus (chan dst 3))
  | 15 => chan s1 ch
  | 16 => oneMinus (chan s1 ch)
  | 17 => chan s1 3
  | _ => oneMinus (chan s1 3)

/-- One channel blended, in FP32 with RNE at each step (R698, Table 15-2). -/
def blendChannel (w ch : Nat) (fix : Word → Word) (s0 s1 dst k : List Word) : Word :=
  let alpha := ch = 3
  let op := if alpha then bitsNat w 16 14 else bitsNat w 3 1
  let factor := fun code => fix (blendFactor code ch s0 s1 dst k)
  let src := chan s0 ch
  let old := chan dst ch
  if op = 3 then f32Min src old
  else if op = 4 then f32Max src old
  else
    let x := f32Mul src (factor (if alpha then bitsNat w 21 17 else bitsNat w 8 4))
    let y := f32Mul old (factor (if alpha then bitsNat w 26 22 else bitsNat w 13 9))
    match op with
    | 0 => f32Add x y
    | 1 => f32Sub x y
    | _ => f32Sub y x

/-- A logic operation in the order of VkLogicOp on words of so many bits. PRESUMED, unsafe: log 28. -/
def logicOp (op bits s d : Nat) : Nat :=
  let inv := fun (x : Nat) => 2 ^ bits - 1 - x
  match op with
  | 0 => 0
  | 1 => s &&& d
  | 2 => s &&& inv d
  | 3 => s
  | 4 => inv s &&& d
  | 5 => d
  | 6 => s ^^^ d
  | 7 => s ||| d
  | 8 => inv (s ||| d)
  | 9 => inv (s ^^^ d)
  | 10 => inv d
  | 11 => s ||| inv d
  | 12 => inv s
  | 13 => inv s ||| d
  | 14 => inv (s &&& d)
  | _ => 2 ^ bits - 1

/-- Channels of a mask of a raw pixel replaced by those of another. -/
def mergeRaw (pf : PixFmt) (mask old new : Nat) : Nat :=
  (compOffsets pf.comps).foldl (fun acc c =>
    let (off, ch, _, bits) := c
    if bitNat mask ch then acc - acc / 2 ^ off % 2 ^ bits * 2 ^ off + new / 2 ^ off % 2 ^ bits * 2 ^ off else acc) old

/-- A format that logic operations apply to (R699). -/
def logicFmt (pf : PixFmt) : Bool := !pf.srgb && pf.comps.all fun c => c.2.1 == .unorm || c.2.1 == .uint || c.2.1 == .sint

/-- The colour attachment sample of a format after a fragment writes it (R698, R699). PRESUMED, unsafe: log 28. -/
def glaze (d : Draw) (a fmt old : Nat) (s0 s1 : List Word) (free : Nat → Nat) : Nat :=
  match pixFmt fmt with
  | none => old
  | some pf =>
    let w := blendWord d a
    let mask := bitsNat w 30 27
    if bitNat (logicByte d) 0 then
      if logicFmt pf then
        mergeRaw pf mask old (logicOp (bitsNat (logicByte d) 4 1) (8 * pf.bytes) (encodePixel fmt 15 0 s0 free) old)
      else encodePixel fmt mask old s0 free
    else if bitNat w 0 && pf.blend then
      let fix := fixClamp (((pf.comps.head?).map fun c => c.2.1).getD .sfloat)
      let k := (List.range 4).map fun ch => fix (stW d (0xE0 + 4 * ch))
      let c := (List.range 4).map fun ch => blendChannel w ch fix (s0.map fix) (s1.map fix) (decodePixel fmt old) k
      encodePixel fmt mask old c free
    else encodePixel fmt mask old s0 free

/-- Samples that ALPHA_TO_COVERAGE keeps of S (R700). -/
def alphaSamples (alpha : Word) (s : Nat) : Nat :=
  match floorVal (faddExact false (fmulExact (saturate (f32 alpha)) (.fin false s 0)) (.fin false 1 (-1))) with
  | .fin _ m e => roundShift 1 {} false m e
  | _ => 0

/-- The FP32 mean of the samples of a pixel (R701). DEDUCED, unsafe: log 27. -/
def meanColour (cs : List (List Word)) : List Word :=
  (List.range 4).map fun ch =>
    toF32 0 (fdivVal (cs.foldl (fun acc c => faddExact false acc (f32 (chan c ch))) (.fin false 0 0)) (ofInt cs.length))

/-- The raw pixel that a resolve writes from its raw samples (R701). -/
def resolvePixel (slot fmt : Nat) (raws : List Nat) (free : Nat → Nat) : Nat :=
  match raws, pixFmt fmt with
  | [x], _ => x
  | x :: _, some pf => if slot = 8 || pf.isInt then x else encodePixel fmt 15 0 (meanColour (raws.map (decodePixel fmt))) free
  | x :: _, none => x
  | [], _ => 0

end Sys2Proof.Machine
end

