-- ==== Sys2Proof/Machine/TileOps.lean ====
section
/-!
DEFINITION. A tile in progress (R679 to R684): its load and flush accesses, the formation of quads, and the blend of the
outputs of its fragment groups.
-/

namespace Sys2Proof.Machine

/-! Tiles and samples -/

/-- The tile in progress on a core. -/
def getTile (s : State) (core : Nat) : Option Tile := tblGet s.gfx.tiles core

/-- The state with a tile set. -/
def putTile (s : State) (core : Nat) (x : Tile) : State := { s with gfx := { s.gfx with tiles := tblSet s.gfx.tiles core x } }

/-- The NI of the tile backend of a core's cluster (Table 09-1). -/
def tileNi (core : Nat) : Nat := 48 + 8 * 5 + core / 4 + 1

/-- The first pixel of a tile. -/
def Frame.origin (f : Frame) (tile : Nat) : Nat × Nat := (tile % f.tilesX * f.edge, tile / f.tilesX * f.edge)

/-- Samples per pixel. -/
def Frame.samples (f : Frame) : Nat := 2 ^ f.log2s

/-- The place of a sample of a pixel of the frame within its tile's samples. -/
def sampleIdx (f : Frame) (x y k : Nat) : Nat := (y % f.edge * f.edge + x % f.edge) * f.samples + k

/-- A raw sample of an attachment of a tile. -/
def Tile.sampleAt (tl : Tile) (slot n : Nat) : Nat := (tblGetD tl.samples slot []).getD n 0

/-- A raw sample written. -/
def Tile.setSample (tl : Tile) (slot n v : Nat) : Tile :=
  { tl with samples := tblModify tl.samples slot fun l => l.set n v }

/-- Bytes per sample of an attachment. -/
def Attach.bytesOf (a : Attach) (slot : Nat) : Nat := (attachBytes slot a.format).getD 1

/-- The pixels of a tile within the render area, row by row: y, first x, and count. -/
def tileRows (f : Frame) (tile : Nat) : List (Nat × Nat × Nat) :=
  let o := f.origin tile
  (rangeFrom o.2 (min f.edge (f.height - o.2))).map fun y => (y, o.1, min f.edge (f.width - o.1))

/-- The packet that a tile is rendered for: FRAME_END, or the packet that the Binner has in progress. -/
def tilePkt (f : Frame) : Nat := f.endPkt.getD ((f.draws.head?.map Draw.pkt).getD 0)

/-- A fault of a tile backend (Table 15-9). -/
def tileKill (s : State) (core : Nat) (q : QueueId) (code va : Nat) : State :=
  graphicsKill s q (frameTag s q) .tileBackend (core / 4) code va

/-- The accesses of a tile backend to the bytes of one row: one for each line (R471). -/
def rowAccess (s : State) (core : Nat) (q : QueueId) (va len : Nat) (need : AccessNeed) (mk : Nat → Nat → Nat → AccKind) : State :=
  (linePieces va len).foldl (fun s e =>
    if (forfeitOf s q.ctx).isSome then s
    else match translate s q.ctx e.1 need with
      | .error x => tileKill s core q x.code e.1
      | .ok (h, l) =>
        enterFabric s (gfxAccess s (.tile core) (tileNi core) q e.1 h l (lineSecs (e.1 / 128 * 128) e.2.2 [e.1])
          (mk (e.1 % 128) e.2.1 e.2.2))) s

/-- The VA of a row of an attachment's samples (R674). -/
def Attach.rowVa (a : Attach) (f : Frame) (slot : Nat) (r : Nat × Nat × Nat) : Nat :=
  a.va + r.1 * a.pitch + r.2.1 * f.samples * a.bytesOf slot

/-! The load phase (R680, R682) -/

/-- The attachment of a tile is loaded from memory: under LOAD, or where the tile was flushed (R680, R682). -/
def loadsTile (f : Frame) (tile : Nat) (a : Attach) : Bool := f.bitmap.contains tile || a.load == 0

/-- A raw sample of CLEAR (Table 15-1). -/
def clearRaw (slot : Nat) (a : Attach) (fr : Nat) : Nat :=
  if slot = 8 then packDepth a.format (encodeDepth a.format (a.clear.getD 0 0#32)) ((a.clear.getD 1 0#32).toNat % 256)
  else encodePixel a.format 15 0 a.clear fun ch => Config.freeNat (fr + 4 * slot + ch)

/-- The samples of a tile before the load's answers: CLEAR, or zero. -/
def initialSamples (f : Frame) (tile fr : Nat) : List (Nat × List Nat) :=
  f.attach.map fun e =>
    let v := if !loadsTile f tile e.2 && e.2.load == 1 then clearRaw e.1 e.2 fr else 0
    (e.1, List.replicate (f.edge * f.edge * f.samples) v)

/-- The reads of the load phase. -/
def startLoad (s : State) (core : Nat) (q : QueueId) (f : Frame) (tile : Nat) : State :=
  (f.attach.filter fun e => loadsTile f tile e.2).foldl (fun s e =>
    (tileRows f tile).foldl (fun s r =>
      rowAccess s core q (e.2.rowVa f e.1 r) (r.2.2 * f.samples * e.2.bytesOf e.1) .load fun _ _ _ => .read) s) s

/-- The pool records of a primitive: its own and those of its vertices, by VA and length (Table 14-5). -/
def primSpans (f : Frame) (seq : Nat) : List (Nat × Nat) :=
  match f.prims[seq]? with
  | none => []
  | some p =>
    let verts := match drawAt f p.draw with
      | some d => p.verts.map fun v => (refVa f v.ref, (vertexRecord d v).length)
      | none => []
    (refVa f p.ref, 64) :: verts

/-- What a backend reads of a bin: its tile-table entry, its blocks, and the records of its primitives (R650, R651). -/
def binSpans (f : Frame) (bin : Nat) : List (Nat × Nat) :=
  let blocks := ((tblGet f.blocks bin).map Prod.fst).getD []
  (f.table + 8 * bin, 8) :: (blocks.map fun r => (refVa f r, 64)) ++ (tblGetD f.bins bin []).flatMap (primSpans f)

/-- The sectors of ranges, by line. -/
def spanLines (spans : List (Nat × Nat)) : List (Nat × List Nat) :=
  let secs := (spans.flatMap fun e => (List.range (sectorsOf e.1 e.2)).map fun k => e.1 / 32 + k).eraseDups
  ((secs.map fun k => k / 4).eraseDups).map fun line =>
    (128 * line, (List.range 4).filter fun k => secs.contains (4 * line + k))

/-- The backend reads the bin of a tile and the wide list (R19, R681): one access for each line, after what the Binner wrote there.
DEDUCED, unsafe: log 27. -/
def startBins (s : State) (core : Nat) (q : QueueId) (f : Frame) (tile : Nat) : State :=
  (spanLines (binSpans f tile ++ binSpans f f.tileCount)).foldl (fun s e =>
    if (forfeitOf s q.ctx).isSome then s
    else match translate s q.ctx e.1 .load with
      | .error x => tileKill s core q x.code e.1
      | .ok (h, l) =>
        let a := gfxAccess s (.reader (.bins core)) (tileNi core) q e.1 h l e.2 .read
        enterFabric s { a with after := ((geomPending s q).filter fun x => x.2.va == e.1).map Prod.fst }) s

/-- The accesses of a core's tile. -/
def tileAccesses (s : State) (core : Nat) : List (Nat × Access) :=
  s.traffic.accesses.filter fun e => !e.2.dropped && e.2.client == .tile core

/-- The bin reads of a core's tile. -/
def binReads (s : State) (core : Nat) : List (Nat × Access) :=
  s.traffic.accesses.filter fun e => !e.2.dropped && e.2.client == .reader (.bins core)

/-- The value of a loaded sample from the answers; zero where its sector is poison (Table 15-9). -/
def loadedRaw (as : List (Nat × Access)) (va b : Nat) : Nat :=
  match as.find? fun e => e.2.va = va / 128 * 128 with
  | some e =>
    let bad := e.2.poison && (e.2.fillPoison.isEmpty || e.2.fillPoison.getD (va % 128 / 32) false)
    if bad then 0 else leNat ((e.2.bytes.drop (va % 128)).take b)
  | none => 0

/-- The loaded samples of a tile (R674). -/
def fillSamples (f : Frame) (tl : Tile) (as : List (Nat × Access)) : Tile :=
  (f.attach.filter fun e => loadsTile f tl.tile e.2).foldl (fun tl e =>
    let b := e.2.bytesOf e.1
    (tileRows f tl.tile).foldl (fun tl r =>
      (List.range (r.2.2 * f.samples)).foldl (fun tl n =>
        tl.setSample e.1 (sampleIdx f (r.2.1 + n / f.samples) r.1 (n % f.samples)) (loadedRaw as (e.2.rowVa f e.1 r + n * b) b)) tl)
      tl) tl

/-- The load phase ends once every read has answered: poison is a notice, once per packet (Table 15-9). Poison in the bin data is
noticed the same way. DESIGN CHOICE, unsafe: log 54. -/
def collectLoads (s : State) (core : Nat) (f : Frame) (tl : Tile) : State :=
  let as := tileAccesses s core
  let bins := binReads s core
  if tl.phase ≠ .load || !((as ++ bins).all fun e => e.2.stage == .answered) then s
  else
    let s := match (as ++ bins).find? fun e => e.2.poison with
      | some e =>
        noteOnce s tl.queue (tilePkt f)
          { queueRec s 0x0611 0 tl.queue with
            tag := frameTag s tl.queue, addr := .va e.2.va, loc := { unit := .tileBackend, index := core / 4 } }
      | none => s
    let s := (as ++ bins).foldl (fun s e => removeAccess s e.1) s
    putTile s core { fillSamples f tl as with phase := .list }

/-! Quads (R693) -/

/-- The format of slot 8; none where nothing is attached. -/
def depthFormat (f : Frame) : Option Nat := (tblGet f.attach 8).map Attach.format

/-- The FP32 depth that a fragment tests at a sample (R689, R690). -/
def sampleDepth (f : Frame) (d : Draw) (prim : Prim) (x y k : Nat) : Word :=
  clampDepth d (biasedDepth d prim ((depthFormat f).getD 0x32) (samplePt f.log2s x y k))

/-- The samples of a mask of a pixel are tested with given depths and written: the tile, and those that pass. -/
def testPixel (f : Frame) (d : Draw) (front : Bool) (x y mask : Nat) (z : Nat → Word) (tl : Tile) : Tile × Nat :=
  match depthFormat f with
  | none => (tl, mask)
  | some fmt =>
    (maskBits f.samples mask).foldl (fun acc k =>
      let n := sampleIdx f x y k
      let r := testSample d front fmt (acc.1.sampleAt 8 n) (z k)
      (acc.1.setSample 8 n r.2, if r.1 then acc.2 + 2 ^ k else acc.2)) (tl, 0)

/-- The pixels of a quad. -/
def Quad.pixels (q : Quad) : List (Nat × Nat) := [(q.x, q.y), (q.x + 1, q.y), (q.x, q.y + 1), (q.x + 1, q.y + 1)]

/-- A quad has a covered sample. -/
def Quad.live (q : Quad) : Bool := q.cov.any fun m => m ≠ 0

/-- The quads of a primitive in a tile, in row-major order, split by sample under SAMPLE_SHADING (R693). -/
def quadsOf (f : Frame) (d : Draw) (prim : Prim) (tile : Nat) : List Quad :=
  let o := f.origin tile
  let half := f.edge / 2
  let whole := (List.range (half * half)).map fun n =>
    let q : Quad := { prim := prim.seq, x := o.1 + 2 * (n % half), y := o.2 + 2 * (n / half), cov := [] }
    { q with cov := q.pixels.map fun p => coverage f d prim p.1 p.2 }
  let live := whole.filter Quad.live
  if sampleShading d then
    live.flatMap fun q => ((List.range f.samples).map fun k =>
      { q with sample := some k, cov := q.cov.map fun m => if bitNat m k then 2 ^ k else 0 }).filter Quad.live
  else live

/-- The early tests of a quad (R691): the tile, and the quad with the samples that pass. -/
def testQuad (f : Frame) (d : Draw) (prim : Prim) (tl : Tile) (q : Quad) : Tile × Quad :=
  let r := (q.pixels.zip q.cov).foldl (fun (acc : Tile × List Nat) e =>
    let x := testPixel f d prim.front e.1.1 e.1.2 e.2 (sampleDepth f d prim e.1.1 e.1.2) acc.1
    (x.1, acc.2 ++ [x.2])) (tl, [])
  (r.1, { q with cov := r.2 })

/-- A primitive's quads after their early tests, or as covered under late testing; those with no sample left are dropped. -/
def primQuads (f : Frame) (d : Draw) (prim : Prim) (tl : Tile) : Tile × List Quad :=
  let qs := quadsOf f d prim tl.tile
  let r := if earlyTest d then
      qs.foldl (fun (acc : Tile × List Quad) q =>
        let x := testQuad f d prim acc.1 q
        (x.1, acc.2 ++ [x.2])) (tl, [])
    else (tl, qs)
  (r.1, r.2.filter Quad.live)

/-- A sample of a run holds the depth of its fragment (R692). -/
def holdsDepth (f : Frame) (d : Draw) (prim : Prim) (tl : Tile) (x y k : Nat) : Bool :=
  match depthFormat f with
  | none => true
  | some fmt =>
    !hasDepth fmt || depthField fmt (tl.sampleAt 8 (sampleIdx f x y k)) == encodeDepth fmt (sampleDepth f d prim x y k)

/-- The fragments of a quad that a run shades (R692). -/
def keepShaded (f : Frame) (d : Draw) (prim : Prim) (tl : Tile) (q : Quad) : Quad :=
  { q with cov := (q.pixels.zip q.cov).map fun e =>
      if (maskBits f.samples e.2).any (holdsDepth f d prim tl e.1.1 e.1.2) then e.2 else 0 }

/-- A primitive of a frame with its draw. -/
def primAt (f : Frame) (seq : Nat) : Option (Prim × Draw) :=
  match f.prims[seq]? with
  | some p => (drawAt f p.draw).map fun d => (p, d)
  | none => none

/-- The run at the front of a list of primitives (R692). -/
def frontRun (f : Frame) (todo : List Nat) : List Nat :=
  todo.takeWhile fun seq => ((primAt f seq).map fun e => mayRun e.2).getD false

/-- A run is tested, then the quads of it that are shaded join the tile's. -/
def formRun (f : Frame) (tl : Tile) (run : List Nat) : Tile :=
  let r := run.foldl (fun (acc : Tile × List (Prim × Draw × Quad)) seq =>
    match primAt f seq with
    | none => acc
    | some (p, d) =>
      let x := primQuads f d p acc.1
      (x.1, acc.2 ++ x.2.map fun q => (p, d, q))) (tl, [])
  let tl := r.1
  let shaded := (r.2.filter fun e => !noFrag e.2.1).map fun e => (e.2.1.index, keepShaded f e.2.1 e.1 tl e.2.2)
  { tl with quads := tl.quads ++ shaded.filter fun e => e.2.live }

/-- Fragments of late-tested draws are not yet tested. -/
def lateWork (f : Frame) (tl : Tile) : Bool :=
  let late := fun (n : Nat) => ((drawAt f n).map fun d => !earlyTest d).getD false
  (tl.quads.any fun e => late e.1) || tl.groups.any fun g => late g.draw

/-- Primitives of the tile's list are rasterised and tested in order; an early-tested one waits for late-tested fragments before
it (R681, R691). DEDUCED, unsafe: log 27. -/
def formQuads (f : Frame) (tl : Tile) : Nat → Tile
  | 0 => tl
  | n + 1 =>
    match tl.todo with
    | [] => tl
    | seq :: rest =>
      match primAt f seq with
      | none => formQuads f { tl with todo := rest } n
      | some (p, d) =>
        if earlyTest d && lateWork f tl then tl
        else
          let run := frontRun f tl.todo
          if run.isEmpty then
            let r := primQuads f d p tl
            let qs := if noFrag d then [] else r.2.map fun q => (d.index, q)
            formQuads f { r.1 with todo := rest, quads := r.1.quads ++ qs } n
          else formQuads f { formRun f tl run with todo := tl.todo.drop run.length } n

/-- The quads of the next group: at most 8 of one draw (R693). -/
def nextQuads (tl : Tile) : List Quad :=
  match tl.quads with
  | [] => []
  | e :: _ => ((tl.quads.takeWhile fun x => x.1 == e.1).take 8).map Prod.snd

/-! Fragment outputs (R697, R700) -/

/-- Free values that the blend of one group may use. -/
def freePerBlend : Nat := 2 ^ 15

/-- An output of a lane: what the last OUTF left there, or a free value where none wrote it.
DEDUCED, unsafe: log 27. -/
def fragOut (g : Group) (slot lane fr : Nat) : List Word :=
  (List.range 4).map fun c => match tblGet g.outs (slot, c) with
    | some l => l.getD lane 0#32
    | none => Config.freeWord (fr + (slot * 4 + c) * 32 + lane)

/-- A fragment output was written. -/
def hasOut (g : Group) (slot : Nat) : Bool := (tblGet g.outs (slot, 0)).isSome

/-- Samples that ALPHA_TO_COVERAGE and output 9 leave (R700). -/
def outMask (f : Frame) (d : Draw) (g : Group) (lane fr : Nat) : Nat :=
  let alpha := if bitNat (fflags d) 2 then 2 ^ alphaSamples (chan (fragOut g 0 lane fr) 3) f.samples - 1 else 255
  let mask := if hasOut g 9 then (chan (fragOut g 9 lane fr) 0).toNat % 256 else 255
  alpha &&& mask

/-- The colour attachments of a sample after a fragment (R698 to R700). -/
def shadeSample (f : Frame) (d : Draw) (g : Group) (lane fr n : Nat) (tl : Tile) : Tile :=
  (f.attach.filter fun e => e.1 < 8).foldl (fun tl e =>
    let c := fragOut g e.1 lane fr
    let c := if e.1 = 0 && bitNat (fflags d) 3 then c.set 3 f32One else c
    let free := fun ch => Config.freeNat (fr + 4096 + ((lane * 8 + n % 8) * 8 + e.1) * 4 + ch)
    tl.setSample e.1 n (glaze d e.1 e.2.format (tl.sampleAt e.1 n) c (fragOut g 16 lane fr) free)) tl

/-- One fragment's outputs join the tile: coverage, late tests, and colours (R691, R697 to R700). -/
def absorbLane (f : Frame) (d : Draw) (prim : Prim) (g : Group) (fr lane x y cov : Nat) (tl : Tile) : Tile :=
  let cov := if g.discarded.getLsbD lane then 0 else cov &&& outMask f d g lane fr
  let z := fun k => if hasOut g 8 then clampDepth d (chan (fragOut g 8 lane fr) 0) else sampleDepth f d prim x y k
  let r := if earlyTest d then (tl, cov) else testPixel f d prim.front x y cov z tl
  (maskBits f.samples r.2).foldl (fun tl k => shadeSample f d g lane fr (sampleIdx f x y k) tl) r.1

/-- A group's fragments join the tile in quad order (R681). -/
def absorbGroup (f : Frame) (x : FragGroup) (g : Group) (fr : Nat) (tl : Tile) : Tile :=
  x.quads.zipIdx.foldl (fun tl e =>
    match primAt f e.1.prim with
    | none => tl
    | some (p, d) =>
      (e.1.pixels.zip e.1.cov).zipIdx.foldl (fun tl c => absorbLane f d p g fr (4 * e.2 + c.2) c.1.1.1 c.1.1.2 c.1.2 tl) tl) tl

/-- The oldest group of a tile is blended once it has exited with its accesses complete; at most `fuel` groups. -/
def absorbGroups (s : State) (core : Nat) (f : Frame) : Nat → State
  | 0 => s
  | n + 1 =>
    match getTile s core with
    | none => s
    | some tl =>
      match tl.groups with
      | [] => s
      | x :: rest =>
        match getGroup s x.slot with
        | none => s
        | some g =>
          if groupExited g && !groupBusy s x.slot then
            let fr := s.free
            let s := dropGroup { s with free := s.free + freePerBlend } x.slot
            absorbGroups (putTile s core (absorbGroup f x g fr { tl with groups := rest })) core f n
          else s

/-- A tile goes on as far as it can without a launch: its loads are collected, exited groups blended, primitives rasterised.
DEDUCED, unsafe: log 27. -/
def tileAdvance (s : State) (core : Nat) : State :=
  match getTile s core with
  | none => s
  | some tl =>
    match getFrame s tl.queue with
    | none => s
    | some f =>
      let s := collectLoads s core f tl
      match getTile s core with
      | none => s
      | some tl =>
        if tl.phase ≠ .list then s
        else
          let s := absorbGroups s core f tl.groups.length
          match getTile s core with
          | none => s
          | some tl => putTile s core (formQuads f tl tl.todo.length)

/-! The flush phase (R680, R682, R701) -/

/-- Samples of an attachment are stored at its VA. -/
def storesTile (tl : Tile) (a : Attach) : Bool := tl.part || a.store == 0 || a.store == 3

/-- An attachment is resolved. -/
def resolvesTile (tl : Tile) (a : Attach) : Bool := !tl.part && 2 ≤ a.store

/-- Bytes written to one row: one write for each line. -/
def rowWrite (s : State) (core : Nat) (q : QueueId) (va : Nat) (bytes : List Byte) : State :=
  rowAccess s core q va bytes.length .store fun at_ off n =>
    .write (((bytes.drop off).take n).zipIdx.map fun b => (at_ + b.2, b.1)) false

/-- The bytes of a row of stored samples. -/
def storedRow (f : Frame) (tl : Tile) (slot : Nat) (a : Attach) (r : Nat × Nat × Nat) : List Byte :=
  (List.range (r.2.2 * f.samples)).flatMap fun n =>
    leBytes (a.bytesOf slot) (tl.sampleAt slot (sampleIdx f (r.2.1 + n / f.samples) r.1 (n % f.samples)))

/-- The bytes of a row of resolved pixels. -/
def resolvedRow (f : Frame) (tl : Tile) (slot : Nat) (a : Attach) (r : Nat × Nat × Nat) (fr : Nat) : List Byte :=
  (List.range r.2.2).flatMap fun n =>
    let x := r.2.1 + n
    let raws := (List.range f.samples).map fun k => tl.sampleAt slot (sampleIdx f x r.1 k)
    leBytes (a.bytesOf slot) (resolvePixel slot a.format raws fun ch => Config.freeNat (fr + (slot * 1024 + sampleIdx f x r.1 0 / f.samples) * 4 + ch))

/-- The writes of a tile's flush (R674, R680). -/
def flushWrites (s : State) (core : Nat) (f : Frame) (tl : Tile) : State :=
  let fr := s.free
  let s : State := { s with free := s.free + freePerBlend * 2 }
  f.attach.foldl (fun s e =>
    (tileRows f tl.tile).foldl (fun s r =>
      let s := if storesTile tl e.2 then rowWrite s core tl.queue (e.2.rowVa f e.1 r) (storedRow f tl e.1 e.2 r) else s
      if resolvesTile tl e.2 then
        rowWrite s core tl.queue (e.2.resolveVa + r.1 * e.2.resolvePitch + r.2.1 * e.2.bytesOf e.1) (resolvedRow f tl e.1 e.2 r fr)
      else s) s) s

/-- The list phase is over. -/
def Tile.listDone (tl : Tile) : Bool := tl.phase == .list && tl.todo.isEmpty && tl.quads.isEmpty && tl.groups.isEmpty

/-- The VAs of a tile's rows: attachment samples and resolved pixels. -/
def tileSpans (f : Frame) (tile : Nat) : List (Nat × Nat) :=
  f.attach.flatMap fun e => (tileRows f tile).flatMap fun r =>
    [(e.2.rowVa f e.1 r, r.2.2 * f.samples * e.2.bytesOf e.1),
     (e.2.resolveVa + r.1 * e.2.resolvePitch + r.2.1 * e.2.bytesOf e.1, if 2 ≤ e.2.store then r.2.2 * e.2.bytesOf e.1 else 0)]

/-- The TILE lines of a tile become ordinary ones (R389). -/
def clearTileLines (s : State) (q : QueueId) (f : Frame) (tile : Nat) : State :=
  let pas := (tileSpans f tile).flatMap fun e => (linePieces e.1 e.2).filterMap fun x =>
    match translate s q.ctx x.1 .load with
    | .ok (.device pa, _) => some (pa / 128 * 128)
    | _ => none
  let clear : Line → Line := fun ln => if ln.tile && pas.contains (linePa ln) then { ln with tile := false } else ln
  { s with vat := { s.vat with lines := s.vat.lines.map clear } }

/-- A tile whose flush is acknowledged is done; a partial render flush sets its bit (R682, R684). -/
def finishTile (s : State) (core : Nat) (f : Frame) (tl : Tile) : State :=
  let s := clearTileLines s tl.queue f tl.tile
  let s := if tl.part then modFrame s tl.queue fun f => { f with bitmap := insertOnce f.bitmap tl.tile } else s
  { s with gfx := { s.gfx with tiles := tblErase s.gfx.tiles core } }

end Sys2Proof.Machine
end

