-- ==== Sys2Proof/Machine/Domains.lean ====
section
/-!
DEFINITION. The power domains: switching off when idle or forced off, and waking (spec 03).
-/

namespace Sys2Proof.Machine

/-- A domain starts to switch off. A Madder is never on while its core is off (R113), so it goes with its core.
DEDUCED, unsafe: log 20. -/
def startOff (s : State) (d : Nat) (idle : Bool) : State :=
  let off := fun (x : Domain) =>
    if x.st = .on || x.st = .waking then { x.change .switchingOff s.stamp with byIdle := idle && x.st == .on } else x
  let s := modDom s d off
  if d < 24 then modDom s (24 + d) off else s

/-- A core is held on by a FORCE_ON of its Madder (R113). DEDUCED, unsafe: log 20. -/
def heldOn (s : State) (d : Nat) : Bool := d < 24 && (getDom s (24 + d)).policy == .forceOn

/-- Work is pending to a core that is drained: the next workgroup of a dispatch, a saved workgroup or a vertex group would go to it or
wake it, it is reserved, or a tile is rendered on it (Table 03-5). -/
def workPending (s : State) (d : Nat) : Bool :=
  d < 24 && ((s.cores.dispatches.any fun e => placeCore s e.1 e.2 == some d ||
      (placeCore s e.1 e.2).isNone && wakeFor s e.1 e.2 == some d) ||
    (s.cores.saved.any fun e => restorable s e.2 d) || (tblGet s.cores.reserve d).isSome || (getTile s d).isSome ||
    s.gfx.frames.any fun e => match launchingDraw e.2 with
      | some x =>
        let n := graphicsNeed e.1 x.vregs
        mayLaunchBatch s e.1 x && (vertexCore s e.1 n == some d || (vertexCore s e.1 n).isNone && vertexWake s e.1 n == some d)
      | none => false)

/-- The front end serves a frame, whose SAVE it writes before it is switched off (R669). -/
def mustSave (s : State) (d : Nat) : Bool := d == 64 && s.gfx.bound.isSome

/-- DOMAIN_IDLE_OFF: an AUTO domain idle for more than IDLE_OFF starts to switch off (R115, R122). -/
def execDomainIdleOff (d : Nat) (t : Stamp) (s : State) : Out :=
  let s := s.upTo t
  let x := getDom s d
  let idle := s.power.idleOff.getD (domClass d) 0
  let due := match x.idleSince with
    | some t0 => idle ≠ 0 && heldMoreThan t0 t (idle * 1000)
    | none => false
  if timed s && t % 10000 == 0 && s.stamp == t && d < 72 && x.st == .on && x.policy == .auto && due && !heldOn s d && !workPending s d &&
      !mustSave s d then
    .next (startOff s d true)
  else .next s

/-- DOMAIN_OFF_DONE: a drained domain is off; a wake decided meanwhile begins (R111, R123). -/
def execDomainOffDone (d : Nat) (t : Stamp) (s : State) : Out :=
  let s := s.upTo t
  if (getDom s d).st == .switchingOff then
    .next (modDom s d fun x =>
      { x.change (if x.wakeAfter then .waking else .off) s.stamp with wakeAfter := false })
  else .next s

/-- DOMAIN_WAKE: a waking domain is on with its storage cleared (R109, R110). A Madder waits for its core (R113). -/
def execDomainWake (d : Nat) (t : Stamp) (s : State) : Out :=
  let s := s.upTo t
  let coreOk := !(24 ≤ d && d < 48) || domOn s (d - 24)
  if (getDom s d).st == .waking && coreOk then
    let s := modDom s d fun x => { x.change .on s.stamp with idleSince := if domainBusy s d then none else some s.stamp }
    .next { s with cores := { s.cores with lsEver := tblErase s.cores.lsEver d } }
  else .next s

/-- FORCE_OFF_DRAINED: a domain under FORCE_OFF that is drained switches off; a bank group is cleaned first (R114,
R111, Table 03-5). -/
def execForceOffDrained (d : Nat) (t : Stamp) (s : State) : Out :=
  let s := s.upTo t
  let x := getDom s d
  let bank := decide (48 ≤ d) && decide (d < 64)
  if x.policy == .forceOff && x.st == .on && (bank || !domainBusy s d) && !heldOn s d && !mustSave s d then
    let s := if bank then
        (s.vat.lines.filter fun ln => bankOf ln.slice = d - 48).foldl (fun s ln => evictLine s ln 0) s
      else s
    .next (startOff s d false)
  else .next s

end Sys2Proof.Machine
end

