-- ==== Sys2Proof/Machine/Fabric.lean ====
section
/-!
DEFINITION. The Damxia fabric and the bandwidth regulator (spec 09): route lookups, admission at the client NIs,
window boundaries, router arbitration, flit errors, lost packets and route-table parity.
-/

namespace Sys2Proof.Machine

/-! Route-table parity -/

/-- The parity count brought to the current window of 1,000 ms (R445). -/
def settleParity (s : State) : State :=
  let w := s.stamp / 1000000000
  if s.fabric.parityWindow = w then s
  else { s with fabric := { s.fabric with parityWindow := w, parityWin := 0 } }

/-- A parity error found: the entry is rewritten from the ROM, counted and recorded (R444, R445). -/
def parityError (s : State) (ni entry : Nat) : State :=
  let s := settleParity s
  let s : State := { s with fabric := { s.fabric with
      routes := tblSet s.fabric.routes (ni, entry) (romEntry ni entry)
      parityTotal := satAdd 32 s.fabric.parityTotal 1, parityWin := s.fabric.parityWin + 1 } }
  pushRecord s { deviceRec s 0x0412 0 [.d] with loc := { unit := .ni, index := ni }, detail := detailOf entry 0 0 0 }

/-- The entries of an NI whose parity is bad: as stored, or as an upset leaves them when they are read. -/
def badEntries (s : State) (ni : Nat) (upset : List Nat) : List Nat :=
  (List.range 32).filter fun k => upset.contains k || !parityEven (routeEntry s.fabric ni k)

/-- The lookup of a request checks the entries up to the one that it selects, and completes with them rewritten (R440). A response
takes its route from its request (R414). -/
def lookup (s : State) (p : Packet) (upset : List Nat) : State :=
  if p.response then s
  else
    let sel := (routeSelect s.fabric p.src (niRouter p.dest)).getD 31
    ((badEntries s p.src upset).filter (· ≤ sel)).foldl (fun s e => parityError s p.src e) s

/-- The Mordant reads the entries of an NI (R444). -/
def patrolNi (s : State) (upset : List (Nat × Nat)) (ni : Nat) : State :=
  (badEntries s ni ((upset.filter fun e => e.1 == ni).map Prod.snd)).foldl (fun s e => parityError s ni e) s

/-- ROUTE_TABLE_PATROL: every entry of every NI is read once in each window of 10 ms; bad ones are rewritten (R444). `upset` are the
entries that an upset has turned bad. -/
def execRouteTablePatrol (upset : List (Nat × Nat)) (t : Stamp) (s : State) : Out :=
  let s := s.upTo t
  let w := s.stamp / 10000000
  if mordantServes s && timed s && s.fabric.patrolled ≠ some w then
    let s : State := { s with fabric := { s.fabric with patrolled := some w } }
    .next (((List.range 96).filter niExists).foldl (fun s ni => patrolNi s upset ni) s)
  else .next s

/-- ROUTE_PARITY_STORM: the 17th error in one window of 1,000 ms starts Sepia entry (R445). -/
def execRouteParityStorm (t : Stamp) (s : State) : Out :=
  let s := settleParity (s.upTo t)
  .next (if s.fabric.parityWin > 16 && mayEnter s 0x0413 then
      decideSepia (pushRecord s (deviceRec s 0x0413 6 [.b])) 0x0413 none
    else s)

/-! Admission -/

/-- Gated requests of a partition at an NI, new and held; of a transfer engine's new writes, those of the channel that its write
side chooses (R724). -/
def queued (s : State) (ni part : Nat) : List (Nat × Access) :=
  s.traffic.accesses.filter fun e =>
    e.2.ni == ni && e.2.part == some part && (e.2.stage == .atNi || e.2.stage == .held) && beatTurn s e.2

/-- The request that is next in turn: the highest priority, in arrival order (R426). -/
def nextQueued (s : State) (ni part : Nat) : Option (Nat × Access) :=
  leastBy (fun e => (3 - e.2.pri) * 2 ^ 64 + e.1) (queued s ni part)

/-- A request is admitted. -/
def admitNow (s : State) (n : Nat) (a : Access) : State :=
  let r := admitted s a
  modAccess r.1 n fun _ => r.2

/-- One attempt of the next request of a partition at an NI: admitted, or held (R426, R427, R429); a partition that is
disabled admits it uncharged (R437). The flag says that it was admitted. An attempt whose grant comes from a later window is the
attempt in that window that it makes again at once (R436). DESIGN CHOICE, safe: log 19. -/
def tryAdmit (s : State) (n : Nat) (a : Access) (p : Nat) : Bool × State :=
  if !(getPart s.fabric p).cfg.en then (true, admitNow s n { a with part := none })
  else
    let r := attempt s.fabric a.ni p a.need
    let s : State := { s with fabric := r.2 }
    if r.1 then (true, admitNow s n a) else (false, modAccess s n fun a => { a with stage := .held, stamp := s.stamp })

/-- ADMISSION_ATTEMPT: the request that is next in turn at its NI is admitted or held (R426). -/
def execAdmissionAttempt (n : Nat) (t : Stamp) (s : State) : Out :=
  let s := s.upTo t
  match getAccess s n with
  | none => .next s
  | some a =>
    match a.part with
    | none => .next s
    | some p =>
      if a.stage ≠ .atNi || (nextQueued s a.ni p).map Prod.fst ≠ some n || !inPartWindow s p then .next s
      else
        let s := (tryAdmit s n a p).2
        .next (match a.writeBeat with
          | some ch => beatServed s ch true
          | none => s)

/-- Held requests of a partition at an NI are re-attempted in turn until one cannot be admitted in the new window. -/
def reattempt (s : State) (ni part : Nat) : Nat → State
  | 0 => s
  | k + 1 =>
    match nextQueued s ni part with
    | none => s
    | some (n, a) =>
      let due := !(getPart s.fabric part).cfg.en || a.stamp < (getPart s.fabric part).windowStart
      if a.stage ≠ .held || !due then s
      else
        let r := tryAdmit s n a part
        if r.1 then reattempt r.2 ni part k else r.2

/-- HELD_REATTEMPT: after a boundary the held requests of a partition at an NI are re-attempted (R429, R434, R437). -/
def execHeldReattempt (ni part : Nat) (t : Stamp) (s : State) : Out :=
  let s := s.upTo t
  .next (if timed s && inPartWindow s part then reattempt s ni part (queued s ni part).length else s)

/-- The next boundary of a partition: of its window in force, or the one at which a setting takes effect (R425, R431). -/
def nextBoundary (p : Partition) : Option Stamp :=
  leastNat ((if p.cfg.en then [p.windowStart + p.window] else []) ++ p.waiting.map Prod.snd)

/-- A partition at a boundary: the window ends, its count becomes PART_LAST, credit expires, and the setting whose boundary
this is takes effect (R425, R431). -/
def Partition.boundary (p : Partition) (b : Stamp) : Partition :=
  let cfg := ((p.waiting.filter fun e => e.2 = b).map Prod.fst).getLast?.getD p.cfg
  { p with
    cfg := cfg
    waiting := p.waiting.filter fun e => e.2 ≠ b
    windowStart := b
    committed := 0
    oversize := false
    last := if p.cfg.en then min p.admitted (2 ^ 32 - 1) else p.last
    admitted := 0
    heldNow := false }

/-- WINDOW_BOUNDARY: the next boundary of a partition has come (R425, R431, R439). -/
def execWindowBoundary (part : Nat) (t : Stamp) (s : State) : Out :=
  let s := s.upTo t
  if !timed s || part ≥ 16 then .next s
  else match nextBoundary (getPart s.fabric part) with
    | none => .next s
    | some b => .next (if b ≤ s.stamp then { s with fabric := modPart s.fabric part fun p => p.boundary b } else s)

/-! Router arbitration -/

/-- The class of a waiting flit at an arbiter, least first (R419): SPINE, aged, then the priorities from the highest. -/
def flitClass (f : WaitingFlit) : Nat := if f.spine then 0 else if f.aged then 1 else 2 + (3 - f.pri)

/-- The position of a flit in the round robin over input ports and sets, from the output's turn. -/
def flitTurn (turn : Nat) (f : WaitingFlit) : Nat := (f.inp * 2 + natOfBool f.yx + 12 - turn % 12) % 12

/-- The flit that the arbiter of an output grants (R419). DESIGN CHOICE, safe: log 19. -/
def granted (fs : List (Nat × WaitingFlit)) (turn : Nat) : Option (Nat × WaitingFlit) :=
  leastBy (fun e => (flitClass e.2 * 12 + flitTurn turn e.2) * 2 ^ 32 + e.1) fs

/-- One handshake step at a router: each output of each network grants one flit, and the others wait (R419, R420). -/
def routerStep (f : Fabric) (router : Nat) : Fabric :=
  let outs := (List.range 6).flatMap fun o => [(o, false), (o, true)]
  let r := outs.foldl (fun (acc : Fabric × List Nat) o =>
      let mine := (acc.1.flits.zipIdx.map fun e => (e.2, e.1)).filter fun e =>
        e.2.router == router && e.2.out == o.1 && e.2.response == o.2
      let key : Nat × Nat × Bool := (router, o.1, o.2)
      match granted mine (tblGetD acc.1.turns key 0) with
      | none => acc
      | some e => ({ acc.1 with turns := tblSet acc.1.turns key (e.2.inp * 2 + natOfBool e.2.yx + 1) }, acc.2 ++ [e.1]))
    (f, [])
  { r.1 with flits := (r.1.flits.zipIdx.filter fun e => !r.2.contains e.2).map fun e =>
      if e.1.router = router then { e.1 with steps := e.1.steps + 1 } else e.1 }

/-- Several handshake steps at a router. DESIGN CHOICE, safe: log 19. -/
def routerSteps (f : Fabric) (router : Nat) : Nat → Fabric
  | 0 => f
  | k + 1 => routerSteps (routerStep f router) router k

/-- FLIT_AGED: a flit that has waited 1,024 handshake steps takes one grant ahead of every flit that is not SPINE (R420). -/
def execFlitAged (k : Nat) (s : State) : Out :=
  .next { s with fabric := { s.fabric with flits := s.fabric.flits.modify k fun f =>
      if 1024 ≤ f.steps then { f with aged := true } else f } }

/-- Sectors of the line that a data flit of an access carries, two for each flit (R442). -/
def flitSectors (a : Access) (flit : Nat) : List Nat :=
  let base := match a.home with
    | .device pa => pa
    | .scratch x => x
    | .host _ _ x => x
  ((usedSectors a base).drop (2 * (flit - 1))).take 2

/-- Sectors of an access that arrive as poison. -/
def poisonFlit (a : Access) (secs : List Nat) : Access :=
  let a := { a with flitPoison := secs.foldl insertOnce a.flitPoison }
  if a.stage = .answered then
    { a with poison := a.poison || !secs.isEmpty
             fillPoison := (List.range 4).map fun k => a.fillPoison.getD k false || secs.contains k }
  else a

/-- A packet on its way, with the number of its access or write-back. -/
inductive InFlight where
  | access (a : Access)
  | writeBack (w : WriteBack)
  deriving DecidableEq, Repr

/-- The packet of the access is in the fabric: admitted and not yet served, at a memory NI or on its way back, or answered and not
yet taken. -/
def inFabric (a : Access) : Bool :=
  match a.stage with
  | .admitted _ => true
  | .filling _ => true
  | .filled _ => true
  | .waitTag _ => true
  | .answered => true
  | _ => false

/-- What flies under a number, with its packet. -/
def inFlight (s : State) (n : Nat) : Option (InFlight × Packet) :=
  match getAccess s n with
  | some a => if inFabric a then some (.access a, packetOf s a) else none
  | none =>
    match tblGet s.traffic.writeBacks n with
    | some w => if w.stage = .lost then none else some (.writeBack w, writeBackPacket s w)
    | none => none

/-- The state with a write-back changed. -/
def modWriteBack (s : State) (n : Nat) (g : WriteBack → WriteBack) : State :=
  { s with traffic := { s.traffic with writeBacks := tblModify s.traffic.writeBacks n g } }

/-- A packet is dropped. -/
def dropPacket (s : State) (n : Nat) : InFlight → State
  | .access _ => modAccess s n fun a => { a with stage := .lost a.stamp }
  | .writeBack _ => modWriteBack s n fun w => { w with stage := .lost }

/-- A data flit's sectors become poison (R442). -/
def poisonFlight (s : State) (n flit : Nat) : InFlight → State
  | .access a => modAccess s n fun x => poisonFlit x (flitSectors a flit)
  | .writeBack _ => modWriteBack s n fun w => { w with poison := true }

/-- The SECDED check of a flit at a router (R442): corrected and counted; a data flit's sectors become poison; a header's
packet is dropped, recorded with the router and the local port it was bound for. -/
def checkFlit (s : State) (n : Nat) (x : InFlight) (p : Packet) (router flit : Nat) (e : EccResult) : State × Bool :=
  match e with
  | .good => (s, true)
  | .corrected => ({ s with fabric := { s.fabric with ceCount := satAdd 32 s.fabric.ceCount 1 } }, true)
  | _ =>
    if flit = 0 then
      let s := pushRecord s { deviceRec s 0x0410 0 [.d] with
        loc := { unit := .ni, index := if p.dest < 48 then router else 48 + router } }
      (dropPacket s n x, false)
    else (poisonFlight s n flit x, true)

/-- A header flit leaves its NI: the route is looked up, where `upset` are entries that the lookup finds bad (R416, R440). -/
def routeHeader (s : State) (n router flit : Nat) (upset : List Nat) : State :=
  match inFlight s n with
  | some (_, p) => if flit = 0 && router = niRouter p.src then lookup s p upset else s
  | none => s

/-- ROUTER_FLIT_ARRIVE: a flit of an access or a write-back (0 the header, 1 and 2 data) arrives at a router of its route after
`grants` handshake steps of that router; it is checked, and waits at its output (R418 to R420, R442). `upset` are route-table entries
that the lookup of a header finds bad at its source. -/
def execRouterFlitArrive (n router flit : Nat) (ecc : EccResult) (grants : Nat) (upset : List Nat) (t : Stamp) (s : State) : Out :=
  let s := routeHeader (s.upTo t) n router flit upset
  match inFlight s n with
  | none => .next s
  | some (x, p) =>
    match p.path.find? fun e => e.1 == router with
    | none => .next s
    | some (_, inp, out) =>
      if flit ≥ 3 then .next s
      else
        let s : State := { s with fabric := routerSteps s.fabric router (grants % 4096) }
        let s := if flit = 0 then traceHeader s router (headerOf s p) else s
        let r := checkFlit s n x p router flit ecc
        if r.2 then
          let f : WaitingFlit := { router := router, out := out, inp := inp, response := p.response, yx := p.yx,
                                   pri := p.pri, spine := p.spine }
          .next { r.1 with fabric := { r.1.fabric with flits := r.1.fabric.flits ++ [f] } }
        else .next r.1

/-! Lost packets -/

/-- When a source NI completes a request without a response (R443), from the admission stamp. -/
def fabricLimit (s : State) : Home → Nat
  | .host _ fn _ => timeoutOf s fn + 100000
  | _ => 100000

/-- A request whose response the source NI still waits for in the fabric: lost, or with a device home that has not answered;
a host port that has accepted a request governs it itself (R443). -/
def awaitsFabric (a : Access) : Bool :=
  match a.stage, a.home with
  | .lost _, _ => true
  | _, .host .. => false
  | .admitted _, _ => true
  | .filling _, _ => true
  | .filled _, _ => true
  | _, _ => false

/-- FABRIC_TIMEOUT in the window of a request's context, or the device's (R443). -/
def timeoutRec (s : State) (c : Option CtxId) (ni : Nat) : State :=
  match c with
  | some c => detect s { ctxRec s 0x0411 0 [.t, .d] c with loc := { unit := .ni, index := ni } }
  | none => pushRecord s { deviceRec s 0x0411 0 [.d] with loc := { unit := .ni, index := ni } }

/-- The source NI of an access answers it with poison; a request that is not lost is still served at its home, and its late
response is discarded (R443). -/
def timeoutRequest (s : State) (n : Nat) (a : Access) : State :=
  let s := timeoutRec s a.ctx a.ni
  match a.stage with
  | .lost _ => answerPoison (modAccess s n fun x => { x with ended := some 0x0411 }) n
  | _ =>
    if a.dropped then s
    else
      let q := accessQueue s a.client
      let s := modAccess s n fun x => { x with dropped := true, lateFor := q }
      deliver (addAccess s { a with
        stage := .answered, bytes := List.replicate a.len 0#8, poison := true, fillPoison := List.replicate 4 true,
        stamp := s.stamp, ended := some 0x0411 }) a.client

/-- The slice that sent a write-back gives it up: a write-back that is not lost still reaches LPDDR (R443). -/
def timeoutWriteBack (s : State) (n : Nat) (w : WriteBack) : State :=
  let s := timeoutRec s w.writer (sliceOf w.pa)
  match w.stage with
  | .sent => modWriteBack s n fun w => { w with late := true }
  | _ => { s with traffic := { s.traffic with writeBacks := tblErase s.traffic.writeBacks n } }

/-- FABRIC_TIMEOUT: a request or a write-back has had no response by its limit (R443). -/
def execFabricTimeout (n : Nat) (t : Stamp) (s : State) : Out :=
  let s := s.upTo t
  match getAccess s n, tblGet s.traffic.writeBacks n with
  | some a, _ =>
    if !awaitsFabric a || !timed s || s.stamp < a.stamp + fabricLimit s a.home then .next s
    else .next (timeoutRequest s n a)
  | none, some w =>
    if w.late || !timed s || s.stamp < w.stamp + 100000 then .next s else .next (timeoutWriteBack s n w)
  | none, none => .next s

/-! Acknowledgements -/

/-- Its engine waits for the end of a posted write. -/
def Client.keepsWrite : Client → Bool
  | .signal _ => true
  | .composeWrite => true
  | .mordant _ => true
  | _ => false

/-- A write to host memory leaves its port while the function may issue requests and the link is up (R164, R171, R320). -/
def sendHostWrite (s : State) (n : Nat) (a : Access) : State :=
  match a.home, a.kind with
  | .host p fn addr, .write bytes poison =>
    if hostReady s p fn && ordered s a && !updateWaits s n a then
      let s := emit s (.hostWrite p fn addr bytes (poison || !a.flitPoison.isEmpty))
      flushVectors (if a.client.keepsWrite then answerAccess s n [] false else removeAccess s n)
    else s
  | _, _ => s

/-- A finished write leaves its group's slot free to be reaped (R467). -/
def afterWrite (s : State) (c : Client) : State :=
  match clientSlot c with
  | some slot => reapGroup s slot
  | none => s

/-- The acknowledgement of a write-back returns to its slice (R413). -/
def endWriteBack (s : State) (n : Nat) : State :=
  { s with traffic := { s.traffic with writeBacks := s.traffic.writeBacks.filter fun e => !(e.1 == n && e.2.stage == .acked) } }

/-- WRITE_ACKNOWLEDGE: the acknowledgement of a performed write returns to its issuing NI, which satisfies fences, MSYNC and
the sector interlock (R473, R477, R589); a write to host memory is acknowledged as its port sends it. -/
def execWriteAcknowledge (n : Nat) (t : Stamp) (s : State) : Out :=
  let s := s.upTo t
  match getAccess s n with
  | none => .next (endWriteBack s n)
  | some a =>
    if !a.kind.isWrite then .next s
    else match a.stage with
      | .answered => .next (if a.client.keepsWrite then s else afterWrite (removeAccess s n) a.client)
      | .admitted _ => .next (afterWrite (sendHostWrite s n a) a.client)
      | _ => .next s

end Sys2Proof.Machine
end

