-- ==== Sys2Proof/Machine/Fragment.lean ====
section
/-!
DEFINITION. The graphics instructions (R534): INTERP, OUTV, OUTF and DISCARD (R638, R691, R695 to R697).
-/

namespace Sys2Proof.Machine

/-- The frame, draw and quads of a fragment group. -/
def fragOf (s : State) (slot : Nat) (g : Group) : Option (Frame × Draw × FragGroup) :=
  match getTile s g.core, getFrame s g.queue with
  | some tl, some f => match tl.groups.find? fun x => x.slot = slot with
    | some x => (drawAt f x.draw).map fun d => (f, d, x)
    | none => none
  | _, _ => none

/-- The quad of a lane with its pixel and the covered samples of it. -/
def lanePixel (x : FragGroup) (lane : Nat) : Option (Quad × Nat × Nat × Nat) :=
  match x.quads[lane / 4]? with
  | none => none
  | some q => match (q.pixels.zip q.cov)[lane % 4]? with
    | some e => some (q, e.1.1, e.1.2, e.2)
    | none => none

/-- The position at which INTERP evaluates (R696): 0 centre, 1 centroid, 2 sample. -/
def interpPt (f : Frame) (loc : Nat) (q : Quad) (x y cov : Nat) : Pt :=
  match loc with
  | 1 =>
    let covered := maskBits f.samples cov
    if covered.length = f.samples then centrePt x y
    else match covered with
      | k :: _ => samplePt f.log2s x y k
      | [] => centrePt x y
  | 2 => samplePt f.log2s x y (q.sample.getD 0)
  | _ => centrePt x y

/-- The screen-linear barycentrics of a primitive's vertices at a position, times their sum. -/
def baryNums (d : Draw) (prim : Prim) (p : Pt) : List Int :=
  match prim.verts.map (snapVert d) with
  | [a, b, c] => [cross2 b c p, cross2 c a p, cross2 a b p]
  | [a, b] => let t := alongLine a b p; [t.2 - t.1, t.1]
  | l => l.map fun _ => 1

/-- Barycentrics as exact quotients: each numerator times the w of the other vertices where they are perspective-correct. -/
def baryVals (d : Draw) (prim : Prim) (p : Pt) (persp : Bool) : List FVal :=
  let ns := baryNums d prim p
  let ws := prim.verts.map fun v => f32 (vcomp v 0 3)
  let terms := ns.zipIdx.map fun e =>
    (ws.zipIdx.filter fun w => persp && w.2 ≠ e.2).foldl (fun acc w => fmulExact acc w.1) (ofInt e.1)
  let total := terms.foldl (fun acc v => faddExact false acc v) (.fin false 0 0)
  terms.map fun v => fdivVal v total

/-- A barycentric in FP32: a free value within 2 ulp of the exact one (R696). -/
def baryWord (v : FVal) (free : Word) : Word :=
  match v with
  | .fin neg m e => if m = 0 then f32Zero else within 2 neg m e free
  | v => toF32 0 v

/-- Values of a primitive's vertices weighted by barycentrics, summed exactly and rounded once. -/
def baryMix (bs : List Word) (vals : List Word) : Word :=
  toF32 0 ((bs.zip vals).foldl (fun acc e => faddExact false acc (fmulExact (f32 e.1) (f32 e.2))) (.fin false 0 0))

/-- The fragment coordinate (x, y, depth, 1/w) at a position (R696). -/
def fragCoord (f : Frame) (d : Draw) (prim : Prim) (p : Pt) (free : Nat → Word) : List Word :=
  let bs := (baryVals d prim p false).zipIdx.map fun e => baryWord e.1 (free e.2)
  [toF32 0 (fdivVal (ofInt p.1) (ofInt 256)), toF32 0 (fdivVal (ofInt p.2) (ofInt 256)),
   clampDepth d (biasedDepth d prim ((depthFormat f).getD 0x32) p),
   baryMix bs (prim.verts.map fun v => f32Div f32One (vcomp v 0 3))]

/-- What INTERP gives a lane (R696). DEDUCED, unsafe: log 27. -/
def interpLane (f : Frame) (x : FragGroup) (slot mod lane fr : Nat) : List Word :=
  match lanePixel x lane with
  | none => List.replicate 4 0#32
  | some (q, px, py, cov) =>
    match primAt f q.prim with
    | none => List.replicate 4 0#32
    | some (prim, d) =>
      let free := fun k => Config.freeWord (fr + 4 * lane + k)
      let p := interpPt f (mod % 4) q px py cov
      if slot = 0 then fragCoord f d prim p free
      else if mod % 4 = 3 then vslot prim.flat slot
      else
        let bs := (baryVals d prim p (!bitNat mod 2)).zipIdx.map fun e => baryWord e.1 (free e.2)
        (List.range 4).map fun c => baryMix bs (prim.verts.map fun v => vcomp v slot c)

/-- INTERP (0x64): d[0..3] = an interpolated vertex output slot, or the fragment coordinate (R696). -/
def execInterp (slot : Nat) (w : Insn) (t : Stamp) (s : State) : Out :=
  issue slot w t s (· == 0x64) fun s slot g iw pc active _ =>
    match fragOf s slot g with
    | none => s
    | some (f, _, x) =>
      let fr := s.free
      let s : State := { s with free := s.free + 128 }
      let g := (lanesOf (runMask g iw active)).foldl (fun g l => putWords g false iw.d l (interpLane f x iw.a iw.mod l fr)) g
      putGroup s slot (advance g iw pc active)

/-- A V quad written to an output slot for lanes; lanes that never wrote it hold `init`. -/
def putOut (g : Group) (iw : IWord) (lanes : List Nat) (init : Nat → Nat → Word) : Group :=
  (List.range 4).foldl (fun g c =>
    let old := (tblGet g.outs (iw.d, c)).getD ((List.range 32).map (init c))
    let new := lanes.foldl (fun l lane => l.set lane (vreg g (iw.a + c) lane)) old
    { g with outs := tblSet g.outs (iw.d, c) new }) g

/-- OUTV (0x65): a vertex output slot; components never written are +0 (R638). -/
def execOutv (slot : Nat) (w : Insn) (t : Stamp) (s : State) : Out :=
  issue slot w t s (· == 0x65) fun s slot g iw pc active _ =>
    putGroup s slot (advance (putOut g iw (lanesOf (runMask g iw active)) fun _ _ => 0#32) iw pc active)

/-- The draw of a fragment group tests early without EARLY_FORCE (R691). -/
def earlyOnly (s : State) (slot : Nat) (g : Group) : Bool :=
  match fragOf s slot g with
  | some (_, d, _) => !bitNat (fflags d) 5 && !bitNat (fflags d) 0
  | none => false

/-- OUTF (0x66): a fragment output; helpers have no effect (R695, R697). Outputs 8 and 9 are illegal under early testing (R691). -/
def execOutf (slot : Nat) (w : Insn) (t : Stamp) (s : State) : Out :=
  issue slot w t s (· == 0x66) (fun s slot g iw pc active _ =>
    let lanes := effectLanes g iw active
    let fr := s.free
    let s : State := { s with free := s.free + 128 }
    let g := if lanes.isEmpty then g else putOut g iw lanes fun c lane => Config.freeWord (fr + 32 * c + lane)
    putGroup s slot (advance g iw pc active))
    fun s slot g iw => if (iw.d = 8 || iw.d = 9) && earlyOnly s slot g then some 7 else none

/-- DISCARD (0x67): the executing lanes become helpers and lose their coverage (R695); illegal under early testing (R691). -/
def execDiscard (slot : Nat) (w : Insn) (t : Stamp) (s : State) : Out :=
  issue slot w t s (· == 0x67) (fun s slot g iw pc active _ =>
    let m := runMask g iw active
    putGroup s slot (advance { g with helpers := g.helpers ||| m, discarded := g.discarded ||| m } iw pc active))
    fun s slot g _ => if earlyOnly s slot g then some 7 else none

end Sys2Proof.Machine
end

