-- ==== Sys2Proof/Machine/Governor.lean ====
section
/-!
DEFINITION. The Governor (spec 02): the Q16.16 control law of R71, the sample, the output and the SPMI command, and the
Metronome's METRO_LO read.
-/

namespace Sys2Proof.Machine

/-! Q16.16 arithmetic (R70): a value is its raw number of 65,536ths -/

/-- Saturation to 32-bit two's complement. -/
def qSat (x : Int) : Int := if x > 2147483647 then 2147483647 else if x < -2147483648 then -2147483648 else x

/-- A product: full width, shifted right by 16 bits rounding toward negative infinity, saturated. -/
def qMul (a b : Int) : Int := qSat (a * b / 65536)

/-- A value limited to a range, the upper limit last as in R71. -/
def qClamp (x lo hi : Int) : Int := if x < lo then lo else if x > hi then hi else x

/-- The 32-bit register word of a Q16.16 value. -/
def qWord (x : Int) : Word := BitVec.ofInt 32 x

/-- One law of R71: the commanded voltage, the new integrator, and whether the integrator was clamped. -/
def govLaw (lo hi i e kp ki : Int) : Int × Int × Bool :=
  let i' := qSat (i + qMul ki e)
  let n := qClamp i' lo hi
  (qSat (n + qMul kp e), n, decide (i' > hi) || decide (i' < lo))

/-- What one run of the procedure of R71 yields. -/
structure GovStep where
  vPrev : Int
  iPc : Int
  iTp : Int
  satHi : Bool := false
  satLo : Bool := false
  clamp : Bool := false
  tpSel : Bool := false
  /-- The power law's voltage lies below V_LO (R90). -/
  pcBelow : Bool := false
  deriving DecidableEq, Repr

/-- The slew limit of R71. -/
def govSlew (p : GovParams) (vPrev v : Int) : Int :=
  qClamp v (qSat (vPrev - p.dvMax.toInt)) (qSat (vPrev + p.dvMax.toInt))

/-- The procedure of R71 in one period. -/
def govPeriod (p : GovParams) (vPrev iPc iTp pace pest : Int) : GovStep :=
  if p.mode = 0 then { vPrev := govSlew p vPrev p.vFixed.toInt, iPc := iPc, iTp := iTp }
  else
    let lo := p.vLo.toInt
    let hi := p.vHi.toInt
    let pc := govLaw lo hi iPc (qSat (p.powerCap.toInt - pest)) p.kpPc.toInt p.kiPc.toInt
    let tp := govLaw lo hi iTp (qSat (p.tpTarget.toInt - pace)) p.kpTp.toInt p.kiTp.toInt
    let sel := decide (p.mode = 1) && decide (tp.1 < pc.1)
    let u := if sel then tp.1 else pc.1
    let v := govSlew p vPrev (qClamp u lo hi)
    { vPrev := v
      iPc := if sel then v else pc.2.1
      iTp := if p.mode = 1 then (if sel then tp.2.1 else v) else iTp
      satHi := decide (u > hi)
      satLo := decide (u < lo)
      clamp := if sel then tp.2.2 else pc.2.2
      tpSel := sel
      pcBelow := decide (pc.1 < lo) }

/-! Pace monitors (R52 to R55) -/

/-- The domain of a pace monitor; none for the spine monitor. -/
def monitorDomain (n : Nat) : Option Nat :=
  if n < 24 then some n else if n < 30 then some (41 + n) else if n = 30 then some 64 else none

/-- A domain was on for the whole of [t - 50 us, t) (R54, R83): a change stamped t itself lies outside. A domain switches on when its
wake completes, and off when its switch-off starts. DEDUCED, unsafe: log 47. -/
def Domain.onBefore (x : Domain) (t : Stamp) : Bool :=
  if x.changedAt < t then x.st == .on && x.changedAt + 50000 < t
  else x.st == .switchingOff && x.changedBefore + 50000 < t

/-- A monitor's domain was on for the whole of [t - 50 us, t) (R54, R83). Which instant of a switch counts is the choice of
`Domain.onBefore`. DEDUCED, unsafe: log 47. -/
def monitorPowered (s : State) (t : Stamp) (n : Nat) : Bool :=
  match monitorDomain n with
  | none => true
  | some d => (getDom s d).onBefore t

/-- Monitors that contribute to a sample (R54, Table 02-7). -/
def contributing (s : State) (t : Stamp) : List Nat :=
  (List.range 32).filter fun n => monitorPowered s t n && !s.gov.excluded.contains n

/-- Pace in Q16.16 GFLOPS from the smallest count (R55). -/
def paceOf (count : Nat) : Int := qSat (((count * 6144 * 65536 / 50000 : Nat) : Int))

/-- PMIC code of a voltage (R76). Microvolts and Q16.16 millivolts are compared over one denominator. -/
def pmicCode (p : GovParams) (v : Int) : Nat :=
  let num := (v - p.voutOffset.toInt) * 1000
  let den : Int := 65536 * (p.voutStep : Int)
  let c := if den = 0 then 0 else (2 * num + den) / (2 * den)
  if c < 0 then 0 else min c.toNat p.codeMax

/-- The SPMI command of Table 02-3 for a code (R79). -/
def spmiFrameOf (p : GovParams) (code : Nat) : SpmiFrame :=
  { sid := p.pmicSid
    cmd := if p.pmicBytes = 2 then .extendedRegisterWrite 1 else if p.pmicAddr < 0x20 then .registerWrite else .extendedRegisterWrite 0
    addr := p.pmicAddr
    data := leBytes p.pmicBytes code }

/-- A Governor record (Table 02-7) with GOV_EPISODE and GOV_CODE in DETAIL. -/
def govRec (s : State) (code scope : Nat) (letters : List WinLetter) : ErrRec :=
  { deviceRec s code scope letters with detail := detailOf s.gov.loop.episode s.gov.page.code 0 0 }

/-- Commits stamped before a sample apply from it (R82). On a change of mode the integrators in use take v_prev (R73), at a stale
sample too, whose law then leaves them there. DEDUCED, unsafe: log 17. -/
def applyCommits (g : Gov) (t : Stamp) : Gov :=
  let due := g.commits.filter fun c => c.1 < t
  match due.getLast? with
  | none => g
  | some (_, p) =>
    let l := g.loop
    let l := if p.mode = g.inForce.mode then l
      else if p.mode = 1 then { l with iPc := l.vPrev, iTp := l.vPrev }
      else if p.mode = 2 then { l with iPc := l.vPrev }
      else l
    { g with inForce := p, commits := g.commits.filter fun c => t ≤ c.1, loop := l }

/-- The episode after a sample at which the loss-of-control condition holds or does not (R86, R90).
DEDUCED, unsafe: log 17. -/
def nextEpisode (l : GovLoop) (t : Stamp) (loss : Bool) : GovLoop :=
  if loss then
    { l with episode := l.episode + 1, episodeStart := some (l.episodeStart.getD t) }
  else { l with episode := 0, episodeStart := none }

/-- The loop and the result of one sample (R71, R78, R89, R90). While PMIC_EN is 0 the loss-of-control condition is not evaluated, and
the episode stays as it is (R78, R86). At a stale sample, in FIXED mode and while PMIC_EN is 0 the procedure assigns none of
sat_hi_now, sat_lo_now, clamp_now and tp_sel: they are shown as 0. DEDUCED, unsafe: log 17. DESIGN CHOICE, unsafe: log 48. -/
def sampleLoop (p : GovParams) (l : GovLoop) (t : Stamp) (stale : Bool) (pace pest : Int) : GovLoop × GovSampleResult :=
  let mk := fun (l : GovLoop) (g : GovStep) (code : Option Nat) =>
    (l, ({ stamp := t, satHiNow := g.satHi, satLoNow := g.satLo, clampNow := g.clamp, staleNow := stale, tpSel := g.tpSel,
           mode := p.mode, pmicEn := p.pmicEn, vout := l.vPrev, pace := qWord pace, pest := qWord pest,
           episode := l.episode, code := code, params := p } : GovSampleResult))
  if p.pmicEn = 0 then
    let l := { l with vPrev := p.vFixed, iPc := p.vFixed, iTp := p.vFixed, wasEnabled := false }
    mk l { vPrev := 0, iPc := 0, iTp := 0 } none
  else if !l.wasEnabled then
    let l := nextEpisode { l with vPrev := p.vFixed, iPc := p.vFixed, iTp := p.vFixed, wasEnabled := true } t (stale && p.mode ≠ 0)
    mk l { vPrev := 0, iPc := 0, iTp := 0 } (some (pmicCode p p.vFixed.toInt))
  else if stale then
    let l := nextEpisode l t (p.mode ≠ 0)
    mk l { vPrev := 0, iPc := 0, iTp := 0 } (some (pmicCode p l.vPrev.toInt))
  else
    let g := govPeriod p l.vPrev.toInt l.iPc.toInt l.iTp.toInt pace pest
    let loss := p.mode ≠ 0 && g.pcBelow && decide (pest > p.powerCap.toInt)
    let l := nextEpisode { l with vPrev := qWord g.vPrev, iPc := qWord g.iPc, iTp := qWord g.iTp } t loss
    mk l g (some (pmicCode p g.vPrev))

/-- The sample instants of R69: the first is the first multiple of 50,000 ns after the Governor is enabled (R96). -/
def sampleDue (s : State) (t : Stamp) : Bool :=
  timed s && s.gov.held.isNone && t % 50000 == 0 && s.stamp == t &&
    match s.gov.lastSample, s.gov.enabledAt with
    | some t0, _ => t0 < t
    | none, some e => t == (e / 50000 + 1) * 50000
    | none, none => false

/-- The readings that the power estimator uses: from before a refresh of the same stamp (R910). -/
def estimatorReadings (s : State) (t : Stamp) : List (Option Nat) :=
  if s.sensors.refreshed = some t then s.sensors.before else s.sensors.temp

/-- Monitors other than the spine that counted 0 over a whole powered period (R54, Table 02-7). -/
def stuckMonitors (s : State) (counts : List Nat) (t : Stamp) : List Nat :=
  (contributing s t).filter fun n => n < 31 && counts.getD n 0 == 0

/-- GOVERNOR_SAMPLE: pace and power of the last period are taken and the law runs (R56, R69 to R75, R82, R89).
DEDUCED, unsafe: log 17. -/
def execGovernorSample (counts activity : List Nat) (estDone : Bool) (t : Stamp) (s : State) : Out :=
  let s := s.upTo t
  if sampleDue s t then
    let stuck := stuckMonitors s counts t
    let s := stuck.foldl (fun s n => pushRecord s { govRec s 0x0006 0 [.d] with loc := { unit := .pace, index := n } }) s
    let s : State := { s with gov := { s.gov with excluded := s.gov.excluded ++ stuck } }
    let pace := paceOf ((leastNat ((contributing s t).map fun n => counts.getD n 0)).getD 0)
    let stale := counts.getD 31 0 == 0 || !estDone
    let pest := Config.powerEstimate activity (estimatorReadings s t)
    let g := applyCommits s.gov t
    let r := sampleLoop g.inForce g.loop t stale pace pest.toInt
    .next { s with gov := { g with held := some (g.loop, r.2), loop := r.1, lastSample := some t } }
  else .next s

/-- The sample as released: an unfinished computation makes it stale (R89). DEDUCED, unsafe: log 17. -/
def released (g : Gov) (old : GovLoop) (r : GovSampleResult) (computed : Bool) : GovLoop × GovSampleResult :=
  if computed then (g.loop, r) else sampleLoop r.params old r.stamp true r.pace.toInt r.pest.toInt

/-- The sticky flags that a sample sets, by bit of the page (R74, R89, Table 02-9). -/
def stickySet (r : GovSampleResult) : List Nat :=
  [(r.satHiNow, 8), (r.satLoNow, 9), (r.clampNow, 10), (r.staleNow, 11)].filterMap fun e => if e.1 then some e.2 else none

/-- The page and the sticky flags after an output at a stamp (R74, R85, R89). -/
def govPageAfter (g : Gov) (l : GovLoop) (r : GovSampleResult) (t : Stamp) : Gov :=
  { g with
    loop := l
    held := none
    page := { satHiNow := r.satHiNow, satLoNow := r.satLoNow, clampNow := r.clampNow, staleNow := r.staleNow, mode := r.mode,
              tpSel := r.tpSel, pmicEn := r.pmicEn, vout := r.vout, pace := r.pace, pest := r.pest, sample := r.stamp,
              episode := r.episode, code := r.code.getD g.page.code }
    satHi := g.satHi || r.satHiNow
    satLo := g.satLo || r.satLoNow
    integClamp := g.integClamp || r.clampNow
    sensorStale := g.sensorStale || r.staleNow
    lastSet := (stickySet r, t)
    frame := match r.code with
      | some c => some (spmiFrameOf r.params c)
      | none => g.frame }

/-- GOVERNOR_OUTPUT: at t + 38.4 us the code is released, the page updates and the SPMI write starts (R69, R77, R85).
DEDUCED, unsafe: log 17. -/
def execGovernorOutput (computed : Bool) (t : Stamp) (s : State) : Out :=
  let s := s.upTo t
  match s.gov.held with
  | some (old, r) =>
    if timed s && s.stamp == r.stamp + 38400 then
      let lr := released s.gov old r computed
      let before := s.gov.page.staleNow
      let s : State := { s with gov := govPageAfter s.gov lr.1 lr.2 s.stamp }
      let s := match lr.2.code with
        | some c => emit s (.spmi (spmiFrameOf lr.2.params c))
        | none => s
      .next (if lr.2.staleNow && !before then pushRecord s { govRec s 0x0005 0 [.d] with stamp := r.stamp } else s)
    else .next s
  | none => .next s

/-- SPMI_FRAME_DONE: the write frame ends; a failure is recorded once a run and is not retried (R79, Table 02-7).
DEDUCED, unsafe: log 17. -/
def execSpmiFrameDone (ok : Bool) (t : Stamp) (s : State) : Out :=
  let s := s.upTo t
  if s.gov.frame.isSome then
    let first := !ok && !s.gov.spmiFailRun
    let s : State := { s with gov := { s.gov with frame := none, spmiFailRun := !ok } }
    .next (if first then pushRecord s (govRec s 0x0007 0 [.d]) else s)
  else .next s

/-- GOV_SATURATION: loss of control held for more than 100 ms, from the 2,002nd sample on, starts Sepia entry (R90, R91).
DEDUCED, unsafe: log 17. -/
def execGovSaturation (t : Stamp) (s : State) : Out :=
  let s := s.upTo t
  match s.gov.loop.episodeStart with
  | some t0 =>
    if heldMoreThan t0 (s.gov.lastSample.getD 0) 100000000 && 2002 ≤ s.gov.loop.episode && mayEnter s 0x0008 then
      .next (decideSepia (pushRecord s (govRec s 0x0008 6 [.b])) 0x0008 none)
    else .next s
  | none => .next s

/-- A sticky flag stays after a W1C write where the write does not name it, or a sample sets it in the same step (R5, R84). -/
def stickyStays (s : State) (value : Word) (bit : Nat) : Bool :=
  !bitOf value bit || (sameStep s s.gov.lastSet.2 && s.gov.lastSet.1.contains bit)

/-- GOV_FLAG_CLEAR: a W1C write to the Governor page of an administration function (R99, R5, R84). -/
def execGovFlagClear (fn : Nat) (value : Word) (t : Stamp) (s : State) : Out :=
  let s := s.upTo t
  if isAdmin fn && barAnswers s fn then
    .next { s with gov := { s.gov with
      satHi := s.gov.satHi && stickyStays s value 8
      satLo := s.gov.satLo && stickyStays s value 9
      integClamp := s.gov.integClamp && stickyStays s value 10
      sensorStale := s.gov.sensorStale && stickyStays s value 11 } }
  else .next s

/-- METRO_LO_READ: a 4-byte or 8-byte read at METRO_LO captures the count and returns it (R62, R63). -/
def execMetroLoRead (fn size : Nat) (t : Stamp) (s : State) : Out :=
  let s := s.upTo t
  if barAnswers s fn && (size == 4 || size == 8) then
    let s := modFn s fn fun f => { f with metroCap := some s.stamp }
    .next (emit s (.cpl fn .success (leBytes size s.stamp) false))
  else .next s

end Sys2Proof.Machine
end

