-- ==== Sys2Proof/Machine/Integrity.lean ====
section
/-!
DEFINITION. The lockstep pair: self-test, mismatch, replay, checkpoints, the watchdog, and the end of Sepia entry (spec
19).
-/

namespace Sys2Proof.Machine

/-- The pair runs with its comparator, after step 5 of Table 03-8. DESIGN CHOICE, unsafe: log 18. -/
def pairRuns (s : State) : Bool :=
  s.lock.mode == .pair && (s.life.phase == .awaitTraining || s.life.phase == .opened)

/-- A record of the Mordant with SCOPE DEVICE or NOTICE for both windows (Table 18-6). -/
def mordantRec (s : State) (code scope : Nat) : ErrRec := { deviceRec s code scope [.b] with loc := { unit := .mordant } }

/-- START_STATUS of a lockstep, comparator or delay-register fault during start-up (Table 03-7). -/
def startCode (cause : Nat) : Nat := if cause = 0x0009 then 0x03 else if cause = 0x000A then 0x04 else 0x05

/-- A lockstep, comparator or delay-register fault: its record, then the decision for Sepia entry; before the host ports open it is
fatal (R27, Table 19-2, R842, R843, R862). DEDUCED, unsafe: log 51. -/
def integrityFault (s : State) (cause : Nat) : State :=
  let s := pushRecord s (mordantRec s cause 6)
  if isOpen s then decideSepia s cause none else faultEdge s (fatal s (startCode cause))

/-- A self-test falls due: a multiple of 1,000,000 ns lies after the last insertion (R830). -/
def selfTestDue (s : State) : Bool :=
  match s.lock.selfLast with
  | some t0 => t0 / 1000000 < s.stamp / 1000000
  | none => true

/-- The test token of a self-test: a token whose bit, counted modulo 72 by the self-test count, is inverted (R830).
DESIGN CHOICE, unsafe: log 18. -/
def testToken (s : State) : Token :=
  tokenOf (Config.tokenData s.lock.tokens) ^^^ BitVec.ofNat 72 (2 ^ (s.lock.selfCount % 72))

/-- COMPARATOR_SELFTEST: a test token is inserted in the comparator's B path, and the parity of every delay register is checked
(R829, R830, R839). -/
def execComparatorSelftest (parityOk : Bool) (t : Stamp) (s : State) : Out :=
  let s := s.upTo t
  if pairRuns s && timed s && !s.lock.replaying && selfTestDue s then
    if parityOk then
      .next { s with lock := { s.lock with
        testToken := some (testToken s), selfPending := some s.stamp, selfLast := some s.stamp, selfCount := s.lock.selfCount + 1 } }
    else .next (integrityFault s 0x000B)
  else .next s

/-- SELFTEST_ALARM: an alarm stamped before t_i + 20 us passes (R831, R832, R840). -/
def execSelftestAlarm (t : Stamp) (s : State) : Out :=
  let s := s.upTo t
  match s.lock.selfPending with
  | some ti =>
    if s.stamp < ti + 20000 then
      .next { s with lock := { s.lock with
        testToken := none, selfPending := none, selfPass := satAdd 32 s.lock.selfPass 1, lastAlarm := min (s.stamp - ti) 0xFFFF } }
    else .next s
  | none => .next s

/-- COMPARATOR_UNVERIFIED: no alarm before t_i + 20 us (R831). -/
def execComparatorUnverified (t : Stamp) (s : State) : Out :=
  let s := s.upTo t
  match s.lock.selfPending with
  | some ti =>
    if timed s && ti + 20000 ≤ s.stamp then
      .next (integrityFault { s with lock := { s.lock with testToken := none, selfPending := none } } 0x000A)
    else .next s
  | none => .next s

/-- A confirmed mismatch: the first is recorded and replayed with its token withheld, a second starts Sepia entry (R836, R838). -/
def confirmedMismatch (s : State) (iface : Nat) : State :=
  if s.lock.sinceReplay then integrityFault { s with lock := { s.lock with replaying := false } } 0x0009
  else
    let held := (s.lock.ifaces.getD iface {}).outRegs.head?.join.toList
    let clear := fun (x : TokenIface) => { x with outRegs := none :: x.outRegs.drop 1 }
    let s := pushRecord s (mordantRec s 0x0009 0)
    { s with lock := { s.lock with
        ifaces := s.lock.ifaces.modify iface clear, withheld := held, replaying := true, sinceReplay := true
        replays := satAdd 16 s.lock.replays 1 } }

/-- A replay has ended in a second mismatch or without its checkpoint (R838, Table 19-2). -/
def replayFails (s : State) : State :=
  if s.lock.replaying then integrityFault { s with lock := { s.lock with replaying := false } } 0x0009 else s

/-- LOCKSTEP_MISMATCH: unequal tokens of good parity are a confirmed mismatch, and bad parity is a delay-register fault; a replayed
token that differs from its log entry is a second mismatch (R829, R835, R836, R838, Table 19-2). -/
def execLockstepMismatch (kind : MismatchKind) (t : Stamp) (s : State) : Out :=
  let s := s.upTo t
  if !pairRuns s then .next s
  else match kind with
    | .tokens iface a b =>
      if a = b || iface ≥ 6 then .next s
      else if tokenGood a && tokenGood b then .next (confirmedMismatch s iface)
      else .next (integrityFault s 0x000B)
    | .delayParity => .next (integrityFault s 0x000B)
    | .replayDiffers entry token =>
      .next (if (s.lock.log[entry]?).all fun x => x == token then s else replayFails s)
    | .checkpointLost => .next (replayFails s)

/-- REPLAY_COMPLETE (R837): nothing is released twice (R231), and what the mismatch withheld is released. -/
def execReplayComplete (t : Stamp) (s : State) : Out :=
  let s := s.upTo t
  let l := s.lock.withheld.foldl Lockstep.release { s.lock with replaying := false, withheld := [] }
  .next { s with lock := l }

/-- MORDANT_CHECKPOINT: the checkpoint closes the replay log, and the first one after a replay makes the next mismatch a first one
again (R833, R838). -/
def execMordantCheckpoint (t : Stamp) (s : State) : Out := .next (takeCheckpoint (s.upTo t))

/-- SEPIA_ENTRY_COMPLETE: once its forfeits are done, steps 5 to 8 of Table 19-4 (R849). -/
def execSepiaEntryComplete (t : Stamp) (s : State) : Out :=
  let s := s.upTo t
  match s.lock.entry with
  | some e => .next (if s.forfeits.isEmpty && !inWarm s then completeSepia s e else s)
  | none => .next s

/-- WATCHDOG_HEARTBEAT: copy A alone writes one at every multiple of 100,000 ns (R847). -/
def execWatchdogHeartbeat (t : Stamp) (s : State) : Out :=
  let s := s.upTo t
  if s.lock.mode == .aAlone && timed s && t % 100000 == 0 && s.stamp == t then
    .next { s with lock := { s.lock with heartbeat := t } }
  else .next s

/-- The first heartbeat not written. -/
def missedBeat (s : State) : Stamp := (s.lock.heartbeat / 100000 + 1) * 100000

/-- WATCHDOG_EXPIRE: no heartbeat for more than 1 ms halts copy A (R847). -/
def execWatchdogExpire (t : Stamp) (s : State) : Out :=
  let s := s.upTo t
  if s.lock.mode == .aAlone && timed s && heldMoreThan (missedBeat s) s.stamp 1000000 then
    .next { s with lock := { s.lock with mode := .halted } }
  else .next s

end Sys2Proof.Machine
end

