-- ==== Sys2Proof/Machine/Madder.lean ====
section
/-!
DEFINITION. Madder instructions, hand-off, data return, commit and squash (spec 12).
-/

namespace Sys2Proof.Machine

/-! Issue -/

/-- The retire token of an operation (R539, R540, R569): commit with PEN 0; otherwise the predicate of the lowest active
lane, or of every lane for MMAF. -/
def madderToken (g : Group) (w : IWord) (active : Word) (all : Bool) : Bool :=
  if !w.pen then true
  else
    let lanes := lanesOf active
    let holds := fun l => preg g w.pred l != w.pneg
    if all then lanes.all holds else (lanes.head?.map holds).getD false

/-- A Madder operation is issued; one that finds its domain off waits for the domain to wake (R564, R568), and MLOAD and
MSTORE wait for a pending fence or acquire of the group (R478, R575, Table 10-4). -/
def madderIssue (slot : Nat) (w : Insn) (t : Stamp) (s : State) (op : Nat) (kind : Group → IWord → MKind) : Out :=
  issue slot w t s (· == op) fun s slot g iw pc active _ =>
    let accesses := op == 0x80 || op == 0x82
    if !domOn s (24 + g.core) then requestWake s (24 + g.core)
    else if accesses && !mayAccess s slot g then s
    else
      let g : Group := if accesses then { g with fence := none } else g
      let o : MOp :=
        { group := slot, core := g.core, kind := kind g iw, commit := madderToken g iw active (op == 0x84), pc := pc
          lanes := active, base := w.base, ext := w.ext }
      let s := putGroup s slot (advance g iw pc active)
      { s with madders := { ops := s.madders.ops ++ [(s.madders.nextOp, o)], nextOp := s.madders.nextOp + 1 } }

/-- The base VA of a tile instruction: a scalar pair. -/
def tileBase (g : Group) (w : IWord) : Nat := (src64 g w 1 w.a 0).toNat

/-- The row stride: a scalar register or an immediate, as an unsigned word. -/
def tileStride (g : Group) (w : IWord) : Nat := (srcB g w 0).toNat

/-- MLOAD (0x80): an operand tile into a slot. -/
def execMload (slot : Nat) (w : Insn) (t : Stamp) (s : State) : Out :=
  madderIssue slot w t s 0x80 fun g iw =>
    .mload iw.d (tileBase g iw) (tileStride g iw)
      { code := iw.mod % 8, int4 := iw.mod % 8 == 0 && bitNat iw.aux 2, sgn := bitNat iw.aux 0, mode := iw.mod / 8, rows := [] }

/-- MMA (0x81): tile += slot A × slot B, from +0 with MOD[0]. -/
def execMma (slot : Nat) (w : Insn) (t : Stamp) (s : State) : Out :=
  madderIssue slot w t s 0x81 fun _ iw => .mma iw.d iw.a iw.b (bitNat iw.mod 0)

/-- MSTORE (0x82): a tile to memory. -/
def execMstore (slot : Nat) (w : Insn) (t : Stamp) (s : State) : Out :=
  madderIssue slot w t s 0x82 fun g iw => .mstore iw.c (tileBase g iw) (tileStride g iw) (iw.mod % 8) iw.aux

/-- MZERO (0x83): a tile to +0. -/
def execMzero (slot : Nat) (w : Insn) (t : Stamp) (s : State) : Out :=
  madderIssue slot w t s 0x83 fun _ iw => .mzero iw.d

/-- The registers of a fragment. -/
def fragment (g : Group) (r n : Nat) : List (List Word) := (rangeFrom r n).map fun k => g.v.getD k []

/-- MMAF (0x84): D = C + A × B in fragments, read when the instruction issues (R510, R567). -/
def execMmaf (slot : Nat) (w : Insn) (t : Stamp) (s : State) : Out :=
  madderIssue slot w t s 0x84 fun g iw =>
    let ac := iw.mod % 8
    let bc := iw.mod / 8
    .mmaf iw.d ac bc (bitNat iw.aux 0) (bitNat iw.aux 1) (ac == 0 && bitNat iw.aux 2)
      (fragment g iw.a (fragRegs ac)) (fragment g iw.b (fragRegs bc))
      (if iw.ck = 3 then none else some (fragment g iw.c 8))

/-- MSYNC (0x85): completes once every earlier operation of the group has committed or been squashed and its stores are
performed; it publishes the numeric status (R576, R612). -/
def execMsync (slot : Nat) (w : Insn) (t : Stamp) (s : State) : Out :=
  issue slot w t s (· == 0x85) fun s slot g iw pc active _ =>
    if (s.madders.ops.any fun e => e.2.group == slot) ||
        (s.traffic.accesses.any fun e => !e.2.dropped && e.2.client == .madderStore slot) then s
    else match publish s slot g pc w with
      | .held s => s
      | .killed s => s
      | .done s g => putGroup s slot (advance g iw pc active)

/-! Staged operations -/

/-- A staged operation. -/
def getOp (s : State) (op : Nat) : Option MOp := tblGet s.madders.ops op

/-- The state without an operation. -/
def removeOp (s : State) (op : Nat) : State := { s with madders := { s.madders with ops := tblErase s.madders.ops op } }

/-- The oldest operation of its group (R571, R577). -/
def oldestOp (s : State) (op : Nat) (o : MOp) : Bool :=
  ((s.madders.ops.find? fun e => e.2.group == o.group).map Prod.fst) == some op

/-- The staging store an operation needs (R574): slots, tiles, fragments, or none of them. -/
def stagingClass : MKind → Nat
  | .mload .. => 0
  | .mma .. => 1
  | .mzero .. => 1
  | .mmaf .. => 2
  | .mstore .. => 3

/-- The Madder has a free entry of the kind an operation needs (R574). -/
def stagingFree (s : State) (o : MOp) : Bool :=
  let mine := s.madders.ops.filter fun e => e.2.core == o.core && e.2.handed
  let same := mine.filter fun e => stagingClass e.2.kind == stagingClass o.kind
  mine.length < 32 && (stagingClass o.kind == 3 || same.length < 8)

/-- The reads of an MLOAD by line: each line with the sectors that its rows use (R471, R555). -/
def tileLines (base stride len : Nat) : List (Nat × List Nat) :=
  let secs := ((List.range 16).flatMap fun r => (rangeFrom ((base + r * stride) / 32) (sectorsOf (base + r * stride) len))).eraseDups
  let lines := (secs.map fun x => x / 4).eraseDups
  lines.map fun l => (128 * l, (List.range 4).filter fun k => secs.contains (4 * l + k))

/-- The row of a tile whose record holds a line. -/
def rowOfLine (base stride len line : Nat) : Nat :=
  ((List.range 16).find? fun r => base + r * stride < line + 128 && line < base + r * stride + len).getD 0

/-- A misaligned base or stride, or a stride below the record length (Table 12-6). -/
def tileMisaligned (base stride len : Nat) : Bool := base % 16 != 0 || stride % 16 != 0 || stride < len

/-- The Madder issues the reads of an MLOAD; a line that fails translation is a fault that the operation holds (R570,
R571, Table 12-6). -/
def mloadReads (s : State) (op : Nat) (o : MOp) (g : Group) (base stride len : Nat) : State :=
  if tileMisaligned base stride len then modOp s op fun o => { o with fault := some (0x0501, .va base, 0) }
  else
    let s := modOp s op fun o => { o with reading := true }
    (tileLines base stride len).foldl (fun s l =>
      match translate s g.ctx l.1 .load with
      | .error e => modOp s op fun o => match o.fault with
          | some _ => o
          | none => { o with fault := some (e.code, .va l.1, rowOfLine base stride len l.1) }
      | .ok (h, leaf) =>
        enterFabric s (lineAccess s (.madderLoad o.group op) (coreNi o.core) g.ctx (queuePrio s g.queue) l.1
          (lineHome h l.1) (leafShared leaf) l.2 .read)) s

/-- MADDER_HANDOFF: the Madder takes an operation that has a free entry; an MLOAD issues its reads (R568, R570, R574). -/
def execMadderHandoff (op : Nat) (t : Stamp) (s : State) : Out :=
  let s := s.upTo t
  match getOp s op with
  | none => .next s
  | some o =>
    match getGroup s o.group with
    | none => .next s
    | some g =>
      if o.handed || !domOn s (24 + o.core) || !stagingFree s o then .next s
      else
        let s := modOp s op fun o => { o with handed := true }
        match o.kind with
        | .mload _ base stride d =>
          if g.drive.isNone then .next s
          else .next (mloadReads s op o g base stride (recordLen d.code d.int4 d.mode))
        | _ => .next s

/-- The bytes of a row record from the answers of its lines. -/
def rowBytes (as : List (Nat × Access)) (va n : Nat) : List Byte :=
  (List.range n).map fun k =>
    match as.find? fun e => e.2.va = (va + k) / 128 * 128 with
    | some e => e.2.bytes.getD ((va + k) % 128) 0#8
    | none => 0#8

/-- MLOAD_DATA_RETURN: every read of an MLOAD has answered; its rows fill the staging slot, and poison is a fault it holds
(R570, Table 12-6). -/
def execMloadDataReturn (op : Nat) (t : Stamp) (s : State) : Out :=
  let s := s.upTo t
  match getOp s op with
  | none => .next s
  | some o =>
    match o.kind with
    | .mload _ base stride d =>
      let as := s.traffic.accesses.filter fun e => e.2.client == .madderLoad o.group op
      if !o.reading || !(as.all fun e => e.2.stage == .answered) then .next s
      else
        let s := as.foldl (fun s e => removeAccess s e.1) s
        let len := recordLen d.code d.int4 d.mode
        let bad := as.find? fun e => e.2.poison
        .next (modOp s op fun o =>
          { o with
            reading := false
            rows := (List.range 16).map fun r => rowBytes as (base + r * stride) len
            fault := match o.fault, bad with
              | some f, _ => some f
              | none, some e => some (0x0510, .va e.2.va, rowOfLine base stride len e.2.va)
              | none, none => none })
    | _ => .next s

/-! Commit and squash -/

/-- A Madder fault raised at commit (R586, Table 18-4): the Madder opcode, the slot or tile, and the row. -/
def madderFault (s : State) (o : MOp) (g : Group) (code : Nat) (addr : RecAddr) (unitNo row : Nat) (reason : Nat := 0) : State :=
  let w : Insn := { base := o.base, ext := o.ext }
  let r := groupRec s o.group g code addr o.pc o.lanes w
    (reason + (iword w).op * 2 ^ 8 + unitNo % 256 * 2 ^ 16 + row % 256 * 2 ^ 24)
  killContext s g.ctx { r with loc := { r.loc with unit := .madder } }

/-- The committed contents of an operand slot. -/
def slotAt (g : Group) (n : Nat) : Option MSlot := (g.mslots.getD n none)

/-- A fault of an operation at its commit (Table 12-6, R556, R560, R565, R573): code, slot or tile, and reason. -/
def commitFault (g : Group) (k : MKind) : Option (Nat × Nat × Nat) :=
  let acc := g.drive.getD 0
  match k with
  | .mmaf .. => if g.drive.isSome then some (0x0513, 0, 0) else none
  | .mload n .. => if g.drive.isNone then some (0x0513, n, 0) else none
  | .mzero n => if g.drive.isNone then some (0x0513, n, 0) else if n ≥ acc then some (0x0511, n, 0) else none
  | .mstore n base stride code _ =>
    if g.drive.isNone then some (0x0513, n, 0)
    else if n ≥ acc then some (0x0511, n, 0)
    else if tileMisaligned base stride (outRowBytes code) then some (0x0501, n, 0)
    else none
  | .mma n a b _ =>
    if g.drive.isNone then some (0x0513, n, 0)
    else if n ≥ acc then some (0x0511, n, 0)
    else match slotAt g a, slotAt g b with
      | none, _ => some (0x0512, a, 0)
      | _, none => some (0x0512, b, 0)
      | some x, some y => if slotsOk x y then none else some (0x0505, n, 5)

/-- The writes of a committed MSTORE, row by row and line by line (R559). -/
def mstoreWrites (base stride code : Nat) (codes : List (Nat × NumEvent)) : List (Nat × List (Nat × Byte)) :=
  let bytes := (List.range 16).flatMap fun r =>
    (storeRow codes code r).zipIdx.map fun e => (base + r * stride + e.2, e.1)
  ((bytes.map fun e => e.1 / 128 * 128).eraseDups).map fun line =>
    (line, (bytes.filter fun e => e.1 / 128 * 128 = line).map fun e => (e.1 - line, e.2))

/-- A committed MSTORE converts its tile and issues its writes; a line that fails translation is its fault (R559, R571,
Table 12-6). -/
def commitStore (s : State) (o : MOp) (g : Group) (n base stride code mode : Nat) : State :=
  let codes := storeCodes g.num (g.tiles.getD n zeroTile) code mode
  let writes := mstoreWrites base stride code codes
  match (writes.filterMap fun w => match translate s g.ctx w.1 .store with
      | .error e => some (e.code, w.1)
      | .ok _ => none).head? with
  | some (err, va) => madderFault s o g err (.va va) n (rowOfLine base stride (outRowBytes code) va)
  | none =>
    let s := writes.foldl (fun s w =>
      match translate s g.ctx w.1 .store with
      | .error _ => s
      | .ok (h, leaf) =>
        enterFabric s (lineAccess s (.madderStore o.group) (coreNi o.core) g.ctx (queuePrio s g.queue) w.1 (lineHome h w.1)
          (leafShared leaf) (lineSecs w.1 1 (w.2.map fun b => w.1 + b.1)) (.write w.2 false))) s
    putGroup s o.group { g with num := noteStore g.num codes mode }

/-- What a committed operation does (R571). DESIGN CHOICE, safe: log 41. -/
def commitOp (s : State) (o : MOp) (g : Group) : State :=
  match o.kind with
  | .mload n _ _ d => putGroup s o.group { g with mslots := g.mslots.set n (some { d with rows := o.rows }) }
  | .mma n a b fresh =>
    match slotAt g a, slotAt g b with
    | some x, some y => putGroup s o.group { g with tiles := g.tiles.set n (mmaTile (g.tiles.getD n zeroTile) fresh x y) }
    | _, _ => s
  | .mzero n => putGroup s o.group { g with tiles := g.tiles.set n zeroTile }
  | .mstore n base stride code mode => commitStore s o g n base stride code mode
  | .mmaf r ac bc asgn bsgn int4 a b c =>
    let regs := mmafRegs c (fragSlot ac int4 asgn a) (fragSlot bc int4 bsgn b)
    putGroup s o.group { g with v := regs.zipIdx.foldl (fun v e => v.set (r + e.2) e.1) g.v }

/-- The slot or tile that an operation names. -/
def opUnit : MKind → Nat
  | .mload n .. => n
  | .mma n .. => n
  | .mzero n => n
  | .mstore n .. => n
  | .mmaf .. => 0

/-- RETIRE_COMMIT: the oldest operation of its group commits; a fault it holds, or an uncorrectable error of a word it reads,
is raised now (R571, R586, Table 12-6). -/
def execRetireCommit (op : Nat) (ue : Bool) (t : Stamp) (s : State) : Out :=
  let s := s.upTo t
  match getOp s op with
  | none => .next s
  | some o =>
    match getGroup s o.group with
    | none => .next s
    | some g =>
      if !o.handed || !o.commit || o.reading || !oldestOp s op o then .next s
      else
        let s := removeOp s op
        match commitFault g o.kind with
        | some (code, n, reason) =>
          let addr := match o.kind with
            | .mstore _ base .. => if code = 0x0501 then RecAddr.va base else .none
            | _ => .none
          .next (madderFault s o g code addr n 0 reason)
        | none =>
          match o.fault with
          | some (code, addr, row) => .next (madderFault s o g code addr (opUnit o.kind) row)
          | none => if ue then .next (madderFault s o g 0x0514 .none (opUnit o.kind) 0) else .next (reapGroup (commitOp s o g) o.group)

/-- RETIRE_SQUASH: the oldest operation of its group is squashed; outstanding reads complete and their data is discarded,
and nothing else changes (R572, R580, R587). -/
def execRetireSquash (op : Nat) (t : Stamp) (s : State) : Out :=
  let s := s.upTo t
  match getOp s op with
  | none => .next s
  | some o =>
    if !o.handed || o.commit || !oldestOp s op o then .next s
    else
      let mine : Client := .madderLoad o.group op
      let keep : Nat × Access → Option (Nat × Access) := fun e =>
        if e.2.client = mine then
          (if e.2.stage = .answered then none else some (e.1, { e.2 with dropped := true }))
        else some e
      let s := removeOp s op
      .next (reapGroup { s with traffic := { s.traffic with accesses := s.traffic.accesses.filterMap keep } } o.group)

end Sys2Proof.Machine
end

