-- ==== Sys2Proof/Machine/Mailbox.lean ====
section
/-!
DEFINITION. The acceptance and refusal of a GO, the register ACK, an unknown command, and the commands that only report (spec 05).
-/

namespace Sys2Proof.Machine

/-! GO and ACK -/

/-- Causes for which the port refuses a GO (R195, Table 05-15). DEDUCED, unsafe: log 8. -/
def goCauses (s : State) (k : SlotId) (v : Slot) (value : Word) : List Nat :=
  causesOf [(v.st == .busy, 0x80), (v.st == .done || v.st == .refused, 0x81), (value == 0#32, 0x82), (value == v.seq, 0x83),
    ((getFn s k.fn).suspended, 0x84)]

/-- A refused GO: GO_LOST, GO_CAUSE and one MBX_GO_REFUSED record (R196, R222, Table 18-4). -/
def refuseGo (s : State) (k : SlotId) (value : Word) (cause : Nat) : State :=
  let s := setSlot s k { getSlot s k with goLost := true, goCause := cause }
  pushRecord s { recOf s 0x0110 0 [.t] (some k.fn) with
    loc := { unit := .port, index := portNum (portOf k.fn) }, detail := detailOf k.slot value.toNat cause 0 }

/-- An accepted GO copies the body and makes the slot BUSY (R194). -/
def acceptGo (s : State) (k : SlotId) (value : Word) : State :=
  let v := getSlot s k
  setSlot s k { v with
    cmd := v.body, st := .busy, seq := value, cause := 0, goLost := false, goCause := 0, goStamp := s.stamp, started := false }

/-- MBX_ACK: an ACK that matches SEQ makes a DONE or REFUSED slot STALE; any other is ignored (R192, R197). -/
def execMbxAck (k : SlotId) (value : Word) (t : Stamp) (s : State) : Out :=
  let s := s.upTo t
  let v := getSlot s k
  .next (if barAnswers s k.fn && k.slot < slotCount k.fn && v.seq = value && (v.st = .done || v.st = .refused) then
      setSlot s k { v with st := .stale, cause := 0 }
    else s)

/-! UNKNOWN_CMD and NOP -/

/-- UNKNOWN_CMD: a code absent from the catalogue is refused (R188). -/
def execUnknownCmd (k : SlotId) (t : Stamp) (s : State) : Out :=
  let s := s.upTo t
  let v := getSlot s k
  .next (if (cmdInfo (cmdCode v.cmd)).isNone && startable s k then slotRefuse s k 0x01 else s)

/-- NOP (0x0001) returns ARG1 to ARG6 (Table 05-6). -/
def execNop (k : SlotId) (t : Stamp) (s : State) : Out :=
  .next (mbxRow (s.upTo t) k 0x0001 anyCmd noCauses (fun s k cmd => slotDone s k ((cmd.drop 1).take 6)) noResume)

/-! The allocation record -/

/-- Units of device LPDDR that a tenant uses: its objects' and its contexts' save areas (R214, R767). -/
def lpddrUsed (s : State) (fn : Nat) : Nat :=
  ((s.lpddr.objects.filter fun e => e.2.tenant == fn && !e.2.ownerLost).map fun e => e.2.units.length).sum +
    ((s.ctxs.filter fun e => e.1.tenant == fn).map fun e => e.2.saveUnits.length).sum

/-- Segments that contexts of a test hold. -/
def segsHeld (s : State) (p : CtxId → Bool) : Nat := (s.vat.segs.filter fun e => (e.2.holder.map p).getD false).length

/-- The allocation record of a tenant (Table 05-11). -/
def allocRecord (s : State) (fn : Nat) : List Word :=
  let g := (getFn s fn).grant
  [resWord (g.contexts % 256 + (ctxsOf s fn).length % 256 * 2 ^ 8),
   resWord (g.parts.toNat + g.quota % 128 * 2 ^ 16),
   resWord (g.chans.toNat % 2 ^ 32),
   resWord (g.chans.toNat / 2 ^ 32),
   resWord (g.lpddr % 2 ^ 16 + lpddrUsed s fn % 2 ^ 16 * 2 ^ 16),
   resWord (g.segs % 1024 + segsHeld s (fun c => c.tenant == fn) % 1024 * 2 ^ 10 + g.tagLimit % 1024 * 2 ^ 20)]

/-- TENANT_INFO (0x0002) returns the issuing tenant's allocation record (R220). -/
def execTenantInfo (k : SlotId) (t : Stamp) (s : State) : Out :=
  .next (mbxRow (s.upTo t) k 0x0002 anyCmd noCauses (fun s k _ => slotDone s k (allocRecord s k.fn)) noResume)

/-- The tenant that an administration command names in A1[6:0]. -/
def argTenant (cmd : List Word) : Nat := argF cmd 1 6 0

/-- A tenant outside an administration function's port (Table 04-8). -/
def offPort (k : SlotId) (fn : Nat) : Bool := isAdmin k.fn && portOf fn != portOf k.fn

/-- A tenant outside the authority of an administration function that, as device administrator, may name any (Table 04-8). -/
def offAuthority (s : State) (k : SlotId) (fn : Nat) : Bool := offPort k fn && k.fn != devAdmin s

/-- ADM_TENANT_INFO (0x0105) returns a named tenant's allocation record (R220). -/
def execAdmTenantInfo (k : SlotId) (t : Stamp) (s : State) : Out :=
  .next (mbxRow (s.upTo t) k 0x0105 anyCmd
    (fun s k cmd => causesOf [(offAuthority s k (argTenant cmd), 0x02), (!isTenant s (argTenant cmd), 0x05)])
    (fun s k cmd => slotDone s k (allocRecord s (argTenant cmd))) noResume)

end Sys2Proof.Machine
end

