-- ==== Sys2Proof/Machine/MbxContext.lean ====
section
/-!
DEFINITION. The commands on contexts and queues: CTX_CREATE, CTX_DESTROY, CTX_RESET, CTX_SET, Q_CREATE, Q_DESTROY, Q_SET and
QUERY_CTX (spec 05, 06, 17).
-/

namespace Sys2Proof.Machine

/-! Units of the device pool -/

/-- Units of the device pool that nothing uses. -/
def freeUnits (s : State) : List Nat := (List.range (poolUnits s)).filter fun u => !s.lpddr.usedUnits.contains u

/-- n of the free units; which ones is not architectural (R310). DESIGN CHOICE, safe: log 39. -/
def pickUnits (free : Nat) : Nat → List Nat → List Nat
  | 0, _ => []
  | n + 1, avail =>
    match avail[Config.freeNat free % avail.length]? with
    | some u => u :: pickUnits (free + 1) n (removeAll avail u)
    | none => []

/-- Units leave the pool. -/
def takeUnits (s : State) (n : Nat) : List Nat × State :=
  let units := pickUnits s.free n (freeUnits s)
  (units, { s with free := s.free + n, lpddr := { s.lpddr with usedUnits := s.lpddr.usedUnits ++ units } })

/-- 4 KiB table pages in use (R337). -/
def tablePages (s : State) : Nat := (s.ctxs.map fun e => e.2.tables.length).sum

/-- Table pages that fit in the 256 MiB of R337. -/
def tableLimit : Nat := 65536

/-! Contexts -/

/-- Units of a save area (R767). -/
def saveAreaUnits : Nat := 8

/-- The index that CTX_CREATE takes: the one named, or with AUTO the lowest free (Table 05-6). -/
def createIndex (s : State) (fn : Nat) (cmd : List Word) : Option Nat :=
  if argF cmd 1 6 6 = 0 then some (argF cmd 1 5 0)
  else (List.range 64).find? fun i => (getCtx s { tenant := fn, idx := i }).isNone

/-- Causes of CTX_CREATE (Table 05-6, R232, R337, R767). -/
def ctxCreateCauses (s : State) (k : SlotId) (cmd : List Word) : List Nat :=
  let g := (getFn s k.fn).grant
  let idx := createIndex s k.fn cmd
  let taken := (idx.map fun i => (getCtx s { tenant := k.fn, idx := i }).isSome).getD false
  let short := lpddrUsed s k.fn + saveAreaUnits > g.lpddr
  causesOf [(taken, 0x06),
    ((ctxsOf s k.fn).length ≥ g.contexts || s.ctxs.length ≥ 2048 || idx.isNone || tablePages s + 1 > tableLimit || short, 0x07),
    (!s.lpddr.inService || (freeUnits s).length < saveAreaUnits, 0x10)]

/-- A context is created with its seed, its save area and its translation root (R300, R767, Table 05-12). -/
def createCtx (s : State) (k : SlotId) (cmd : List Word) : State :=
  let i := (createIndex s k.fn cmd).getD 0
  let u := takeUnits s saveAreaUnits
  let c : Ctx := { seed := cmd.getD 2 0#32, saveUnits := u.1, stampStart := s.stamp }
  let id : CtxId := { tenant := k.fn, idx := i }
  slotDone (addTable { u.2 with ctxs := tblSet u.2.ctxs id c } id (3, 0)) k [resWord i]

/-- CTX_CREATE (0x0010). -/
def execCtxCreate (k : SlotId) (t : Stamp) (s : State) : Out :=
  .next (mbxRow (s.upTo t) k 0x0010 anyCmd ctxCreateCauses createCtx noResume)

/-- NO_SUCH_OBJECT for a context that does not exist. -/
def ctxCauses (s : State) (k : SlotId) (cmd : List Word) : List Nat := causesOf [(!ctxThere s k.fn cmd, 0x05)]

/-- A context cannot go yet: a forfeit of it, or an access that used one of its translations, is not complete (R308, R309, R348,
R387). -/
def ctxBusy (s : State) (c : CtxId) : Bool :=
  (forfeitOf s c).isSome || s.traffic.accesses.any fun e => e.2.ctx == some c && e.2.stage != .answered

/-- A context without work is destroyed and the command completes. DESIGN CHOICE, safe: log 9. -/
def endDestroy (s : State) (k : SlotId) (cmd : List Word) : State :=
  let c := argCtx k.fn cmd
  if ctxBusy s c then s else finishHeld (reapObjects (destroyContext s c)) k

/-- CTX_DESTROY starts: the context's work stops and its queues and mappings go (R291, R309). -/
def startDestroy (s : State) (k : SlotId) (cmd : List Word) : State :=
  let c := argCtx k.fn cmd
  let s := stopWork (holdResult s k []) fun x => x = c
  let s : State := { modCtx s c (fun x => { x with leaves := [], tables := [] }) with queues := s.queues.filter fun e => e.1.ctx ≠ c }
  endDestroy s k cmd

/-- CTX_DESTROY (0x0011): the context goes with its mappings, segments, save area, queues and exclusive clusters once its writes are
performed (R309, R387, R487, R767). -/
def execCtxDestroy (k : SlotId) (t : Stamp) (s : State) : Out :=
  .next (mbxRow (s.upTo t) k 0x0011 anyCmd ctxCauses startDestroy endDestroy)

/-- CTX_RESET (0x0012): the forfeit of one context, which completes the command (R133, R134). -/
def execCtxReset (k : SlotId) (t : Stamp) (s : State) : Out :=
  .next (mbxRow (s.upTo t) k 0x0012 anyCmd ctxCauses
    (fun s k cmd => startForfeit s [.ctxReset (argCtx k.fn cmd)] [(k, (getSlot s k).seq, [])]) noResume)

/-- A value of a CTX_SET parameter is in range (Table 05-12). -/
def ctxParamOk (p v : Nat) : Bool :=
  match p with
  | 1 => v < 16 || v == 0xFF
  | 2 => true
  | 3 => 250 ≤ v && v ≤ 16000
  | 4 => v ≤ 64
  | _ => false

/-- The value of a CTX_SET parameter. -/
def ctxParam (c : Ctx) : Nat → Nat
  | 1 => c.partition.getD 0xFF
  | 2 => c.seed.toNat
  | 3 => c.binGrace
  | _ => c.cacheQuota

/-- A context with a CTX_SET parameter set. -/
def setCtxParam (c : Ctx) (p v : Nat) : Ctx :=
  match p with
  | 1 => { c with partition := if v = 0xFF then none else some v }
  | 2 => { c with seed := resWord v }
  | 3 => { c with binGrace := v }
  | _ => { c with cacheQuota := v }

/-- The parameter that CTX_SET or Q_SET names in A1[15:8]. DEDUCED, unsafe: log 10. -/
def argParam (cmd : List Word) : Nat := argF cmd 1 15 8

/-- Causes of CTX_SET (Tables 05-6, 05-12). -/
def ctxSetCauses (s : State) (k : SlotId) (cmd : List Word) : List Nat :=
  let v := argN cmd 2
  causesOf [(!ctxParamOk (argParam cmd) v, 0x04), (!ctxThere s k.fn cmd, 0x05),
    (argParam cmd = 1 && v < 16 && !(getFn s k.fn).grant.parts.getLsbD v, 0x08)]

/-- CTX_SET (0x0013) sets a context parameter and returns the previous value (Table 05-12). -/
def execCtxSet (k : SlotId) (t : Stamp) (s : State) : Out :=
  .next (mbxRow (s.upTo t) k 0x0013 anyCmd ctxSetCauses
    (fun s k cmd =>
      let c := argCtx k.fn cmd
      let old := ((getCtx s c).map fun x => ctxParam x (argParam cmd)).getD 0
      slotDone (modCtx s c fun x => setCtxParam x (argParam cmd) (argN cmd 2)) k [resWord old]) noResume)

/-! Queues -/

/-- The queue that a command names in A1[8:6]. -/
def argQueue (fn : Nat) (cmd : List Word) : QueueId := { ctx := argCtx fn cmd, q := argF cmd 1 8 6 }

/-- A vector that a queue may take: 0, or above the slot vectors and inside the table (R213). -/
def vectorOk (fn v : Nat) : Bool := v == 0 || (slotCount fn < v && v < vectorCount fn)

/-- The kind of a Q_CREATE (Table 05-6). -/
def kindOfCode : Nat → Option QueueKind
  | 0 => some .graphics
  | 1 => some .compute
  | 2 => some .matrix
  | 3 => some .transfer
  | 4 => some .mixed
  | _ => none

/-- Causes of Q_CREATE (Table 05-6, R213, R238, R762). -/
def qCreateCauses (s : State) (k : SlotId) (cmd : List Word) : List Nat :=
  let tp := argF cmd 4 26 16
  let mine := s.queues.filter fun e => e.1.ctx.tenant == k.fn
  causesOf [
    ((kindOfCode (argF cmd 1 11 9)).isNone || argF cmd 1 15 14 = 3 || argVa cmd 2 % 64 ≠ 0 || !vectorOk k.fn (argF cmd 4 10 0) ||
      tp = 1 || tp > 1024, 0x04),
    (!ctxThere s k.fn cmd, 0x05),
    ((getQueue s (argQueue k.fn cmd)).isSome || (mine.any fun e => e.2.doorbell == argF cmd 1 23 16), 0x06),
    (mine.length ≥ 256, 0x07)]

/-- The queue that Q_CREATE makes: IDLE at its anchor, stopped where its tenant's queues are (R260, R172, R92).
DEDUCED, unsafe: log 10. -/
def newQueue (s : State) (fn : Nat) (cmd : List Word) : Queue :=
  let tp := argF cmd 4 26 16
  { doorbell := argF cmd 1 23 16, kind := (kindOfCode (argF cmd 1 11 9)).getD .mixed, prio := argF cmd 1 13 12
    preempt := argF cmd 1 15 14, anchor := argVa cmd 2, vector := argF cmd 4 10 0, tailPoll := if tp = 0 then 16 else tp
    qPos := argVa cmd 2
    stops := (if (getFn s fn).d3hot then [.d3hot] else []) ++ (if crystalStops s then [.crystal] else []) }

/-- Q_CREATE (0x0020) (R213, R238, R239). -/
def execQCreate (k : SlotId) (t : Stamp) (s : State) : Out :=
  .next (mbxRow (s.upTo t) k 0x0020 anyCmd qCreateCauses
    (fun s k cmd =>
      let q := argQueue k.fn cmd
      let r := newQueue s k.fn cmd
      slotDone (settleQueue { s with queues := tblSet s.queues q r } q) k [resWord r.doorbell]) noResume)

/-- The queue that a command names does not exist. -/
def noQueue (s : State) (k : SlotId) (cmd : List Word) : Bool := (getQueue s (argQueue k.fn cmd)).isNone

/-- Writes of a context's discarded work are still on their way (Table 18-8 step 3). -/
def discardedWrites (s : State) (c : CtxId) : Bool :=
  s.traffic.accesses.any fun e => e.2.dropped && e.2.ctx == some c && e.2.stage != .answered && match e.2.home, e.2.kind with
    | _, .write .. => true
    | .host .., _ => false
    | _, .atomic .. => true
    | _, .read => false

/-- A destroyed queue goes once the writes that left its clients are performed, and its deadline counts become 0 (R291, Table 06-12,
R785). DESIGN CHOICE, safe: log 9. -/
def endQDestroy (s : State) (k : SlotId) (cmd : List Word) : State :=
  let q := argQueue k.fn cmd
  if discardedWrites s q.ctx then s
  else finishHeld (modCtx { s with queues := tblErase s.queues q } q.ctx fun c => { c with dlQueue := c.dlQueue.set q.q (0, 0) }) k

/-- Q_DESTROY starts: the queue's fetch, latch, submission and started packets are cancelled, and the bin lines of its
open frame discarded (R291, R672). -/
def startQDestroy (s : State) (k : SlotId) (cmd : List Word) : State :=
  let q := argQueue k.fn cmd
  let s := match getFrame s q with
    | some f => discardBins s q f
    | none => s
  let s := stopQueues (holdResult s k []) (fun x => x = q) fun _ => false
  let s := modQueue s q fun r => { resetQueue r with stops := insertOnce r.stops .destroy, st := .stopped }
  endQDestroy s k cmd

/-- Q_DESTROY (0x0021) (R291). -/
def execQDestroy (k : SlotId) (t : Stamp) (s : State) : Out :=
  .next (mbxRow (s.upTo t) k 0x0021 anyCmd (fun s k cmd => causesOf [(noQueue s k cmd, 0x05)]) startQDestroy endQDestroy)

/-- A value of a Q_SET parameter is in range (Table 05-13). -/
def queueParamOk (fn p v : Nat) : Bool :=
  match p with
  | 1 => v == 0 || (1000 ≤ v && v ≤ 1000000000)
  | 2 => vectorOk fn v
  | 3 => 2 ≤ v && v ≤ 1024
  | 4 => v ≤ 3
  | 5 => v ≤ 2
  | _ => false

/-- The value of a Q_SET parameter. -/
def queueParam (r : Queue) : Nat → Nat
  | 1 => r.deadline
  | 2 => r.vector
  | 3 => r.tailPoll
  | 4 => r.prio
  | _ => r.preempt

/-- A queue with a Q_SET parameter set. -/
def setQueueParam (r : Queue) (p v : Nat) : Queue :=
  match p with
  | 1 => { r with deadline := v }
  | 2 => { r with vector := v }
  | 3 => { r with tailPoll := v }
  | 4 => { r with prio := v }
  | _ => { r with preempt := v }

/-- Q_SET (0x0022) sets a queue parameter and returns the previous value (Table 05-13). A1[8] belongs to the queue index and to the
parameter alike (Table 05-6). -/
def execQSet (k : SlotId) (t : Stamp) (s : State) : Out :=
  .next (mbxRow (s.upTo t) k 0x0022 anyCmd
    (fun s k cmd => causesOf [(!queueParamOk k.fn (argParam cmd) (argN cmd 2), 0x04), (noQueue s k cmd, 0x05)])
    (fun s k cmd =>
      let q := argQueue k.fn cmd
      let old := ((getQueue s q).map fun r => queueParam r (argParam cmd)).getD 0
      slotDone (modQueue s q fun r => setQueueParam r (argParam cmd) (argN cmd 2)) k [resWord old]) noResume)

/-! QUERY_CTX -/

/-- Pages of a size among some leaves: the first entry of each counts. -/
def pageCount (ls : List Leaf) (z : PageSize) : Nat :=
  (ls.filter fun l => !l.orphaned && l.size == z && l.va % z.bytes == 0).length

/-- Mapped pages of a size (Table 06-9). -/
def pagesOf (c : Ctx) (z : PageSize) : Nat := pageCount c.leaves z

/-- The query record of a context at a stamp (Table 06-9). -/
def queryRecord (s : State) (c : CtxId) (x : Ctx) : List Byte :=
  let k := x.counters
  leBytes 4 1 ++ leBytes 4 (c.tenant + c.idx * 2 ^ 8) ++ leBytes 8 x.stampStart ++ leBytes 8 s.stamp ++
  ([k.coreBusy, k.madderBusy, k.samplerBusy, k.rdLpddr, k.wrLpddr, k.rdScratch, k.wrScratch, k.rdHost, k.wrHost, k.rdShared,
    k.wrShared].flatMap (leBytes 8)) ++
  leBytes 4 (segsHeld s fun y => y == c) ++ leBytes 4 x.linesResident ++ leBytes 8 x.linesStamp ++
  leBytes 4 (pagesOf x .p4k) ++ leBytes 4 (pagesOf x .p64k) ++ leBytes 4 (pagesOf x .p2m) ++ leBytes 4 x.sems.length ++
  leBytes 4 k.dlMet ++ leBytes 4 k.dlMissed ++ leBytes 8 0 ++
  (x.dlQueue.flatMap fun d => leBytes 4 (d.1 + d.2 * 2 ^ 16)) ++ List.replicate 64 0#8

/-- The counters of a context that the reset flag returns to 0 (R283). -/
def resetCounters (s : State) (x : Ctx) : Ctx :=
  { x with counters := {}, dlQueue := List.replicate 8 (0, 0), stampStart := s.stamp }

/-- The Mordant writes a record to a context's memory: SPINE packets from the system NI, one for each line (R20, R282). -/
def sendRecord (s : State) (k : SlotId) (c : CtxId) (va : Nat) (h : Home) (l : Leaf) (bs : List Byte) : State :=
  (linePieces va bs.length).foldl (fun s p =>
    let line := p.1 / 128 * 128
    let part := (rangeFrom (p.1 % 128) p.2.2).zip ((bs.drop p.2.1).take p.2.2)
    let home := match h with
      | .device pa => Home.device (pa + (line - va))
      | .scratch a => .scratch (a + (line - va))
      | .host q fn a => .host q fn (a + (line - va))
    enterFabric s { lineAccess s (.mordant k) systemNi c 3 line home (leafShared l) (lineSecs line p.2.2 [p.1])
      (.write part false) with part := none }) s

/-- QUERY_CTX completes once its record is written. DESIGN CHOICE, safe: log 9. -/
def endQuery (s : State) (k : SlotId) (_ : List Word) : State :=
  let mine : Nat × Access → Bool := fun e => e.2.client == .mordant k && !e.2.dropped
  if s.traffic.accesses.any fun e => mine e && e.2.stage != .answered then s
  else finishHeld { s with traffic := { s.traffic with accesses := s.traffic.accesses.filter fun e => !mine e } } k

/-- QUERY_CTX takes the snapshot, returns the counters to 0 where it says so, and writes the record; 0 where the destination would
fault (R282, R283). -/
def startQuery (s : State) (k : SlotId) (cmd : List Word) : State :=
  let c := argCtx k.fn cmd
  match getCtx s c, translate s c (argVa cmd 2) .store with
  | none, _ => slotDone s k [0#32]
  | some _, .error e => slotDone (tableKill s c (argVa cmd 2) e) k [0#32]
  | some x, .ok (h, l) =>
    let s := sendRecord (holdResult s k [resWord 256]) k c (argVa cmd 2) h l (queryRecord s c x)
    endQuery (if argF cmd 1 8 8 = 1 then modCtx s c (resetCounters s) else s) k cmd

/-- QUERY_CTX (0x0050). -/
def execQueryCtx (k : SlotId) (t : Stamp) (s : State) : Out :=
  .next (mbxRow (s.upTo t) k 0x0050 anyCmd
    (fun s k cmd => causesOf [(argVa cmd 2 % 256 ≠ 0, 0x04), (!ctxThere s k.fn cmd, 0x05)]) startQuery endQuery)

end Sys2Proof.Machine
end

