-- ==== Sys2Proof/Machine/MbxMemory.lean ====
section
/-!
DEFINITION. The commands on memory objects, mappings, scratchpad segments and Vat maintenance: MEM_ALLOC, MEM_FREE, MEM_MAP,
MEM_UNMAP, SEG_ACQUIRE, SEG_RELEASE and VAT_MAINT (spec 05, 07, 08).
-/

namespace Sys2Proof.Machine

/-! Memory objects -/

/-- A handle that no object has; which one is not architectural, and it is never 0 (Table 05-6).
DESIGN CHOICE, safe: log 39. -/
def freshHandle (s : State) : Nat :=
  let base := Config.freeNat s.free
  let try_ := fun (d : Nat) => (base + d) % (2 ^ 32 - 1) + 1
  (((List.range (s.lpddr.objects.length + 1)).map try_).find? fun h => (tblGet s.lpddr.objects h).isNone).getD 1

/-- Causes of MEM_ALLOC (Table 05-6, R232). -/
def memAllocCauses (s : State) (k : SlotId) (cmd : List Word) : List Nat :=
  let n := argN cmd 1
  causesOf [(n = 0 || n > 16384, 0x04),
    (lpddrUsed s k.fn + n > (getFn s k.fn).grant.lpddr, 0x07),
    (!s.lpddr.inService || (freeUnits s).length < n, 0x10)]

/-- Every block of some units is marked in the zero map, and nothing of an earlier object is left there (R311, R313). -/
def markZero (l : Lpddr) (units : List Nat) : Lpddr :=
  { l with
    zeroMap := units.foldl (fun z u => tblSet z u []) l.zeroMap
    badBlocks := l.badBlocks.filter fun e => !units.contains (e.1 / 512) }

/-- A memory object is made of units of the pool (R310, R311). -/
def allocObject (s : State) (k : SlotId) (cmd : List Word) : State :=
  let h := freshHandle s
  let u := takeUnits { s with free := s.free + 1 } (argN cmd 1)
  let l := markZero u.2.lpddr u.1
  slotDone { u.2 with lpddr := { l with objects := l.objects ++ [(h, { tenant := k.fn, units := u.1 })] } } k [resWord h]

/-- MEM_ALLOC (0x0030). -/
def execMemAlloc (k : SlotId) (t : Stamp) (s : State) : Out :=
  .next (mbxRow (s.upTo t) k 0x0030 anyCmd memAllocCauses allocObject noResume)

/-- The object that a handle names for a tenant. -/
def ownObject (s : State) (fn handle : Nat) : Option MemObject :=
  (tblGet s.lpddr.objects handle).filter fun o => o.tenant == fn && !o.ownerLost

/-- Causes of MEM_FREE: a context maps the object or a share exports it (R313, R314). -/
def memFreeCauses (s : State) (k : SlotId) (cmd : List Word) : List Nat :=
  let h := argN cmd 1
  causesOf [((ownObject s k.fn h).isNone, 0x05), (objectMapped s h || objectShared s h, 0x0B)]

/-- An access to a unit of an object is on its way to its home or served there: a mapping that a MEM_UNMAP or a revoke has removed
made it (R308, R313). -/
def objectAccessed (s : State) (handle : Nat) : Bool :=
  s.traffic.accesses.any fun e => e.2.stage != .answered && match e.2.home with
    | .device pa => objectAt s pa == some handle
    | _ => false

/-- MEM_FREE completes once no access to the object is under way, so that none reaches a later object (R313).
DEDUCED, unsafe: log 45. -/
def endMemFree (s : State) (k : SlotId) (cmd : List Word) : State :=
  if objectAccessed s (argN cmd 1) then s else finishHeld (freeObject s (argN cmd 1)) k

/-- MEM_FREE (0x0031). -/
def execMemFree (k : SlotId) (t : Stamp) (s : State) : Out :=
  .next (mbxRow (s.upTo t) k 0x0031 anyCmd memFreeCauses (fun s k cmd => endMemFree (holdResult s k []) k cmd) endMemFree)

/-! Mappings -/

/-- The page size of A1[7:6] (Table 05-6). -/
def sizeOfCode : Nat → Option PageSize
  | 0 => some .p4k
  | 1 => some .p64k
  | 2 => some .p2m
  | _ => none

/-- The page size that a command names. -/
def argSize (cmd : List Word) : PageSize := (sizeOfCode (argF cmd 1 7 6)).getD .p4k

/-- The end of the VA range of MEM_MAP and MEM_UNMAP. -/
def mapEnd (cmd : List Word) : Nat := argVa cmd 2 + argN cmd 7 * (argSize cmd).bytes

/-- Page size, count, alignment or range are wrong (R315). -/
def rangeBad (cmd : List Word) : Bool :=
  (sizeOfCode (argF cmd 1 7 6)).isNone || argN cmd 7 == 0 || argN cmd 7 > 1048576 ||
    argVa cmd 2 % (argSize cmd).bytes != 0 || mapEnd cmd > 2 ^ 48

/-- A leaf meets a VA range. DEDUCED, unsafe: log 10. -/
def leafIn (lo hi : Nat) (l : Leaf) : Bool := l.va < hi && lo < l.va + l.span

/-- Some mapped page lies in a VA range of a context (R316). -/
def rangeMapped (s : State) (c : CtxId) (lo hi : Nat) : Bool :=
  ((getCtx s c).map fun x => x.leaves.any fun l => !l.orphaned && leafIn lo hi l).getD false

/-- A context with new leaves; entries of orphaned pages under them are overwritten (R302). -/
def addLeaves (x : Ctx) (lo hi : Nat) (ls : List Leaf) : Ctx :=
  { x with leaves := (x.leaves.filter fun l => !(l.orphaned && leafIn lo hi l)) ++ ls }

/-- New leaves of a context with the tables that they need (R300). -/
def addPages (s : State) (c : CtxId) (lo hi : Nat) (ls : List Leaf) : State :=
  (leafTables ls).foldl (fun s key => addTable s c key) (modCtx s c fun x => addLeaves x lo hi ls)

/-- Table pages would exceed R337 with new leaves of a context. -/
def tablesShort (s : State) (c : CtxId) (ls : List Leaf) : Bool :=
  match getCtx s c with
  | some x => tablePages s + ((leafTables ls).filter fun key => (tblGet x.tables key).isNone).length > tableLimit
  | none => false

/-- The entries of one page at a VA: a 64 KiB page has 16, all alike (R303). -/
def pageLeaves (l : Leaf) : List Leaf :=
  if l.size = .p64k then (List.range 16).map fun i => { l with va := l.va + 0x1000 * i } else [l]

/-- What a MEM_MAP maps: pages of an object by handle, host memory, or host memory of a share. -/
inductive MapSource where
  | object (o : MemObject)
  | ownHost
  | shareHost
  deriving DecidableEq, Repr

/-- The share that a MEM_MAP names. -/
def argShare (s : State) (cmd : List Word) : Option Share := tblGet s.alloc.shares (argN cmd 4)

/-- The source of a MEM_MAP, none where it does not exist (R315, R318, R324). -/
def mapSource (s : State) (fn : Nat) (cmd : List Word) : Option MapSource :=
  match argF cmd 1 12 11 with
  | 0 => (ownObject s fn (argN cmd 4)).map .object
  | 1 => some .ownHost
  | _ => match argShare s cmd with
    | some sh => if sh.handle = 0 then some .shareHost else (tblGet s.lpddr.objects sh.handle).map .object
    | none => none

/-- Offset or host address of a MEM_MAP that is misaligned or out of range (R315, R318). -/
def sourceBad (cmd : List Word) (src : Option MapSource) : Bool :=
  let off := argWide cmd 5
  let top := off + argN cmd 7 * (argSize cmd).bytes
  off % (argSize cmd).bytes != 0 || match src with
    | some (.object o) => top > o.units.length * 2 ^ 21
    | some _ => top > 2 ^ 52
    | none => false

/-- The target of a page at an offset of its source. -/
def pageTarget (src : MapSource) (off : Nat) : LeafTarget :=
  match src with
  | .object o => .device (o.units.getD (off / 2 ^ 21) 0 * 2 ^ 21 + off % 2 ^ 21)
  | .ownHost => .host off
  | .shareHost => .shareHost off

/-- The leaves that a MEM_MAP creates (R304, R315, R318, R324, Table 07-5). -/
def mapLeaves (cmd : List Word) (src : MapSource) : List Leaf :=
  let z := argSize cmd
  let code := argF cmd 1 10 8
  (List.range (argN cmd 7)).flatMap fun i => pageLeaves
    { va := argVa cmd 2 + i * z.bytes, size := z, w := bitNat code 0, x := bitNat code 1, ap := bitNat code 2
      target := pageTarget src (argWide cmd 5 + i * z.bytes)
      share := if argF cmd 1 12 11 = 2 then some (argN cmd 4) else none }

/-- The share may be mapped by a tenant: granted by both, and the tenant is its importer (R323, R331). -/
def shareUsable (sh : Share) (fn : Nat) : Bool := sh.st == .both && sh.importer == some fn

/-- Causes of MEM_MAP (Table 05-6, R232, R315, R316, R318, R323, R331, R337). -/
def memMapCauses (s : State) (k : SlotId) (cmd : List Word) : List Nat :=
  let c := argCtx k.fn cmd
  let src := mapSource s k.fn cmd
  let tgt := argF cmd 1 12 11
  causesOf [(rangeBad cmd || tgt = 3 || sourceBad cmd src, 0x04),
    (!ctxThere s k.fn cmd || src.isNone, 0x05),
    (rangeMapped s c (argVa cmd 2) (mapEnd cmd), 0x06),
    (match src with
      | some x => tablesShort s c (mapLeaves cmd x)
      | none => false, 0x07),
    (tgt = 2 && !((argShare s cmd).any fun sh => shareUsable sh k.fn), 0x08),
    (tgt = 0 && !s.lpddr.inService, 0x10)]

/-- MEM_MAP maps all of its pages (R316). -/
def runMap (s : State) (k : SlotId) (cmd : List Word) : State :=
  match mapSource s k.fn cmd with
  | some src =>
    slotDone (addPages s (argCtx k.fn cmd) (argVa cmd 2) (mapEnd cmd) (mapLeaves cmd src)) k [resWord (argN cmd 7)]
  | none => slotRefuse s k 0x05

/-- MEM_MAP (0x0032). -/
def execMemMap (k : SlotId) (t : Stamp) (s : State) : Out :=
  .next (mbxRow (s.upTo t) k 0x0032 anyCmd memMapCauses runMap noResume)

/-- An access is in flight whose page its context no longer maps (R308). -/
def staleAccess (s : State) (p : CtxId → Bool) : Bool :=
  s.traffic.accesses.any fun e => e.2.stage != .answered && match e.2.ctx with
    | some c => p c && ((getCtx s c).map fun x => (findLeaf x e.2.va).isNone).getD true
    | none => false

/-- Causes of MEM_UNMAP: a page of another size or of a segment in the range is BAD_ARG (R317). -/
def memUnmapCauses (s : State) (k : SlotId) (cmd : List Word) : List Nat :=
  let c := argCtx k.fn cmd
  let other := ((getCtx s c).map fun x => x.leaves.any fun l =>
    !l.orphaned && leafIn (argVa cmd 2) (mapEnd cmd) l && (l.size != argSize cmd || isSegLeaf l)).getD false
  causesOf [(rangeBad cmd || other, 0x04), (!ctxThere s k.fn cmd, 0x05)]

/-- The command completes once every access that used a removed translation has completed (R308).
DESIGN CHOICE, safe: log 9. -/
def endUnmap (s : State) (k : SlotId) (cmd : List Word) : State :=
  if staleAccess s (fun c => c = argCtx k.fn cmd) then s else finishHeld s k

/-- MEM_UNMAP removes the pages of the range and skips unmapped entries (R317); waits on words that become unreachable end (R281). -/
def startUnmap (s : State) (k : SlotId) (cmd : List Word) : State :=
  let c := argCtx k.fn cmd
  let gone := fun (l : Leaf) => leafIn (argVa cmd 2) (mapEnd cmd) l
  let n := ((getCtx s c).map fun x => pageCount (x.leaves.filter gone) (argSize cmd)).getD 0
  let s := modCtx s c fun x => removeLeaves x gone
  endUnmap (recheckWaits (reapObjects (holdResult s k [resWord n]))) k cmd

/-- MEM_UNMAP (0x0033). -/
def execMemUnmap (k : SlotId) (t : Stamp) (s : State) : Out :=
  .next (mbxRow (s.upTo t) k 0x0033 anyCmd memUnmapCauses startUnmap endUnmap)

/-! Scratchpad segments -/

/-- VA, alignment or count of a segment command are wrong (Table 05-6). -/
def segArgsBad (cmd : List Word) : Bool :=
  let n := argN cmd 4
  argVa cmd 2 % segBytes != 0 || n == 0 || n > 336 || argVa cmd 2 + n * segBytes > 2 ^ 48

/-- The end of the VA range of a segment command. -/
def segEnd (cmd : List Word) : Nat := argVa cmd 2 + argN cmd 4 * segBytes

/-- Free segments, lowest number first (R386). -/
def freeSegList (s : State) : List Nat :=
  (List.range 384).filter fun n => ((tblGet s.vat.segs n).map fun g => g.holder.isNone).getD false

/-- Segments of a port's share: its 64ths of the segments, Port B the rest (Table 04-9). -/
def portSegs (s : State) (p : PortId) : Nat :=
  let n := 24 * (convWays s).length
  let a := s.alloc.portA.segs * n / 64
  if p = .a then a else n - a

/-- The four 64 KiB pages of each segment (R304). -/
def segLeaves (va : Nat) (segs : List Nat) : List Leaf :=
  segs.zipIdx.flatMap fun e => (List.range 4).flatMap fun i => pageLeaves
    { va := va + e.2 * segBytes + i * 0x10000, size := .p64k, w := true, x := false, ap := false
      target := .scratch (e.1 * segBytes + i * 0x10000) }

/-- Causes of SEG_ACQUIRE (Table 05-6, R337, R386). -/
def segAcquireCauses (s : State) (k : SlotId) (cmd : List Word) : List Nat :=
  let c := argCtx k.fn cmd
  let n := argN cmd 4
  let p := portOf k.fn
  let free := freeSegList s
  causesOf [(segArgsBad cmd, 0x04), (!ctxThere s k.fn cmd, 0x05), (rangeMapped s c (argVa cmd 2) (segEnd cmd), 0x06),
    (segsHeld s (fun x => x.tenant == k.fn) + n > (getFn s k.fn).grant.segs ||
      segsHeld s (fun x => portOf x.tenant == p) + n > portSegs s p || free.length < n ||
      tablesShort s c (segLeaves (argVa cmd 2) (free.take n)), 0x07)]

/-- SEG_ACQUIRE maps the lowest-numbered free segments (R386). -/
def runAcquire (s : State) (k : SlotId) (cmd : List Word) : State :=
  let c := argCtx k.fn cmd
  let segs := (freeSegList s).take (argN cmd 4)
  let take : Nat × Segment → Nat × Segment := fun e => if segs.contains e.1 then (e.1, { holder := some c }) else e
  let s : State := { s with vat := { s.vat with segs := s.vat.segs.map take } }
  slotDone (addPages s c (argVa cmd 2) (segEnd cmd) (segLeaves (argVa cmd 2) segs)) k [resWord segs.length]

/-- SEG_ACQUIRE (0x0040). -/
def execSegAcquire (k : SlotId) (t : Stamp) (s : State) : Out :=
  .next (mbxRow (s.upTo t) k 0x0040 anyCmd segAcquireCauses runAcquire noResume)

/-- The segments of a context at the 256 KiB steps of a VA range (R387). -/
def segsInRange (s : State) (c : CtxId) (lo hi : Nat) : List Nat :=
  ((getCtx s c).map fun x => x.leaves.filterMap fun l => match l.target with
    | .scratch a => if lo ≤ l.va && l.va < hi && a % segBytes = 0 && l.va % segBytes = 0 then some (a / segBytes) else none
    | _ => none).getD []

/-- Causes of SEG_RELEASE (R387). -/
def segReleaseCauses (s : State) (k : SlotId) (cmd : List Word) : List Nat :=
  causesOf [(segArgsBad cmd, 0x04),
    (!ctxThere s k.fn cmd || (segsInRange s (argCtx k.fn cmd) (argVa cmd 2) (segEnd cmd)).isEmpty, 0x05)]

/-- A segment that a context maps. -/
def segMapped (s : State) (c : CtxId) (n : Nat) : Bool :=
  ((getCtx s c).map fun x => x.leaves.any fun l => match l.target with
    | .scratch a => a / segBytes == n
    | _ => false).getD false

/-- An access to one of some segments, numbered below a bound, is not complete. -/
def segAccessed (s : State) (segs : List Nat) (bound : Nat) : Bool :=
  s.traffic.accesses.any fun e => e.1 < bound && e.2.stage != .answered && match e.2.home with
    | .scratch a => segs.contains (a / segBytes)
    | _ => false

/-- Once the accesses that used the removed mappings have completed, segments that the context no longer maps are zeroed and free
(R387, R400). -/
def freeReleased (s : State) (k : SlotId) (cmd : List Word) : State :=
  let c := argCtx k.fn cmd
  if staleAccess s (fun x => x = c) then s
  else
    let back : Nat × Segment → Nat × Segment := fun e => if e.2.holder == some c && !segMapped s c e.1 then (e.1, {}) else e
    finishHeld { s with vat := { s.vat with segs := s.vat.segs.map back } } k

/-- SEG_RELEASE goes on: once every access to the segments that started before it is complete, the mappings go, and then the
segments; waits on words in them end (R281, R387). DESIGN CHOICE, safe: log 9. -/
def endRelease (s : State) (k : SlotId) (cmd : List Word) : State :=
  let c := argCtx k.fn cmd
  let segs := segsInRange s c (argVa cmd 2) (segEnd cmd)
  if segs.isEmpty then freeReleased s k cmd
  else if segAccessed s segs (getSlot s k).mark then s
  else
    let s := modCtx s c fun x => removeLeaves x fun l => match l.target with
      | .scratch a => segs.contains (a / segBytes)
      | _ => false
    freeReleased (recheckWaits s) k cmd

/-- SEG_RELEASE starts: it counts the segments that it will release (R387). -/
def startRelease (s : State) (k : SlotId) (cmd : List Word) : State :=
  let segs := segsInRange s (argCtx k.fn cmd) (argVa cmd 2) (segEnd cmd)
  let s := holdResult s k [resWord segs.length]
  endRelease (setSlot s k { getSlot s k with mark := s.traffic.nextAccess }) k cmd

/-- SEG_RELEASE (0x0041). -/
def execSegRelease (k : SlotId) (t : Stamp) (s : State) : Out :=
  .next (mbxRow (s.upTo t) k 0x0041 anyCmd segReleaseCauses startRelease endRelease)

/-! VAT_MAINT -/

/-- The operation of a VAT_MAINT (Table 05-6). -/
def maintOp (cmd : List Word) : Nat := argF cmd 1 9 8

/-- The leaves of target 0 that map a physical line of the range of a VAT_MAINT (R378). -/
def maintLeaves (s : State) (c : CtxId) (cmd : List Word) (pa : Nat) : List Leaf :=
  let lo := argVa cmd 2
  let hi := lo + argN cmd 4
  ((getCtx s c).map fun x => x.leaves.filter fun l => !l.orphaned && match l.target with
    | .device a =>
      let va := l.va / l.size.bytes * l.size.bytes + (pa - a)
      a ≤ pa && pa < a + l.size.bytes && l.covers va && lo ≤ va && va < hi
    | _ => false).getD []

/-- What a VAT_MAINT does to a line of its range: written back, discarded, or both; invalidation acts on pages with W (R378). -/
def maintLine (s : State) (op : Nat) (writable : Bool) (ln : Line) : State :=
  match op, writable with
  | 2, true => dropLine s ln
  | 2, false => s
  | 3, true => evictLine s ln 0
  | _, _ => setLine (writeBackLine s ln 0) (cleanLine ln)

/-- Causes of VAT_MAINT (Table 05-6). -/
def maintCauses (s : State) (k : SlotId) (cmd : List Word) : List Nat :=
  causesOf [(maintOp cmd = 0 || argVa cmd 2 % 128 ≠ 0 || argN cmd 4 % 128 ≠ 0, 0x04), (!ctxThere s k.fn cmd, 0x05)]

/-- VAT_MAINT completes once the write-backs of its range have reached LPDDR (R379). DESIGN CHOICE, safe: log 9. -/
def endMaint (s : State) (k : SlotId) (cmd : List Word) : State :=
  let c := argCtx k.fn cmd
  if (s.traffic.writeBacks.any fun e => e.2.stage == .sent && !(maintLeaves s c cmd (e.2.pa / 128 * 128)).isEmpty) then s
  else finishHeld s k

/-- VAT_MAINT visits every line of its range (R378). -/
def startMaint (s : State) (k : SlotId) (cmd : List Word) : State :=
  let c := argCtx k.fn cmd
  let s := s.vat.lines.foldl (fun s ln =>
    match maintLeaves s c cmd (linePa ln) with
    | [] => s
    | ls => maintLine s (maintOp cmd) (ls.any Leaf.w) ln) (holdResult s k [])
  endMaint s k cmd

/-- A VAT_MAINT is a row's: its operation is the row's, or the reserved 0. -/
def maintMine (op : Nat) (cmd : List Word) : Bool := maintOp cmd == op || maintOp cmd == 0

/-- VAT_MAINT_CLEAN (0x0042, operation 1): every dirty sector of the range is written back (R378, R379). -/
def execVatMaintClean (k : SlotId) (t : Stamp) (s : State) : Out :=
  .next (mbxRow (s.upTo t) k 0x0042 (maintMine 1) maintCauses startMaint endMaint)

/-- VAT_MAINT_INVALIDATE (0x0042, operation 2): lines of the range on pages with W are discarded (R378, R379). -/
def execVatMaintInvalidate (k : SlotId) (t : Stamp) (s : State) : Out :=
  .next (mbxRow (s.upTo t) k 0x0042 (maintMine 2) maintCauses startMaint endMaint)

/-- VAT_MAINT_CLEAN_INVALIDATE (0x0042, operation 3): lines of the range are written back and, on pages with W, discarded (R378,
R379). -/
def execVatMaintCleanInvalidate (k : SlotId) (t : Stamp) (s : State) : Out :=
  .next (mbxRow (s.upTo t) k 0x0042 (maintMine 3) maintCauses startMaint endMaint)

end Sys2Proof.Machine
end

