-- ==== Sys2Proof/Machine/MbxAdmin.lean ====
section
/-!
DEFINITION. The administration commands: ADM_GRANT, ADM_REVOKE, ADM_TENANT_RESET, ADM_PART_CFG and ADM_SHARE (spec 05, with
the port shares of spec 04).
-/

namespace Sys2Proof.Machine

/-! Resources (Table 05-11) -/

/-- A port's share of a counted resource, in its units (Table 04-9). -/
def portShare (s : State) (p : PortId) (res : Nat) : Nat :=
  let of := fun (a total : Nat) => if p = .a then a else total - a
  match res with
  | 1 => of s.alloc.portA.contexts 2048
  | 3 => of s.alloc.portA.quota 64
  | 4 => portSegs s p
  | _ => 0

/-- A port's share of a resource shared by mask (Table 04-9). -/
def portMask (s : State) (p : PortId) (res : Nat) : BitVec 64 :=
  let a := if res = 5 then s.alloc.portA.parts.zeroExtend 64 else s.alloc.portA.chans
  let all := if res = 5 then 0xFFFF#64 else 0xFFFFFFFFFFFFFFFF#64
  if p = .a then a else all &&& ~~~a

/-- What a tenant holds by grant of a counted resource or TAG_LIMIT. -/
def grantCount (g : Grant) : Nat → Nat
  | 1 => g.contexts
  | 2 => g.lpddr
  | 3 => g.quota
  | 4 => g.segs
  | _ => g.tagLimit

/-- What a tenant holds by grant of a resource shared by mask. -/
def grantMask (g : Grant) (res : Nat) : BitVec 64 := if res = 5 then g.parts.zeroExtend 64 else g.chans

/-- A grant with a counted resource or TAG_LIMIT set. -/
def setCount (g : Grant) (res v : Nat) : Grant :=
  match res with
  | 1 => { g with contexts := v }
  | 2 => { g with lpddr := v }
  | 3 => { g with quota := v }
  | 4 => { g with segs := v }
  | _ => { g with tagLimit := v }

/-- A grant with a resource shared by mask set. -/
def setMask (g : Grant) (res : Nat) (m : BitVec 64) : Grant :=
  if res = 5 then { g with parts := m.truncate 16 } else { g with chans := m }

/-- A resource that is granted by mask. -/
def isMask (res : Nat) : Bool := res == 5 || res == 6

/-- The resource that ADM_GRANT and ADM_REVOKE name. -/
def argResource (cmd : List Word) : Nat := argF cmd 1 15 8

/-- The mask in ARG2 and ARG3. -/
def argMask (cmd : List Word) (res : Nat) : BitVec 64 :=
  if res = 5 then BitVec.ofNat 64 (argF cmd 2 15 0) else BitVec.ofNat 64 (argWide cmd 2)

/-- The amount in ARG2. -/
def argAmount (cmd : List Word) : Nat := argN cmd 2

/-- The grants of a counted resource to some functions. -/
def grantSum (s : State) (fns : List Nat) (res : Nat) : Nat := (fns.map fun fn => grantCount (getFn s fn).grant res).sum

/-- Every function. -/
def allFns : List Nat := List.range 128

/-- The total or mask of a tenant as two result words (Table 05-7). -/
def grantWords (g : Grant) (res : Nat) : List Word :=
  if isMask res then [resWord ((grantMask g res).toNat % 2 ^ 32), resWord ((grantMask g res).toNat / 2 ^ 32)]
  else [resWord (grantCount g res), 0#32]

/-- The target tenant is under reset (Table 05-14). -/
def tenantResetting (s : State) (fn : Nat) : Bool :=
  (getFn s fn).resetting || (getFn s fn).flr || s.forfeits.any fun f => f.tenants.contains fn

/-! ADM_GRANT -/

/-- The largest TAG_LIMIT of a port (R165, R166). -/
def tagLimitMax (s : State) (p : PortId) : Nat := if (getPort s p).tenBit then 736 else 224

/-- The port share, or the pool for device LPDDR, cannot cover a grant (R159, R966). A grant of device LPDDR, which no port share
covers, is refused with the same cause. DESIGN CHOICE, unsafe: log 60. -/
def shareShort (s : State) (fn res : Nat) (cmd : List Word) : Bool :=
  let p := portOf fn
  match res with
  | 2 => grantSum s allFns 2 + argAmount cmd > poolUnits s
  | 5 => argMask cmd 5 &&& ~~~portMask s p 5 != 0#64
  | 6 => argMask cmd 6 &&& ~~~portMask s p 6 != 0#64
  | 7 => false
  | _ => grantSum s (fnsOf p) res + argAmount cmd > portShare s p res

/-- A named channel is granted to another tenant (R966). -/
def channelTaken (s : State) (fn : Nat) (cmd : List Word) : Bool :=
  allFns.any fun g => g != fn && (getFn s g).grant.chans &&& argMask cmd 6 != 0#64

/-- Causes of ADM_GRANT (Table 05-7, R159, R165, R232, R966). -/
def admGrantCauses (s : State) (k : SlotId) (cmd : List Word) : List Nat :=
  let fn := argTenant cmd
  let res := argResource cmd
  let g := (getFn s fn).grant
  let total := grantCount g res + argAmount cmd
  causesOf [(offPort k fn, 0x02),
    (res = 0 || res > 7 || (res = 7 && (argAmount cmd = 0 || argAmount cmd > tagLimitMax s (portOf k.fn))), 0x04),
    (!isTenant s fn, 0x05),
    ((res = 1 || res = 3) && total > 64, 0x07),
    (1 ≤ res && res ≤ 7 && shareShort s fn res cmd, 0x09),
    (res = 6 && channelTaken s fn cmd, 0x0B),
    (tenantResetting s fn, 0x0D),
    (res = 2 && !s.lpddr.inService, 0x10)]

/-- A tenant's grant after ADM_GRANT: an amount is added, a mask is ORed in, TAG_LIMIT is replaced (R966). -/
def grantAfter (g : Grant) (cmd : List Word) : Grant :=
  let res := argResource cmd
  if isMask res then setMask g res (grantMask g res ||| argMask cmd res)
  else if res = 7 then setCount g res (argAmount cmd)
  else setCount g res (grantCount g res + argAmount cmd)

/-- ADM_GRANT (0x0100). -/
def execAdmGrant (k : SlotId) (t : Stamp) (s : State) : Out :=
  .next (mbxRow (s.upTo t) k 0x0100 anyCmd admGrantCauses
    (fun s k cmd =>
      let g := grantAfter (getFn s (argTenant cmd)).grant cmd
      slotDone (modFn s (argTenant cmd) fun f => { f with grant := g }) k (grantWords g (argResource cmd))) noResume)

/-! ADM_REVOKE -/

/-- A tenant's grant after ADM_REVOKE (R214). -/
def revokeAfter (g : Grant) (cmd : List Word) : Grant :=
  let res := argResource cmd
  if isMask res then setMask g res (grantMask g res &&& ~~~argMask cmd res)
  else setCount g res (grantCount g res - argAmount cmd)

/-- What a context uses of a counted resource (R214). -/
def ctxUse (s : State) (res : Nat) (c : CtxId) : Nat :=
  match res with
  | 1 => 1
  | 2 => ((getCtx s c).map fun x => x.saveUnits.length).getD 0
  | 4 => segsHeld s fun y => y == c
  | _ => 0

/-- A tenant's use of a counted resource (R214). -/
def tenantUse (s : State) (res fn : Nat) : Nat :=
  match res with
  | 2 => lpddrUsed s fn
  | 3 => 0
  | _ => ((ctxsOf s fn).map (ctxUse s res)).sum

/-- Units of a tenant's memory objects. -/
def objectUnits (s : State) (fn : Nat) : Nat :=
  ((s.lpddr.objects.filter fun e => e.2.tenant == fn && !e.2.ownerLost).map fun e => e.2.units.length).sum

/-- Contexts that use a resource, in the order given, until what they use covers an excess (R214). -/
def takeVictims (use : CtxId → Nat) : List CtxId → Nat → List CtxId
  | [], _ => []
  | c :: cs, excess =>
    if excess = 0 then []
    else if use c = 0 then takeVictims use cs excess
    else c :: takeVictims use cs (excess - use c)

/-- A tenant's contexts in decreasing order of index. -/
def ctxsDown (s : State) (fn : Nat) : List CtxId :=
  ((List.range 64).reverse.map fun i => ({ tenant := fn, idx := i } : CtxId)).filter fun c => (getCtx s c).isSome

/-- The members that a revoke of a mask takes from a tenant. -/
def revokedMembers (s : State) (cmd : List Word) : BitVec 64 :=
  grantMask (getFn s (argTenant cmd)).grant (argResource cmd) &&& argMask cmd (argResource cmd)

/-- A context holds a revoked member: its PARTITION names it, or a packet of it that is active or waits names the channel (R214). -/
def holdsMember (s : State) (res : Nat) (m : BitVec 64) (c : CtxId) : Bool :=
  if res = 5 then (((getCtx s c).bind Ctx.partition).map fun p => m.getLsbD p).getD false
  else
    let ops := (s.xfer.active.map Prod.snd) ++ s.xfer.waiting ++ s.xfer.saved
    ops.any fun o => o.queue.ctx == c && m.getLsbD o.ch

/-- How far a tenant's use exceeds its grant after a revoke of a counted resource (R214). -/
def revokeExcess (s : State) (cmd : List Word) : Nat :=
  let res := argResource cmd
  tenantUse s res (argTenant cmd) - grantCount (revokeAfter (getFn s (argTenant cmd)).grant cmd) res

/-- The contexts that a revoke forfeits with FORCE (R214). -/
def revokeVictims (s : State) (cmd : List Word) : List CtxId :=
  let res := argResource cmd
  let all := ctxsDown s (argTenant cmd)
  if isMask res then all.filter (holdsMember s res (revokedMembers s cmd))
  else takeVictims (ctxUse s res) all (revokeExcess s cmd)

/-- The part that a revoke would take is held and the revoke may not go on (R214). -/
def revokeInUse (s : State) (cmd : List Word) : Bool :=
  let res := argResource cmd
  let fn := argTenant cmd
  let force := argF cmd 1 16 16 = 1
  let held := if isMask res then !(revokeVictims s cmd).isEmpty else revokeExcess s cmd > 0
  held && (!force || (res = 2 && objectUnits s fn > grantCount (revokeAfter (getFn s fn).grant cmd) 2))

/-- Causes of ADM_REVOKE (Table 05-7, R214). -/
def admRevokeCauses (s : State) (k : SlotId) (cmd : List Word) : List Nat :=
  let fn := argTenant cmd
  let res := argResource cmd
  causesOf [(offPort k fn, 0x02),
    (res = 0 || res ≥ 7 || (!isMask res && argAmount cmd > grantCount (getFn s fn).grant res), 0x04),
    (!isTenant s fn, 0x05),
    (revokeInUse s cmd, 0x0B),
    (tenantResetting s fn, 0x0D)]

/-- Each context that named a revoked partition names none (R214). -/
def clearPartitions (s : State) (victims : List CtxId) : State :=
  victims.foldl (fun s c => modCtx s c fun x => { x with partition := none }) s

/-- ADM_REVOKE removes from the grant; contexts that it forfeits are destroyed or reset before DONE (R214). -/
def runRevoke (s : State) (k : SlotId) (cmd : List Word) : State :=
  let fn := argTenant cmd
  let res := argResource cmd
  let victims := revokeVictims s cmd
  let g := revokeAfter (getFn s fn).grant cmd
  let words := grantWords g res
  let s := modFn s fn fun f => { f with grant := g }
  if victims.isEmpty then slotDone s k words
  else if isMask res then
    let s := if res = 5 then clearPartitions s victims else s
    startForfeit s (victims.map .revokeReset) [(k, (getSlot s k).seq, words)]
  else startForfeit s (victims.map .ctxDestroy) [(k, (getSlot s k).seq, words)]

/-- ADM_REVOKE (0x0101). -/
def execAdmRevoke (k : SlotId) (t : Stamp) (s : State) : Out :=
  .next (mbxRow (s.upTo t) k 0x0101 anyCmd admRevokeCauses runRevoke noResume)

/-! ADM_TENANT_RESET -/

/-- Causes of ADM_TENANT_RESET (Table 05-7). -/
def tenantResetCauses (s : State) (k : SlotId) (cmd : List Word) : List Nat :=
  causesOf [(offAuthority s k (argTenant cmd), 0x02), (!isTenant s (argTenant cmd), 0x05)]

/-- ADM_TENANT_RESET (0x0102): the forfeit of a tenant, which completes the command (R133, R135). -/
def execAdmTenantReset (k : SlotId) (t : Stamp) (s : State) : Out :=
  .next (mbxRow (s.upTo t) k 0x0102 anyCmd tenantResetCauses
    (fun s k cmd =>
      let fn := argTenant cmd
      startForfeit (modFn s fn fun f => { f with resetting := true }) [.tenantReset fn] [(k, (getSlot s k).seq, [])]) noResume)

/-! ADM_PART_CFG -/

/-- The boundary at which a setting committed at a stamp takes effect, in a window sequence of origin 0 (R65, R431).
DEDUCED, unsafe: log 10. -/
def boundaryAfter (c w : Nat) : Stamp := (c / w + 1) * w

/-- A partition with a setting committed at a stamp (R431, R437). -/
def configurePart (p : Partition) (cfg : PartCfg) (c : Stamp) : Partition :=
  if !cfg.en && !p.cfg.en && p.waiting.isEmpty then p
  else
    let new := if cfg.en then cfg else { p.cfg with en := false }
    let b := boundaryAfter c (if cfg.en then cfg.windowUs * 1000 else p.window)
    { p with waiting := (p.waiting.filter fun e => e.2 < b) ++ [(new, b)] }

/-- Causes of ADM_PART_CFG (R432). -/
def partCfgCauses (s : State) (k : SlotId) (cmd : List Word) : List Nat :=
  let w := argF cmd 1 26 16
  causesOf [(w = 0 || w > 1024 || argN cmd 2 = 0, 0x04),
    (isAdmin k.fn && !(portMask s (portOf k.fn) 5).getLsbD (argF cmd 1 3 0), 0x08)]

/-- ADM_PART_CFG (0x0103): the setting takes effect at a later window boundary (R431). -/
def execAdmPartCfg (k : SlotId) (t : Stamp) (s : State) : Out :=
  .next (mbxRow (s.upTo t) k 0x0103 anyCmd partCfgCauses
    (fun s k cmd =>
      let cfg : PartCfg := { en := argF cmd 1 4 4 = 1, windowUs := argF cmd 1 26 16, budget := argN cmd 2 }
      slotDone { s with fabric := modPart s.fabric (argF cmd 1 3 0) fun p => configurePart p cfg s.stamp } k []) noResume)

/-! ADM_SHARE -/

/-- The share ID that a command names. -/
def argShareId (cmd : List Word) : Nat := argF cmd 1 15 0

/-- The tenant of the issuing port that an export or import names. -/
def argParty (cmd : List Word) : Nat := argF cmd 2 6 0

/-- An ADM_SHARE is a row's: its operation is the row's, or the reserved 0. -/
def shareMine (op : Nat) (cmd : List Word) : Bool := argF cmd 1 17 16 == op || argF cmd 1 17 16 == 0

/-- RES0 of ADM_SHARE for a share's state (Table 05-7). DEDUCED, unsafe: log 10. -/
def shareCode : ShareState → Nat
  | .half => 0
  | .both => 1
  | .orphaned => 2

/-- The other port is absent or in port reset (R215). -/
def noPeer (s : State) (k : SlotId) : Bool :=
  let p := getPort s (otherPort (portOf k.fn))
  !p.present || p.inReset || p.perst

/-- Causes that export and import share (R215, Table 05-7); `clash` tells a share ID that the operation may not use. -/
def sideCauses (s : State) (k : SlotId) (cmd : List Word) (clash : Share → Bool) : List Nat :=
  causesOf [(offPort k (argParty cmd), 0x02), (argF cmd 1 17 16 = 0, 0x04), (!isTenant s (argParty cmd), 0x05),
    (((tblGet s.alloc.shares (argShareId cmd)).map clash).getD false || (tblGet s.alloc.revoking (argShareId cmd)).isSome, 0x06),
    (noPeer s k, 0x11)]

/-- The state with a share set. -/
def setShare (s : State) (id : Nat) (sh : Share) : State :=
  { s with alloc := { s.alloc with shares := tblSet s.alloc.shares id sh } }

/-- Causes of an export: the ID must be free, or half-granted by an import of the other port, and a non-zero handle must name an
object of the tenant (R215, R322). -/
def exportCauses (s : State) (k : SlotId) (cmd : List Word) : List Nat :=
  sideCauses s k cmd (fun sh => sh.st != .half || sh.exporter.isSome || (sh.importer.any fun g => portOf g == portOf k.fn)) ++
    causesOf [(argN cmd 3 ≠ 0 && (ownObject s (argParty cmd) (argN cmd 3)).isNone, 0x05)]

/-- ADM_SHARE_EXPORT (0x0104, operation 1): the exporter's side of a share (R215, R322). -/
def execAdmShareExport (k : SlotId) (t : Stamp) (s : State) : Out :=
  .next (mbxRow (s.upTo t) k 0x0104 (shareMine 1) exportCauses
    (fun s k cmd =>
      let old := tblGet s.alloc.shares (argShareId cmd)
      let sh : Share := { st := if old.isSome then .both else .half, exporter := some (argParty cmd)
                          importer := old.bind Share.importer, handle := argN cmd 3 }
      slotDone (setShare s (argShareId cmd) sh) k [resWord (shareCode sh.st)]) noResume)

/-- Causes of an import: the ID must be free, or half-granted by an export of the other port (R215). -/
def importCauses (s : State) (k : SlotId) (cmd : List Word) : List Nat :=
  sideCauses s k cmd fun sh => sh.st != .half || sh.importer.isSome || (sh.exporter.any fun g => portOf g == portOf k.fn)

/-- ADM_SHARE_IMPORT (0x0104, operation 2): the importer's side of a share (R215). -/
def execAdmShareImport (k : SlotId) (t : Stamp) (s : State) : Out :=
  .next (mbxRow (s.upTo t) k 0x0104 (shareMine 2) importCauses
    (fun s k cmd =>
      let old := tblGet s.alloc.shares (argShareId cmd)
      let sh : Share := { st := if old.isSome then .both else .half, exporter := old.bind Share.exporter
                          importer := some (argParty cmd), handle := (old.map Share.handle).getD 0 }
      slotDone (setShare s (argShareId cmd) sh) k [resWord (shareCode sh.st)]) noResume)

/-- A revoke completes once the importer's accesses that used a removed translation have completed (R308, R330); a Sepia entry that
waited for it goes on (R230). DESIGN CHOICE, safe: log 9. -/
def endShareRevoke (s : State) (k : SlotId) (cmd : List Word) : State :=
  match tblGet s.alloc.revoking (argShareId cmd) with
  | some sh =>
    if staleAccess s (fun c => some c.tenant = sh.importer) then s
    else
      let s : State := { s with alloc := { s.alloc with revoking := tblErase s.alloc.revoking (argShareId cmd) } }
      resumeSepia (finishHeld (reapObjects s) k)
  | none => resumeSepia (finishHeld s k)

/-- A revoke ends a share for both sides: it leaves the table, and the importer's mappings go (R215, R330, R350). -/
def startShareRevoke (s : State) (k : SlotId) (cmd : List Word) : State :=
  let id := argShareId cmd
  match tblGet s.alloc.shares id with
  | some sh =>
    let s := holdResult s k [resWord (shareCode sh.st)]
    let s : State := { s with alloc := { s.alloc with
        shares := tblErase s.alloc.shares id, revoking := tblSet s.alloc.revoking id sh } }
    endShareRevoke (recheckWaits (mapImporter s sh.importer fun x => removeLeaves x fun l => l.share == some id)) k cmd
  | none => s

/-- Causes of a revoke (R215). -/
def shareRevokeCauses (s : State) (_k : SlotId) (cmd : List Word) : List Nat :=
  causesOf [(argF cmd 1 17 16 = 0, 0x04), ((tblGet s.alloc.shares (argShareId cmd)).isNone, 0x05)]

/-- ADM_SHARE_REVOKE (0x0104, operation 3) (R215, R330). -/
def execAdmShareRevoke (k : SlotId) (t : Stamp) (s : State) : Out :=
  .next (mbxRow (s.upTo t) k 0x0104 (shareMine 3) shareRevokeCauses startShareRevoke endShareRevoke)

end Sys2Proof.Machine
end

