-- ==== Sys2Proof/Machine/MbxDevice.lean ====
section
/-!
DEFINITION. The device administrator's commands: port shares, the Governor's parameters, power policies, Vat conversion,
cluster modes, the streaming detectors, the warm device reset and Sepia entry (spec 05 Table 05-8, with spec 02, 03, 04, 08,
10 and 19).
-/

namespace Sys2Proof.Machine

/-! ADM_PORT_SHARE -/

/-- The resource that ADM_PORT_SHARE names. -/
def argShareRes (cmd : List Word) : Nat := argF cmd 1 7 0

/-- The shares after ADM_PORT_SHARE: Port A's amount or mask (Table 05-8). -/
def newShares (x : PortShares) (cmd : List Word) : PortShares :=
  match argShareRes cmd with
  | 1 => { x with contexts := argN cmd 2 }
  | 3 => { x with quota := argN cmd 2 }
  | 4 => { x with segs := argN cmd 2 }
  | 5 => { x with parts := BitVec.ofNat 16 (argF cmd 2 15 0) }
  | _ => { x with chans := BitVec.ofNat 64 (argWide cmd 2) }

/-- The state with new shares. -/
def withShares (s : State) (x : PortShares) : State := { s with alloc := { s.alloc with portA := x } }

/-- A port-share argument is out of range: no share exists for the resource, or the amount exceeds the device total (Tables
04-9, 05-11). -/
def portShareBad (cmd : List Word) : Bool :=
  match argShareRes cmd with
  | 1 => argN cmd 2 > 2048
  | 3 => argN cmd 2 > 64
  | 4 => argN cmd 2 > 64
  | 5 => false
  | 6 => false
  | _ => true

/-- A new share takes granted resources from a port (R160): a granted member, or a count below what the grants and the old
share both cover. -/
def shareTakes (s s' : State) (res : Nat) (p : PortId) : Bool :=
  if isMask res then
    let lost := portMask s p res &&& ~~~portMask s' p res
    (fnsOf p).any fun fn => grantMask (getFn s fn).grant res &&& lost != 0#64
  else portShare s' p res < min (grantSum s (fnsOf p) res) (portShare s p res)

/-- Causes of ADM_PORT_SHARE. -/
def portShareCauses (s : State) (_k : SlotId) (cmd : List Word) : List Nat :=
  let s' := withShares s (newShares s.alloc.portA cmd)
  let res := argShareRes cmd
  causesOf [(portShareBad cmd, 0x04),
    (!portShareBad cmd && (shareTakes s s' res .a || shareTakes s s' res .b), 0x0A)]

/-- Port A's share as two result words (Table 05-8). -/
def shareWords (x : PortShares) (res : Nat) : List Word :=
  match res with
  | 1 => [resWord x.contexts]
  | 3 => [resWord x.quota]
  | 4 => [resWord x.segs]
  | 5 => [resWord x.parts.toNat]
  | _ => [resWord (x.chans.toNat % 2 ^ 32), resWord (x.chans.toNat / 2 ^ 32)]

/-- ADM_PORT_SHARE (0x0200). -/
def execAdmPortShare (k : SlotId) (t : Stamp) (s : State) : Out :=
  .next (mbxRow (s.upTo t) k 0x0200 anyCmd portShareCauses
    (fun s k cmd =>
      let x := newShares s.alloc.portA cmd
      slotDone (withShares s x) k (shareWords x (argShareRes cmd))) noResume)

/-! GOV_SET and GOV_GET -/

/-- A Governor parameter by its ID, the row of Table 02-5 (R216). -/
def govGet (p : GovParams) : Nat → Word
  | 0 => resWord p.mode
  | 1 => p.vFixed
  | 2 => p.vLo
  | 3 => p.vHi
  | 4 => p.dvMax
  | 5 => p.tpTarget
  | 6 => p.powerCap
  | 7 => p.kpTp
  | 8 => p.kiTp
  | 9 => p.kpPc
  | 10 => p.kiPc
  | 11 => resWord p.pmicEn
  | 12 => resWord p.pmicSid
  | 13 => resWord p.pmicAddr
  | 14 => resWord p.pmicBytes
  | 15 => p.voutOffset
  | 16 => resWord p.voutStep
  | _ => resWord p.codeMax

/-- The parameters with one set by its ID. -/
def govPut (p : GovParams) (id : Nat) (v : Word) : GovParams :=
  match id with
  | 0 => { p with mode := v.toNat }
  | 1 => { p with vFixed := v }
  | 2 => { p with vLo := v }
  | 3 => { p with vHi := v }
  | 4 => { p with dvMax := v }
  | 5 => { p with tpTarget := v }
  | 6 => { p with powerCap := v }
  | 7 => { p with kpTp := v }
  | 8 => { p with kiTp := v }
  | 9 => { p with kpPc := v }
  | 10 => { p with kiPc := v }
  | 11 => { p with pmicEn := v.toNat }
  | 12 => { p with pmicSid := v.toNat }
  | 13 => { p with pmicAddr := v.toNat }
  | 14 => { p with pmicBytes := v.toNat }
  | 15 => { p with voutOffset := v }
  | 16 => { p with voutStep := v.toNat }
  | _ => { p with codeMax := v.toNat }

/-- A Q16.16 parameter lies in a range of whole units. -/
def qIn (v : Word) (lo hi : Int) : Bool := lo * 65536 ≤ v.toInt && v.toInt ≤ hi * 65536

/-- A count lies in a range. -/
def natIn (v lo hi : Nat) : Bool := lo ≤ v && v ≤ hi

/-- The code of a voltage fits CODE_MAX without the clamp of R76 (Table 02-5). -/
def codeFits (p : GovParams) : Bool :=
  pmicCode { p with codeMax := p.codeMax + 1 } p.vHi.toInt ≤ p.codeMax

/-- Every parameter is in its range and the constraints hold (Table 02-5). -/
def govValid (p : GovParams) : Bool :=
  natIn p.mode 0 2 && qIn p.vFixed 550 900 && qIn p.vLo 550 900 && qIn p.vHi 550 900 &&
    p.vLo.toInt ≤ p.vFixed.toInt && p.vFixed.toInt ≤ p.vHi.toInt && p.vLo.toInt ≤ p.vHi.toInt &&
    qIn p.dvMax 1 50 && qIn p.tpTarget 500 15000 && qIn p.powerCap 1 40 && qIn p.kpTp 0 1 && qIn p.kiTp 0 1 &&
    qIn p.kpPc 0 64 && qIn p.kiPc 0 64 && natIn p.pmicEn 0 1 && natIn p.pmicSid 0 15 &&
    natIn p.pmicAddr 0 (if p.pmicBytes = 2 then 0xFE else 0xFF) && natIn p.pmicBytes 1 2 && qIn p.voutOffset 0 550 &&
    natIn p.voutStep 500 20000 && natIn p.codeMax 1 (if p.pmicBytes = 2 then 65535 else 255) && codeFits p

/-- The count of pairs of GOV_SET. -/
def govPairCount (cmd : List Word) : Nat := argF cmd 1 1 0

/-- The pairs of a GOV_SET, in order (Table 05-8). -/
def govPairs (cmd : List Word) : List (Nat × Word) :=
  (List.range (govPairCount cmd)).map fun i => (argN cmd (2 + 2 * i), cmd.getD (3 + 2 * i) 0#32)

/-- The parameters with every pair of a GOV_SET applied. DEDUCED, unsafe: log 10. -/
def govApply (p : GovParams) (cmd : List Word) : GovParams := (govPairs cmd).foldl (fun p e => govPut p e.1 e.2) p

/-- Causes of GOV_SET: the count, an ID above 17, or a range or constraint that the resulting set breaks (R81, R216). -/
def govSetCauses (s : State) (_k : SlotId) (cmd : List Word) : List Nat :=
  causesOf [(govPairCount cmd = 0 || (govPairs cmd).any (fun e => e.1 > 17) || !govValid (govApply s.gov.committed cmd), 0x04)]

/-- GOV_SET (0x0201) commits every pair or none, with the stamp of DONE (R82, R216). -/
def execGovSet (k : SlotId) (t : Stamp) (s : State) : Out :=
  .next (mbxRow (s.upTo t) k 0x0201 anyCmd govSetCauses
    (fun s k cmd =>
      let p := govApply s.gov.committed cmd
      slotDone { s with gov := { s.gov with
        committed := p, got := govApply s.gov.got cmd, commits := s.gov.commits ++ [(s.stamp, p)] } } k []) noResume)

/-- GOV_GET (0x0202) returns what the last GOV_SET committed, or the reset value (R216). -/
def execGovGet (k : SlotId) (t : Stamp) (s : State) : Out :=
  .next (mbxRow (s.upTo t) k 0x0202 anyCmd (fun _ _ cmd => causesOf [(argN cmd 1 > 17, 0x04)])
    (fun s k cmd => slotDone s k [govGet s.gov.got (argN cmd 1)]) noResume)

/-! PWR_POLICY and PWR_IDLE_OFF -/

/-- The domain of a PWR_POLICY. -/
def argDomain (cmd : List Word) : Nat := argF cmd 1 6 0

/-- The policy of a code. -/
def policyOf : Nat → Policy
  | 1 => .forceOn
  | 2 => .forceOff
  | _ => .auto

/-- The code of a policy. -/
def policyCode : Policy → Nat
  | .auto => 0
  | .forceOn => 1
  | .forceOff => 2

/-- A FORCE_OFF of a domain is refused (Table 03-5). DEDUCED, unsafe: log 10. -/
def forceOffRefused (s : State) (d : Nat) : Bool :=
  if d < 24 then
    domOn s d && ((rangeFrom (d / 4 * 4) 4).all fun x => x == d || !domOn s x) && (s.cores.clusters.getD (d / 4) {}).excl.isSome
  else if 48 ≤ d && d < 64 then d == 48 || s.vat.convMask != 0#16 || s.vat.converting.isSome
  else false

/-- The core whose work a FORCE_OFF of a core or of its Madder drains (R114, Table 03-5). -/
def drainedCore (d : Nat) : Option Nat := if d < 24 then some d else if d < 48 then some (d - 24) else none

/-- FORCE_OFF drains a domain: work on a core is pre-empted, transfer channels stop (R114, R736, R763). -/
def startDrain (s : State) (d : Nat) : State :=
  match drainedCore d with
  | some c => forceStop (if d < 24 then policyFirst s c else s) fun w => w.core == c
  | none =>
    if d = 71 then
      let stop : Nat × XferOp → Nat × XferOp := fun e => (e.1, { e.2 with stopping := true })
      { s with xfer := { s.xfer with active := s.xfer.active.map stop } }
    else s

/-- Work waits for a domain that AUTO would have on: a Vat bank group always, a Madder with operations to take, a graphics
packet, and a transfer packet (Table 03-5). A core or a tile backend wakes when work is placed there. -/
def workWaits (s : State) (d : Nat) : Bool :=
  if 48 ≤ d && d < 64 then true
  else if 24 ≤ d && d < 48 then s.madders.ops.any fun e => e.2.core == d - 24 && !e.2.handed
  else if d = 64 then domainBusy s 64
  else if d = 71 then !s.xfer.waiting.isEmpty
  else false

/-- What a policy sets in motion once it is recorded (R109, R113, R114, Table 03-5).
DEDUCED, unsafe: log 10. DEDUCED, unsafe: log 20. -/
def applyPolicy (s : State) (d : Nat) : Policy → State
  | .forceOn => let s := requestWake s d; if 24 ≤ d && d < 48 then requestWake s (d - 24) else s
  | .forceOff => startDrain s d
  | .auto => if workWaits s d then requestWake s d else s

/-- PWR_POLICY (0x0203) records a policy; draining follows DONE (R217). -/
def execPwrPolicy (k : SlotId) (t : Stamp) (s : State) : Out :=
  .next (mbxRow (s.upTo t) k 0x0203 anyCmd
    (fun s _ cmd =>
      let d := argDomain cmd
      let pol := argF cmd 1 9 8
      causesOf [(d > 71 || pol = 3, 0x04), (pol = 2 && forceOffRefused s d, 0x0F)])
    (fun s k cmd =>
      let d := argDomain cmd
      let pol := policyOf (argF cmd 1 9 8)
      let old := policyCode (getDom s d).policy
      slotDone (applyPolicy (modDom s d fun x => { x with policy := pol }) d pol) k [resWord old]) noResume)

/-- PWR_IDLE_OFF (0x0204): IDLE_OFF of a domain class (R115). -/
def execPwrIdleOff (k : SlotId) (t : Stamp) (s : State) : Out :=
  .next (mbxRow (s.upTo t) k 0x0204 anyCmd
    (fun _ _ cmd => causesOf [(argF cmd 1 2 0 > 5 || !(argN cmd 2 = 0 || natIn (argN cmd 2) 10 100000), 0x04)])
    (fun s k cmd =>
      let n := argF cmd 1 2 0
      let old := s.power.idleOff.getD n 0
      slotDone { s with power := { s.power with idleOff := s.power.idleOff.set n (argN cmd 2) } } k [resWord old]) noResume)

/-! VAT_CONVERT -/

/-- The way mask of a VAT_CONVERT. -/
def argWays (cmd : List Word) : BitVec 16 := BitVec.ofNat 16 (argF cmd 1 15 0)

/-- A VAT_CONVERT is a row's: its direction is the row's. -/
def convertMine (dir : Nat) (cmd : List Word) : Bool := argF cmd 1 16 16 == dir

/-- Ways of a mask. -/
def wayCount (m : BitVec 16) : Nat := ((List.range 16).filter m.getLsbD).length

/-- Causes of a conversion to scratchpad (R218, R383). -/
def toScratchCauses (s : State) (_k : SlotId) (cmd : List Word) : List Nat :=
  causesOf [(wayCount (s.vat.convMask ||| argWays cmd) > 14, 0x0E),
    ((rangeFrom 48 16).any fun d => (getDom s d).policy == .forceOff, 0x0F)]

/-- Conversion to scratchpad: allocation into the named ways stops, and every line of them is cleaned and leaves (Table 08-3
steps 2 and 3). -/
def startToScratch (s : State) (_k : SlotId) (cmd : List Word) : State :=
  let m := argWays cmd &&& ~~~s.vat.convMask
  let s : State := { s with vat := { s.vat with converting := some m } }
  (s.vat.lines.filter fun ln => m.getLsbD ln.way).foldl (fun s ln => evictLine s ln 0) s

/-- The ways are converted: 24 free segments for each, which read as zero (Table 08-3 steps 4 and 5, R385).
DESIGN CHOICE, safe: log 9. -/
def endToScratch (s : State) (k : SlotId) (_cmd : List Word) : State :=
  match s.vat.converting with
  | none => s
  | some m =>
    let new : List (Nat × Segment) := ((List.range 384).filter fun n => m.getLsbD (n / 24)).map fun n => (n, {})
    let conv := s.vat.convMask ||| m
    slotDone { s with vat := { s.vat with converting := none, convMask := conv, segs := s.vat.segs ++ new } } k [resWord conv.toNat]

/-- VAT_CONVERT_TO_SCRATCHPAD (0x0205, direction 1). -/
def execVatConvertToScratchpad (k : SlotId) (t : Stamp) (s : State) : Out :=
  .next (mbxRow (s.upTo t) k 0x0205 (convertMine 1) toScratchCauses startToScratch endToScratch)

/-- Causes of a conversion to cache: a segment of the named ways is held (R218). -/
def toCacheCauses (s : State) (_k : SlotId) (cmd : List Word) : List Nat :=
  causesOf [(s.vat.segs.any fun e => (argWays cmd).getLsbD (e.1 / 24) && e.2.holder.isSome, 0x0B)]

/-- Conversion to cache: the named ways return with every line invalid and their segments go (R384). -/
def runToCache (s : State) (k : SlotId) (cmd : List Word) : State :=
  let conv := s.vat.convMask &&& ~~~argWays cmd
  let segs := s.vat.segs.filter fun e => !(argWays cmd).getLsbD (e.1 / 24)
  slotDone { s with vat := { s.vat with convMask := conv, segs := segs } } k [resWord conv.toNat]

/-- VAT_CONVERT_TO_CACHE (0x0205, direction 0). -/
def execVatConvertToCache (k : SlotId) (t : Stamp) (s : State) : Out :=
  .next (mbxRow (s.upTo t) k 0x0205 (convertMine 0) toCacheCauses runToCache noResume)

/-! CLUSTER_MODE -/

/-- A CLUSTER_MODE is a row's: its mode bit is the row's. DEDUCED, unsafe: log 10. -/
def clusterMine (excl : Nat) (cmd : List Word) : Bool := argF cmd 1 8 8 == excl

/-- The cluster is named by the mask of CLUSTER_MODE. -/
def namesCluster (cmd : List Word) (c : Nat) : Bool := bitNat (argF cmd 1 5 0) c

/-- The context that CLUSTER_MODE names. -/
def holderOf (cmd : List Word) : CtxId := { tenant := argF cmd 2 6 0, idx := argF cmd 2 13 8 }

/-- The named clusters with a holder of exclusive mode, or none for shared mode. -/
def setClusters (s : State) (cmd : List Word) (h : Option CtxId) : State :=
  let put : Cluster × Nat → Cluster := fun e => if namesCluster cmd e.2 then { e.1 with excl := h } else e.1
  { s with cores := { s.cores with clusters := s.cores.clusters.zipIdx.map put } }

/-- A thread group of another context remains on a cluster that is in the exclusive mode of the named context (R486).
DESIGN CHOICE, safe: log 9. DEDUCED, unsafe: log 10. -/
def othersRemain (s : State) (cmd : List Word) : Bool :=
  s.cores.groups.any fun e => namesCluster cmd (e.2.core / 4) && e.2.ctx != holderOf cmd &&
    (s.cores.clusters.getD (e.2.core / 4) {}).excl == some (holderOf cmd)

/-- CLUSTER_MODE to exclusive completes when no group of another context remains (R486). -/
def endExclusive (s : State) (k : SlotId) (cmd : List Word) : State := if othersRemain s cmd then s else slotDone s k []

/-- CLUSTER_MODE to exclusive pre-empts other contexts' groups at FINE (R486, R763). -/
def startExclusive (s : State) (k : SlotId) (cmd : List Word) : State :=
  let h := holderOf cmd
  let s := setClusters s cmd (some h)
  endExclusive (forceStop s fun w => namesCluster cmd (w.core / 4) && w.queue.ctx != h) k cmd

/-- CLUSTER_MODE_EXCLUSIVE (0x0206, exclusive). -/
def execClusterModeExclusive (k : SlotId) (t : Stamp) (s : State) : Out :=
  .next (mbxRow (s.upTo t) k 0x0206 (clusterMine 1)
    (fun s _ cmd => causesOf [((getCtx s (holderOf cmd)).isNone, 0x05)]) startExclusive endExclusive)

/-- CLUSTER_MODE_SHARED (0x0206, shared) (R485, R487). -/
def execClusterModeShared (k : SlotId) (t : Stamp) (s : State) : Out :=
  .next (mbxRow (s.upTo t) k 0x0206 (clusterMine 0) noCauses (fun s k cmd => slotDone (setClusters s cmd none) k []) noResume)

/-! STREAM_CFG, WARM_RESET, SEPIA_ENTER -/

/-- STREAM_CFG (0x0207): the streaming detectors' enable and threshold (R374, R218). -/
def execStreamCfg (k : SlotId) (t : Stamp) (s : State) : Out :=
  .next (mbxRow (s.upTo t) k 0x0207 anyCmd (fun _ _ cmd => causesOf [(argF cmd 1 15 8 < 8, 0x04)])
    (fun s k cmd =>
      let old := (if s.vat.streamEn then 1 else 0) + s.vat.streamThresh * 2 ^ 8
      slotDone { s with vat := { s.vat with streamEn := argF cmd 1 0 0 = 1, streamThresh := argF cmd 1 15 8 } } k [resWord old])
    noResume)

/-- WARM_RESET (0x0208): a warm device reset; its completion completes the command (R120, R133). -/
def execWarmReset (k : SlotId) (t : Stamp) (s : State) : Out :=
  .next (mbxRow (s.upTo t) k 0x0208 anyCmd noCauses (fun s k _ => startWarm s (.admin k)) noResume)

/-- SEPIA_ENTER (0x0209): Sepia entry by command; its completion completes the command (R230, R849). -/
def execSepiaEnter (k : SlotId) (t : Stamp) (s : State) : Out :=
  .next (mbxRow (s.upTo t) k 0x0209 anyCmd noCauses (fun s k _ => decideSepia s 0x000C (some k)) noResume)

end Sys2Proof.Machine
end

