-- ==== Sys2Proof/Machine/MbxGo.lean ====
section
/-!
DEFINITION. The mailbox register GO (spec 05).
-/

namespace Sys2Proof.Machine

/-- The causes of a command of an administration function that claims a target (Table 05-7). -/
def claimCauses (s : State) (k : SlotId) (cmd : List Word) : List Nat :=
  match cmdCode cmd with
  | 0x0100 => admGrantCauses s k cmd
  | 0x0101 => admRevokeCauses s k cmd
  | 0x0102 => tenantResetCauses s k cmd
  | 0x0104 => match argF cmd 1 17 16 with
    | 1 => exportCauses s k cmd
    | 2 => importCauses s k cmd
    | _ => shareRevokeCauses s k cmd
  | _ => []

/-- The cause with which a command that has not started is refused by R207: ADMIN_CONFLICT, or the lowest other cause that applies
where that is lower (R221). -/
def conflictCause (s : State) (k : SlotId) (cmd : List Word) : Nat :=
  (leastNat (commonCauses s k cmd ++ claimCauses s k cmd ++ [0x0C])).getD 0x0C

/-- At an accepted GO of the device administrator, commands of the other administration function that have not started and claim
an overlapping target are refused (R207). DEDUCED, unsafe: log 8. -/
def refuseOverlapping (s : State) (k : SlotId) : State :=
  let cmd := (getSlot s k).cmd
  if k.fn ≠ devAdmin s then s
  else
    let hit := (busySlots s).filter fun e => isAdmin e.1.fn && e.1.fn != k.fn && !e.2.started && claimsMeet e.2.cmd cmd
    hit.foldl (fun s e => slotRefuse s e.1 (conflictCause s e.1 e.2.cmd)) s

/-- MBX_GO: accepted or refused when it reaches the port's NI; dropped where the function does not answer (R193 to R196, R222,
R228). -/
def execMbxGo (k : SlotId) (value : Word) (t : Stamp) (s : State) : Out :=
  let s := s.upTo t
  if !barAnswers s k.fn || k.slot ≥ slotCount k.fn then .next s
  else match leastNat (goCauses s k (getSlot s k) value) with
    | some c => .next (refuseGo s k value c)
    | none =>
      let s := mordantInput (acceptGo s k value) 0
      .next (if mordantServes s then refuseOverlapping s k else s)

end Sys2Proof.Machine
end

