-- ==== Sys2Proof/Machine/CfgSpace.lean ====
section
/-!
DEFINITION. The fields of a function's configuration space to which the spec gives a value (spec 04, Tables 04-1, 04-3, 04-7 and
04-10, R38, R139, R142, R172, R180, R185).
-/

namespace Sys2Proof.Machine

/-- PF1 of a port, which holds the SR-IOV capability (R141). -/
def isPf1 (fn : Nat) : Bool := isPf fn && !isAdmin fn

/-- A function has a feature (Table 04-1); those of R38 and R139 it has not. -/
def hasFeature (fn : Nat) : PciFeature → Bool
  | .extendedTag => true
  | .tenBitRequester => true
  | .tenBitCompleter => true
  | .ari => true
  | .msix => true
  | .aer => true
  | .ecrcGeneration => true
  | .ecrcCheck => true
  | .atomicRequester => true
  | .aspmL1 => true
  | .sriov => isPf1 fn
  | .powerManagement => isPf fn
  | .aspmL0s => false
  | .l1Substates => false
  | .d3cold => false
  | .pme => false
  | .timeoutDisable => false
  | .atomicCompleter => false
  | .resizableBar => false
  | .readiness => false
  | .ats => false
  | .pri => false
  | .pasid => false
  | .tph => false
  | .hotPlug => false
  | .intx => false

/-- The size of a BAR (Table 04-3), 0 where the function has none of that number. -/
def barSize (fn bar : Nat) : Nat :=
  if bar = 0 then 2 ^ 16 else if bar = 2 then 2 ^ 32 else if bar = 4 && isAdmin fn then 2 ^ 16 else 0

/-- A base address that a BAR of a size holds: aligned to it. -/
def barAligned (size v : Nat) : Nat := if size = 0 then 0 else v / size * size % (if size = 2 ^ 32 then 2 ^ 64 else 2 ^ 32)

/-- The size of a BAR of the function itself; a VF's are those of PF1's SR-IOV capability (R146). -/
def ownBar (fn bar : Nat) : Nat := if isPf fn then barSize fn bar else 0

/-- The size of a VF BAR in PF1's SR-IOV capability (R146). -/
def vfBar (fn bar : Nat) : Nat := if isPf1 fn then barSize fn bar else 0

/-- The function has a request on the link (Transactions Pending, R185). -/
def transactionsPending (s : State) (fn : Nat) : Bool :=
  s.traffic.accesses.any fun e => match e.2.home, e.2.stage with
    | .host _ f _, .onLink .. => f == fn
    | _, _ => false

/-- A field of PF1's SR-IOV capability. -/
def ofSriov (fn v : Nat) : Nat := if isPf1 fn then v else 0

/-- What a field of configuration space reads as: the number it stands for, a Boolean as 0 or 1. DESIGN CHOICE, safe: log 42. -/
def cfgValue (s : State) (fn : Nat) : CfgField → Nat
  | .feature x => natOfBool (hasFeature fn x)
  | .intxPin => 0
  | .memEnable => natOfBool (getFn s fn).memEnable
  | .busMaster => natOfBool (getFn s fn).busMaster
  | .barSize b => ownBar fn b
  | .barIs64 b => natOfBool (ownBar fn b == 2 ^ 32)
  | .barPrefetchable b => natOfBool (ownBar fn b == 2 ^ 32)
  | .barBase b => tblGetD (getFn s fn).bars b 0
  | .vfBarSize b => vfBar fn b
  | .vfBarIs64 b => natOfBool (vfBar fn b == 2 ^ 32)
  | .vfBarPrefetchable b => natOfBool (vfBar fn b == 2 ^ 32)
  | .vfBarBase b => ofSriov fn (tblGetD (getPort s (portOf fn)).vfBars b 0)
  | .maxLinkSpeed => if portOf fn == .a then 5 else 4
  | .maxLinkWidth => if portOf fn == .a then 8 else 4
  | .linkSpeed => (getPort s (portOf fn)).speed
  | .linkWidth => (getPort s (portOf fn)).width
  | .maxPayloadSupported => 512
  | .maxPayload => (getFn s fn).mps
  | .maxReadRequest => (getFn s fn).mrrs
  | .tenBitTags => if isAdmin fn then natOfBool (getPort s (portOf fn)).tenBit else 0
  | .timeoutRanges => 0b1111
  | .timeoutValue => (getFn s fn).cto
  | .atomicEnable => natOfBool (getFn s fn).atomicEn
  | .transactionsPending => natOfBool (transactionsPending s fn)
  | .powerState => if (getFn s fn).d3hot then 3 else 0
  | .noSoftReset => natOfBool (isPf fn)
  | .ariHierarchy => ofSriov fn (natOfBool (getPort s (portOf fn)).ari)
  | .totalVfs => ofSriov fn (totalVfs (portOf fn))
  | .initialVfs => ofSriov fn (totalVfs (portOf fn))
  | .numVfs => ofSriov fn (getPort s (portOf fn)).numVfs
  | .firstVfOffset => ofSriov fn 1
  | .vfStride => ofSriov fn 1
  | .vfEnable => ofSriov fn (natOfBool (getPort s (portOf fn)).vfEnable)
  | .msixTableSize => vectorCount fn
  | .msixTableBir => 0
  | .msixTableOffset => 0x8000
  | .msixPbaBir => 0
  | .msixPbaOffset => 0xC000
  | .msixEnable => natOfBool (getFn s fn).msixEnable
  | .functionMask => natOfBool (getFn s fn).msixFnMask
  | .aerMasked k => natOfBool ((getFn s fn).aer.masked.contains k)
  | .aerFatal k => natOfBool ((getFn s fn).aer.fatal.contains k)
  | .aerStatus k => natOfBool ((getFn s fn).aer.status.contains k)
  | .correctableReporting => natOfBool (getFn s fn).aer.correctableOn
  | .nonFatalReporting => natOfBool (getFn s fn).aer.nonFatalOn
  | .fatalReporting => natOfBool (getFn s fn).aer.fatalOn
  | .other => Config.freeNat s.free

/-- The data of a configuration read: the field's value in 8 bytes, the low one first. DESIGN CHOICE, safe: log 42. -/
def cfgData (s : State) (fn : Nat) (x : CfgField) : List Byte := leBytes 8 (cfgValue s fn x)

/-- The AER settings of a function changed. -/
def modAer (s : State) (fn : Nat) (g : Aer → Aer) : State := modFn s fn fun f => { f with aer := g f.aer }

/-- A member of a list, or not. -/
def setMember (l : List AerKind) (k : AerKind) (on : Bool) : List AerKind := if on then insertOnce l k else removeAll l k

end Sys2Proof.Machine
end

