-- ==== Sys2Proof/Machine/Ports.lean ====
section
/-!
DEFINITION. The host ports (spec 04): links, port resets, configuration requests, virtual functions, FLR, power states,
MSI-X, the BAR2 aperture, tags and completions.
-/

namespace Sys2Proof.Machine

/-! Port resets and links -/

/-- BAR2 reads that a port has not completed go with its link. -/
def dropBar2 (s : State) (p : PortId) : State :=
  let s := stopAccesses s fun a => a.kind == .read && a.ni == portNi p && match a.client with
    | .bar2 _ => true
    | _ => false
  { s with traffic := { s.traffic with hostReqs := s.traffic.hostReqs.filter fun e => portOf e.2.fn ≠ p } }

/-- The device is past step 2 of Table 03-8 and its PHYs run. -/
def phyRuns (s : State) : Bool :=
  match s.life.phase with
  | .awaitLock => true
  | .awaitTraining => true
  | .opened => true
  | _ => false

/-- A port reset starts (Table 04-13 steps 2 and 3, R173 to R178, R181, R184): tags quarantined, pending messages dropped,
every tenant of the port forfeited, from step 2 of the power-on sequence on (Table 21-5). One in progress takes it in (R136). -/
def startPortReset (s : State) (p : PortId) (cause : Nat) : State :=
  let down := fun (x : Port) => { x with linkUp := false, speed := 0, width := 0 }
  if !phyRuns s || (getPort s p).inReset then modPort s p down
  else
    let s := modPort s p fun x =>
      { down x with inReset := true, downCount := satAdd 8 x.downCount 1, downStamp := s.stamp }
    let s : State := { s with traffic := { s.traffic with quarantined := s.traffic.quarantined.filter fun q => q.port ≠ p } }
    let s := dropBar2 (poisonWaiting (quarantineAll s fun q _ => q == p) p) p
    let s := (fnsOf p).foldl (fun s fn => modFn s fn fun f => { f with pba := [], awaits := [] }) s
    let s := pushRecord s (portRec s 0x0101 0 [.o] p)
    let s := startForfeit s [.portReset p cause (portRec s 0x0100 5 [.p] p)] []
    recheckWaits s

/-- The pins with a PERSTx_N level. -/
def setPerstPin (s : State) (p : PortId) (high : Bool) : State :=
  { s with life := { s.life with pins := match p with
      | .a => { s.life.pins with perstA := high }
      | .b => { s.life.pins with perstB := high } } }

/-- PERST_ASSERT: the filter accepts an assertion of PERSTx_N (R183, R885). -/
def execPerstAssert (p : PortId) (t : Stamp) (s : State) : Out :=
  let s := setPerstPin (s.upTo t) p false
  .next (if (getPort s p).present && !(getPort s p).perst then
      modPort (startPortReset s p 1) p fun x => { x with perst := true }
    else s)

/-- PERST_DEASSERT: PERSTx_N rises and the link may train (R183). -/
def execPerstDeassert (p : PortId) (t : Stamp) (s : State) : Out :=
  let s := setPerstPin (s.upTo t) p true
  .next (modPort s p fun x => { x with perst := false })

/-- DL_DOWN: DL_Down, a hot reset or Link Disable resets the port (R184). -/
def execDlDown (p : PortId) (t : Stamp) (s : State) : Out :=
  let s := s.upTo t
  .next (if (getPort s p).linkUp then startPortReset s p 2 else s)

/-- A link rate and width that a port has (Table 04-1). -/
def linkOk (p : PortId) (speed width : Nat) : Bool :=
  1 ≤ speed && (speed ≤ 4 || (speed == 5 && p == .a)) &&
    (width == 1 || width == 2 || width == 4 || (width == 8 && p == .a))

/-- LINK_UP: the link reaches L0 (R131). -/
def execLinkUp (p : PortId) (speed width : Nat) (t : Stamp) (s : State) : Out :=
  let s := s.upTo t
  .next (if phyRuns s && (getPort s p).present && !(getPort s p).perst && linkOk p speed width then
      modPort s p fun x => { x with linkUp := true, speed := speed, width := width }
    else s)

/-- LINK_RETRAIN: a retrain without DL_Down is no reset (R177). -/
def execLinkRetrain (p : PortId) (speed width : Nat) (t : Stamp) (s : State) : Out :=
  let s := s.upTo t
  .next (if (getPort s p).linkUp && linkOk p speed width then modPort s p fun x => { x with speed := speed, width := width } else s)

/-! Configuration space -/

/-- What a configuration request gets (R131, R184 to R186): CRS before readiness, Unsupported Request for a function that
is not there, else normal completion. -/
def cfgStatus (s : State) (fn : Nat) : CplStatus :=
  let f := getFn s fn
  if !isOpen s || (getPort s (portOf fn)).inReset then .crs
  else if !isPf fn && !(getPort s (portOf fn)).vfEnable then .unsupported
  else match f.phase with
    | .absent => .unsupported
    | .enabling => .crs
    | .ready => if f.flr || vfClearing s fn then .crs else .success

/-- The effect of a configuration write on the device (R142, R146, R156, R164 to R171, R180). DESIGN CHOICE, safe: log 42. -/
def cfgWrite (s : State) (fn : Nat) : CfgReq → State
  | .read _ => s
  | .other => s
  | .barBase b v => modFn s fn fun f =>
    { f with bars := if ownBar fn b = 0 then f.bars else tblSet f.bars b (barAligned (ownBar fn b) v) }
  | .vfBarBase b v => modPort s (portOf fn) fun x =>
    { x with vfBars := if vfBar fn b = 0 then x.vfBars else tblSet x.vfBars b (barAligned (vfBar fn b) v) }
  | .aerMask k on => modAer s fn fun a => { a with masked := setMember a.masked k on }
  | .aerSeverity k on => modAer s fn fun a => { a with fatal := setMember a.fatal k on }
  | .aerClear k => modAer s fn fun a => { a with status := setMember a.status k false }
  | .reporting c n x => modAer s fn fun a => { a with correctableOn := c, nonFatalOn := n, fatalOn := x }
  | .memEnable on => modFn s fn fun f => { f with memEnable := on }
  | .busMasterClear => modFn s fn fun f => { f with busMaster := false }
  | .msixEnable on => sendPending (modFn s fn fun f => { f with msixEnable := on }) fn
  | .functionMask on => sendPending (modFn s fn fun f => { f with msixFnMask := on }) fn
  | .ctoValue v => modFn s fn fun f => { f with cto := v % 16 }
  | .maxReadRequest b => modFn s fn fun f => { f with mrrs := b }
  | .maxPayload b => modFn s fn fun f => { f with mps := min b 512 }
  | .atomicEnable on => modFn s fn fun f => { f with atomicEn := on }
  | .tenBitTags on => if isAdmin fn then modPort s (portOf fn) fun x => { x with tenBit := on } else s
  | .ariHierarchy on => if isPf fn && !isAdmin fn then modPort s (portOf fn) fun x => { x with ari := on } else s

/-- The data that a configuration request returns: those of a read (R142). -/
def cfgAnswer (s : State) (fn : Nat) : CfgReq → List Byte
  | .read x => cfgData s fn x
  | _ => []

/-- A free value that a configuration read shows is used up. -/
def cfgUsed (s : State) : CfgReq → State
  | .read .other => { s with free := s.free + 1 }
  | _ => s

/-- CONFIG_REQUEST: CRS before readiness, normal completion afterwards, with the field's value for a read (R131, R142). -/
def execConfigRequest (fn : Nat) (req : CfgReq) (t : Stamp) (s : State) : Out :=
  let s := s.upTo t
  if fnExists s fn && (getPort s (portOf fn)).linkUp then
    let st := cfgStatus s fn
    if st = .success then
      .next (emit (cfgUsed (cfgWrite s fn req) req) (.cpl fn st (cfgAnswer s fn req) false))
    else .next (emit s (.cpl fn st [] false))
  else .next s

/-- NUMVFS_WRITE: clamped to TotalVFs, ignored while VF Enable is 1 (R142). -/
def execNumvfsWrite (p : PortId) (n : Nat) (t : Stamp) (s : State) : Out :=
  let s := s.upTo t
  .next (if fnReachable s (pf1Of p) && !(getPort s p).vfEnable then
      modPort s p fun x => { x with numVfs := min n (totalVfs p) }
    else s)

/-- VF_ENABLE_SET: the VFs that NumVFs covers appear and answer CRS until ready (R186); VFs that an earlier clear is still resetting
appear once it completes (R145). -/
def execVfEnableSet (p : PortId) (t : Stamp) (s : State) : Out :=
  let s := s.upTo t
  .next (if fnReachable s (pf1Of p) && !(getPort s p).vfEnable then
      enableVfs (modPort s p fun x => { x with vfEnable := true }) p
    else s)

/-- VF_READY: a VF becomes a tenant with no allocation and an empty window; in Sepia mode it is suspended from the start
(R144, R186, R819, R854). -/
def execVfReady (fn : Nat) (t : Stamp) (s : State) : Out :=
  let s := s.upTo t
  .next (if (getFn s fn).phase == .enabling then
      modFn s fn fun f => { f with phase := .ready, suspended := inSepia s }
    else s)

/-- VF Enable is cleared: VFs not yet ready disappear, and every VF tenant is reset with forfeit (R145). -/
def clearVfEnable (s : State) (p : PortId) : State :=
  let s := modPort s p fun x => { x with vfEnable := false }
  (fnsOf p).foldl (fun s fn =>
    if isPf fn then s
    else match (getFn s fn).phase with
      | .enabling => setFn s fn { fnDefault fn with fnCause := (getFn s fn).fnCause }
      | .ready => modFn s fn fun f => { f with resetting := true, flr := false }
      | .absent => s) s

/-- VF_ENABLE_CLEAR (R145). -/
def execVfEnableClear (p : PortId) (t : Stamp) (s : State) : Out :=
  let s := s.upTo t
  .next (if fnReachable s (pf1Of p) && (getPort s p).vfEnable then startForfeit (clearVfEnable s p) [.vfClear p] [] else s)

/-- FLR_INITIATE: the function's tags are quarantined and its reset starts; an FLR of PF1 clears VF Enable (R185). -/
def execFlrInitiate (fn : Nat) (t : Stamp) (s : State) : Out :=
  let s := s.upTo t
  if fnReachable s fn && !(getFn s fn).flr then
    let s := modFn s fn fun f => { f with flr := true, flrForfeited := false }
    let s := quarantineAll s fun _ g => g == fn
    let p := portOf fn
    if fn == pf1Of p && (getPort s p).vfEnable then
      .next (startForfeit (clearVfEnable s p) [.flr fn, .vfClear p] [])
    else .next (startForfeit s [.flr fn] [])
  else .next s

/-- FLR_COMPLETE: once the forfeit is done the function answers normally (R185). -/
def execFlrComplete (fn : Nat) (t : Stamp) (s : State) : Out :=
  let s := s.upTo t
  .next (if (getFn s fn).flr && (getFn s fn).flrForfeited then
      modFn s fn fun f => { f with flr := false, flrForfeited := false }
    else s)

/-- Every queue of a tenant with its stops changed. -/
def modStops (s : State) (fn : Nat) (g : List StopReason → List StopReason) : State :=
  let s : State := { s with queues := s.queues.map fun e =>
      if e.1.ctx.tenant = fn then (e.1, { e.2 with stops := g e.2.stops }) else e }
  ((s.queues.map Prod.fst).filter fun q => q.ctx.tenant = fn).foldl settleQueue s

/-- D3HOT_ENTER: a PF's queues stop at the next packet boundary (R172). -/
def execD3hotEnter (fn : Nat) (t : Stamp) (s : State) : Out :=
  let s := s.upTo t
  .next (if isPf fn && fnReachable s fn && !(getFn s fn).flr then
      modStops (modFn s fn fun f => { f with d3hot := true }) fn fun l => insertOnce l .d3hot
    else s)

/-- D3HOT_EXIT: the queues resume without a reset (R172). -/
def execD3hotExit (fn : Nat) (t : Stamp) (s : State) : Out :=
  let s := s.upTo t
  .next (if (getFn s fn).d3hot && fnReachable s fn then
      modStops (modFn s fn fun f => { f with d3hot := false }) fn fun l => removeAll l .d3hot
    else s)

/-- BUS_MASTER_ENABLE: pending vector messages are sent; held requests may take tags (R171). -/
def execBusMasterEnable (fn : Nat) (t : Stamp) (s : State) : Out :=
  let s := s.upTo t
  .next (if fnReachable s fn then sendPending (modFn s fn fun f => { f with busMaster := true }) fn else s)

/-- MSIX_UNMASK: clearing the mask of a vector or of the function sends what is pending (R156). -/
def execMsixUnmask (fn : Nat) (vector : Option Nat) (t : Stamp) (s : State) : Out :=
  let s := s.upTo t
  .next (if barAnswers s fn then
      match vector with
      | some v =>
        if v < vectorCount fn then
          sendPending (modFn s fn fun f => { f with msix := tblSet f.msix v { msixEntry f v with mask := false } }) fn
        else s
      | none => sendPending (modFn s fn fun f => { f with msixFnMask := false }) fn
    else s)

/-! The BAR2 aperture -/

/-- The context that a function's aperture names. -/
def apertureCtx (f : Fn) (fn : Nat) : CtxId := { tenant := fn, idx := f.apCtx }

/-- The context of an aperture is under a reset or a kill (R176). -/
def apertureResetting (s : State) (c : CtxId) : Bool := (forfeitOf s c).isSome

/-- The physical address of each line piece of an aperture access, none where it faults (R150, R151).
DEDUCED, unsafe: log 40. -/
def aperturePieces (s : State) (fn off len : Nat) (need : AccessNeed) : Option (List (Nat × (Nat × Nat × Nat))) :=
  let f := getFn s fn
  if !f.apEn || f.suspended || apertureResetting s (apertureCtx f fn) then none
  else
    (linePieces (f.apVaHi * 2 ^ 32 + off) len).mapM fun p =>
      match translate s (apertureCtx f fn) p.1 need with
      | .ok (.device pa, _) => some (pa, p)
      | _ => none

/-- The access faults only because its context is under reset, which is not recorded (R176). -/
def apertureSilent (s : State) (fn : Nat) : Bool :=
  let f := getFn s fn
  let c := apertureCtx f fn
  f.apEn && (getCtx s c).isSome && apertureResetting s c

/-- A faulting aperture access: one record per run, none while the context is under reset (R151, R176). -/
def apertureFault (s : State) (fn off : Nat) : State :=
  let f := getFn s fn
  if apertureSilent s fn || f.apFaultRun then s
  else modFn (pushRecord s { recOf s 0x0106 0 [.t] (some fn) with
      addr := .va (f.apVaHi * 2 ^ 32 + off), loc := { unit := .port, index := portNum (portOf fn) } }) fn
    fun f => { f with apFaultRun := true }

/-- An access that the port performs for the host on one line: it enters the fabric at the port's NI, charged to the partition of
the aperture's context and never held (R21, R430, Table 09-6), after the function's earlier writes (R253). -/
def issueBar2 (s : State) (fn id : Nat) (e : Nat × (Nat × Nat × Nat)) (kind : AccKind) : State :=
  let c := apertureCtx (getFn s fn) fn
  let va := e.2.1
  let line := va / 128 * 128
  let shared := match translate s c va .bar2Read with
    | .ok (_, l) => leafShared l
    | .error _ => false
  let a := lineAccess s (.bar2 id) (portNi (portOf fn)) c 2 line (lineHome (.device e.1) va) shared
    (lineSecs line e.2.2.2 [va]) kind
  let s := chargeUngated s a.part a.need
  let r := admitted s { a with after := barWrites s c }
  addAccess r.1 r.2

/-- The next number of a BAR2 request. -/
def takeReq (s : State) : Nat × State :=
  (s.traffic.nextReq, { s with traffic := { s.traffic with nextReq := s.traffic.nextReq + 1 } })

/-- BAR2_READ: translated through the aperture context and read at its home, or 0xFF (R151, R153, R430). -/
def execBar2Read (fn off len : Nat) (t : Stamp) (s : State) : Out :=
  let s := s.upTo t
  if barAnswers s fn && off + len ≤ 2 ^ 32 then
    match aperturePieces s fn off len .bar2Read with
    | none => .next (emit (apertureFault s fn off) (.cpl fn .success (List.replicate len 0xFF#8) false))
    | some ps =>
      let r := takeReq (modFn s fn fun f => { f with apFaultRun := false })
      let s := ps.foldl (fun s e => issueBar2 s fn r.1 e .read) r.2
      let q : HostReq := { fn := fn, pieces := ps.map fun e => (e.2.1 / 128 * 128, e.2.1 % 128, e.2.2.2) }
      .next (completeHostReq { s with traffic := { s.traffic with
        hostReqs := tblSet s.traffic.hostReqs r.1 q } } r.1)
  else .next s

/-- The bytes of a write that fall in one line piece, by their offset in the line. -/
def pieceWrite (bytes : List Byte) (p : Nat × Nat × Nat) : List (Nat × Byte) :=
  (rangeFrom (p.1 % 128) p.2.2).zip ((bytes.drop p.2.1).take p.2.2)

/-- BAR2_WRITE: translated and stored at its home, or dropped; poisoned data is stored as poison (R151, R153). -/
def execBar2Write (fn off : Nat) (bytes : List Byte) (ep : Bool) (t : Stamp) (s : State) : Out :=
  let s := s.upTo t
  if barAnswers s fn && off + bytes.length ≤ 2 ^ 32 then
    let s := if ep then aer (pushRecord s (hostRec s 0x0105 fn)) fn .poisonedTlp else s
    match aperturePieces s fn off bytes.length .bar2Write with
    | none => .next (apertureFault s fn off)
    | some ps =>
      let r := takeReq (modFn s fn fun f => { f with apFaultRun := false })
      .next (ps.foldl (fun s e => issueBar2 s fn r.1 e (.write (pieceWrite bytes e.2) ep)) r.2)
  else .next s

/-! Tags and completions -/

/-- TAG_GRANT: a request that waits at its port takes a tag and is issued (R164, R165, R171, R476). -/
def execTagGrant (n tag : Nat) (t : Stamp) (s : State) : Out :=
  let s := s.upTo t
  match getAccess s n with
  | some a =>
    match a.stage, a.home, a.kind with
    | .waitTag _, .host p fn addr, kind =>
      let may := hostReady s p fn && tagAllowed s p tag a.pri && !tagTaken s p tag && tagsHeld s fn < tagLimit s fn &&
        ordered s a && !updateWaits s n a
      if may then
        let s := modAccess s n fun a => { a with stage := .onLink tag s.stamp }
        match kind with
        | .read => .next (emit s (.hostRead p fn tag (addr + a.hostSpan.1) a.hostSpan.2))
        | .atomic op _ words =>
          match words with
          | (off, x, y) :: _ => .next (emit s (.hostAtomic p fn tag (addr + off) op x y))
          | [] => .next s
        | .write .. => .next s
      else .next s
    | _, _, _ => .next s
  | none => .next s

/-- The access that holds a tag on a port. -/
def tagAccess (s : State) (p : PortId) (tag : Nat) : Option (Nat × Access) :=
  s.traffic.accesses.find? fun e => (e.2.hostOf.map Prod.fst) == some p && e.2.tagOf == some tag

/-- A completion for a quarantined tag: discarded, the tag released and reported (R169). -/
def lateCompletion (s : State) (p : PortId) (tag : Nat) : State :=
  match s.traffic.quarantined.find? fun q => q.port == p && q.tag == tag with
  | none => s
  | some q =>
    let s : State := { s with traffic := { s.traffic with
        quarantined := s.traffic.quarantined.filter fun q => !(q.port == p && q.tag == tag) } }
    aer (pushRecord s (tagRec s 0x0103 tag q.fn)) q.fn .unexpectedCompletion

/-- COMPLETION_RX: accepted when stamped before s + T, else late (R168, R169, Table 04-12). T is that of the function's Completion
Timeout Value when the completion comes. DESIGN CHOICE, unsafe: log 58. -/
def execCompletionRx (p : PortId) (tag : Nat) (status : CplRx) (bytes : List Byte) (t : Stamp) (s : State) : Out :=
  let s := s.upTo t
  match tagAccess s p tag with
  | some (n, a) =>
    match a.stage, a.home with
    | .onLink _ since, .host _ fn _ =>
      if s.stamp < since + timeoutOf s fn then
        match status with
        | .ok => .next (takeCompletion s n a bytes false)
        | .poisoned => .next (takeCompletion (aer (pushRecord s (hostRec s 0x0105 fn)) fn .poisonedTlp) n a bytes true)
        | .badStatus => .next (endRequest (pushRecord s (hostRec s 0x0104 fn)) n a)
      else .next (lateCompletion (timeoutAccess s n) p tag)
    | _, _ => .next s
  | none => .next (lateCompletion s p tag)

/-- COMPLETION_TIMEOUT: at or after s + T (R168), for T as COMPLETION_RX takes it. -/
def execCompletionTimeout (n : Nat) (t : Stamp) (s : State) : Out :=
  let s := s.upTo t
  match getAccess s n with
  | some a =>
    match a.stage, a.home with
    | .onLink _ since, .host _ fn _ => .next (if timed s && since + timeoutOf s fn ≤ s.stamp then timeoutAccess s n else s)
    | _, _ => .next s
  | none => .next s

/-- TAG_QUARANTINE_EXPIRE: a quarantined tag returns at s + 4T (R169). -/
def execTagQuarantineExpire (p : PortId) (tag : Nat) (t : Stamp) (s : State) : Out :=
  let s := s.upTo t
  let back := fun (q : Quarantine) => timed s && q.port == p && q.tag == tag && q.returns ≤ s.stamp
  .next { s with traffic := { s.traffic with quarantined := s.traffic.quarantined.filter fun q => !back q } }

/-- MALFORMED_TLP: the TLP is discarded and recorded (Table 04-12). -/
def execMalformedTlp (p : PortId) (kind : TlpError) (header : BitVec 128) (t : Stamp) (s : State) : Out :=
  let s := s.upTo t
  .next (if isOpen s && (getPort s p).linkUp then
      aer (pushRecord s { portRec s 0x0107 0 [.p] p with detail := header }) (adminOf p) (match kind with
        | .malformed => .malformed
        | .ecrc => .ecrc
        | .overflow => .receiverOverflow)
    else s)

/-- LINK_CORRECTABLE_ERROR: logged under AER in PF0 and PF1, with no other effect (Table 04-12). -/
def execLinkCorrectableError (p : PortId) (s : State) : Out :=
  .next (if isOpen s && (getPort s p).linkUp then aer (aer s (adminOf p) .correctable) (pf1Of p) .correctable else s)

end Sys2Proof.Machine
end

