-- ==== Sys2Proof/Machine/Registers.lean ====
section
/-!
DEFINITION. Host register writes, unsupported accesses (spec 22, R147, R148) and the error queue with its windows (spec
18, R792 to R803, R815).
-/

namespace Sys2Proof.Machine

/-! Register writes -/

/-- A 4-byte write to a BAR0 register that has no row of its own (R3, R4, R916): aperture control, mailbox bodies and the
MSI-X table store their values; every other offset ignores it (R147). DEDUCED, unsafe: log 40. -/
def writeBar0 (s : State) (fn off : Nat) (v : Word) : State :=
  if off = 0x20 then modFn s fn fun f => { f with apCtx := fieldNat v 5 0, apEn := bitOf v 31 }
  else if off = 0x24 then modFn s fn fun f => { f with apVaHi := fieldNat v 15 0 }
  else if 0x1000 ≤ off && off < 0x1000 + 64 * slotCount fn then
    let k := (off % 64) / 4
    let id : SlotId := { fn := fn, slot := (off - 0x1000) / 64 }
    let x := getSlot s id
    let v := if k = 0 then v &&& 0x0001FFFF#32 else v
    if k < 8 then setSlot s id { x with body := x.body.set k v } else s
  else if 0x8000 ≤ off && off < 0x8000 + 16 * vectorCount fn then
    let n := (off - 0x8000) / 16
    let e := msixEntry (getFn s fn) n
    let e := match (off % 16) / 4 with
      | 0 => { e with addr := (e.addr &&& 0xFFFFFFFF00000000#64) ||| ((v &&& 0xFFFFFFFC#32).zeroExtend 64) }
      | 1 => { e with addr := (e.addr &&& 0x00000000FFFFFFFF#64) ||| ((v.zeroExtend 64) <<< 32) }
      | 2 => { e with data := v }
      | _ => { e with mask := bitOf v 0 }
    sendPending (modFn s fn fun f => { f with msix := tblSet f.msix n e }) fn
  else s

/-- An access of R148: 4 or 8 bytes, naturally aligned, inside the BAR. DEDUCED, unsafe: log 40. -/
def accessOk (off size : Nat) : Bool := (size == 4 || size == 8) && off % size == 0 && off + size ≤ 0x10000

/-- REGISTER_WRITE: a write to a register with no row of its own; an 8-byte write acts on the lower register first (R3,
R148). BAR4 has no such register (R920). A write that carries EP is recorded and changes no register (Table 04-12).
PRESUMED, unsafe: log 56. -/
def execRegisterWrite (fn : Nat) (bar4 : Bool) (off size : Nat) (value : Dword) (ep : Bool) (t : Stamp) (s : State) : Out :=
  let s := s.upTo t
  if ep && barAnswers s fn then .next (aer (pushRecord s (hostRec s 0x0105 fn)) fn .poisonedTlp)
  else if barAnswers s fn && accessOk off size && !bar4 then
    let s := writeBar0 s fn off (value.extractLsb' 0 32)
    .next (if size = 8 then writeBar0 s fn (off + 4) (value.extractLsb' 32 32) else s)
  else .next s

/-- UNSUPPORTED_REQUEST: an access that breaks R148, or any access to a function in D3hot, under FLR or not yet ready
(R172, R185, R186, R940, R942): reads complete with Unsupported Request, writes are dropped; one that breaks R148 is
reported under AER. -/
def execUnsupportedRequest (fn bar off size : Nat) (write : Bool) (t : Stamp) (s : State) : Out :=
  let s := s.upTo t
  let f := getFn s fn
  let link := isOpen s && fnExists s fn && (getPort s (portOf fn)).linkUp && !(getPort s (portOf fn)).inReset
  let breaks := barAnswers s fn && bar ≠ 2 && !accessOk off size
  let away := f.flr || f.d3hot || f.phase == .enabling
  if link && (breaks || away) then
    let s := if breaks then aer s fn .unsupportedRequest else s
    .next (if write then s else emit s (.cpl fn .unsupported [] false))
  else .next s

/-! The error queue -/

/-- Capacity of a function's window (R794). -/
def windowCap (fn : Nat) : Nat := if isAdmin fn then 512 else 24

/-- The unconsumed records of a function's window, oldest first (R800). -/
def windowOf (s : State) (fn : Nat) : List StoredRec := s.err.stored.filter fun r => r.windows.contains fn

/-- SEQ after a SEQ: it wraps past 0 (R792). -/
def nextSeq (n : Nat) : Nat := if n ≥ 0xFFFFFFFF then 1 else n + 1

/-- A record is dropped for a window (R795). -/
def dropFor (e : ErrQueue) (fn : Nat) : ErrQueue :=
  { e with drop := tblSet e.drop fn (satAdd 32 (tblGetD e.drop fn 0) 1), droppedCount := satAdd 32 e.droppedCount 1 }

/-- The destination set as stored: the windows that hold the record (R795). -/
def storedDest (r : ErrRec) (windows : List Nat) : Dest :=
  { t := r.dest.t && (r.tenant.map windows.contains).getD false
    a := r.dest.a && windows.contains 0
    b := r.dest.b && windows.contains 96 }

/-- The records that full windows have dropped at the current stamp (R816). -/
def turnedNow (s : State) : List (Nat × Option Nat × ErrRec) := if sameStep s s.err.turnedAt then s.err.turned else []

/-- A record reaches its windows: stored where there is room, dropped elsewhere (R792 to R795, R803).
DEDUCED, unsafe: log 37. -/
def storeRecord (s : State) (r : ErrRec) : State :=
  let dests := (r.dest.windows r.tenant).filter (isTenant s)
  let room := dests.filter fun fn => (windowOf s fn).length < windowCap fn
  let full := dests.filter fun fn => !((windowOf s fn).length < windowCap fn)
  let seq := if room.isEmpty then none else some s.err.nextSeq
  let turned := turnedNow s ++ full.map fun fn => (fn, seq, r)
  let s : State := { s with err := { full.foldl dropFor s.err with turned := turned, turnedAt := s.stamp } }
  if room.isEmpty then s
  else
    let rec_ : StoredRec := { seq := s.err.nextSeq, rec_ := { r with dest := storedDest r room }, windows := room }
    let s : State := { s with err := { s.err with
        stored := s.err.stored ++ [rec_], nextSeq := nextSeq s.err.nextSeq
        storedCount := satAdd 32 s.err.storedCount 1
        lastDevice := if r.scope = 6 then r.code else s.err.lastDevice } }
    let s := if r.scope = 6 then ibiCause s 3 else s
    room.foldl (fun s fn => vectorEvent s fn 0) s

/-- ERROR_RECORD_STORE: the Mordant stores the next detected record (R796), not while it is halted (R847). -/
def execErrorRecordStore (t : Stamp) (s : State) : Out :=
  let s := s.upTo t
  if s.lock.mode == .halted then .next s
  else match s.err.detected with
    | [] => .next s
    | r :: rest => .next (storeRecord (mordantOutput { s with err := { s.err with detected := rest } } 2) r)

/-- The stored records once a window has consumed its records up to and including the one of a SEQ: they are no longer in the
window, and an entry that no window holds is freed (R797, R802). -/
def consumeFrom (fn seq : Nat) : List StoredRec → List StoredRec
  | [] => []
  | r :: rest =>
    if r.windows.contains fn then
      let left : StoredRec := { r with windows := removeAll r.windows fn }
      let rest := if r.seq = seq then rest else consumeFrom fn seq rest
      if left.windows.isEmpty then rest else left :: rest
    else r :: consumeFrom fn seq rest

/-- The entries of the queue once a window has consumed up to and including a SEQ. -/
def consumeUpTo (s : State) (fn seq : Nat) : List StoredRec := consumeFrom fn seq s.err.stored

/-- A drop of a window is undone. -/
def undrop (e : ErrQueue) (fn : Nat) : ErrQueue :=
  let back := fun (n : Nat) => if n ≥ 0xFFFFFFFF then n else n - 1
  { e with drop := tblSet e.drop fn (back (tblGetD e.drop fn 0)), droppedCount := back e.droppedCount }

/-- A stored record is held by one more window. -/
def addWindow (fn : Nat) (r : StoredRec) : StoredRec :=
  let ws := r.windows ++ [fn]
  { r with windows := ws, rec_ := { r.rec_ with dest :=
      { t := r.rec_.dest.t || r.rec_.tenant == some fn, a := r.rec_.dest.a || fn == 0, b := r.rec_.dest.b || fn == 96 } } }

/-- A window with room again stores a record that it dropped in the same step (R816). -/
def retake (s : State) (fn : Nat) (e : Nat × Option Nat × ErrRec) : State :=
  if e.1 ≠ fn || (windowOf s fn).length ≥ windowCap fn then s
  else
    let s : State := { s with err := { undrop s.err fn with turned := s.err.turned.erase e } }
    match e.2.1.filter fun q => s.err.stored.any fun r => r.seq == q with
    | some q =>
      let held := s.err.stored.map fun r => if r.seq = q then addWindow fn r else r
      vectorEvent { s with err := { s.err with stored := held } } fn 0
    | none =>
      let only : Dest := { t := e.2.2.dest.t && e.2.2.tenant == some fn, a := e.2.2.dest.a && fn == 0, b := e.2.2.dest.b && fn == 96 }
      storeRecord s { e.2.2 with dest := only }

/-- ERR_ACK: consumes up to the record whose SEQ is the value, then ERR_SEL is 0; ignored when none has it (R802). Records that
the full window dropped in the same step are stored (R816). -/
def execErrAck (fn : Nat) (value : Word) (t : Stamp) (s : State) : Out :=
  let s := s.upTo t
  if barAnswers s fn && ((windowOf s fn).any fun r => r.seq == value.toNat) then
    let s : State := { s with err := { s.err with stored := consumeUpTo s fn value.toNat, sel := tblSet s.err.sel fn 0 } }
    .next ((turnedNow s).foldl (fun s e => retake s fn e) s)
  else .next s

/-- The record that a window's ERR_SEL selects (R801). -/
def viewed (s : State) (fn : Nat) : Option StoredRec := (windowOf s fn)[tblGetD s.err.sel fn 0]?

/-- A stored record whose entry proves uncorrectable when it is read (R815, R823). DEDUCED, unsafe: log 37. -/
def damageRecord (s : State) (seq : Nat) : State :=
  if s.err.stored.any fun r => r.seq == seq && !r.damaged then
    { s with err := { s.err with
        stored := s.err.stored.map fun r => if r.seq = seq then { r with damaged := true } else r
        storageUe := satAdd 16 s.err.storageUe 1 } }
  else s

/-- ERR_SEL: the view moves; `ue` says that the entry then read has an uncorrectable error (R801, R815). -/
def execErrSel (fn : Nat) (value : Word) (ue : Bool) (t : Stamp) (s : State) : Out :=
  let s := s.upTo t
  if barAnswers s fn then
    let s : State := { s with err := { s.err with sel := tblSet s.err.sel fn (fieldNat value 9 0) } }
    match viewed s fn with
    | some r => .next (if ue then damageRecord s r.seq else s)
    | none => .next s
  else .next s

end Sys2Proof.Machine
end

