-- ==== Sys2Proof/Machine/Regs.lean ====
section
/-!
DEFINITION. What a host reads: the BAR0 registers of a function and the BAR4 pages of an administration function (spec 22, with
the tables it names). No read changes the device, but for the capture of METRO_LO, which is a command of its own (R916).
-/

namespace Sys2Proof.Machine

/-- A register word of a number. -/
def regWord (n : Nat) : Word := BitVec.ofNat 32 n

/-- A Boolean field at a bit. -/
def flagAt (b : Bool) (lo : Nat) : Nat := placed (natOfBool b) lo

/-- The lower and the upper half of a 64-bit register. -/
def halfOf (v : Nat) (hi : Bool) : Word := regWord (if hi then v / 2 ^ 32 else v)

/-- What a word reads as where nothing is to be read (Tables 05-4, R801). -/
def noWord : Word := 0xFFFFFFFF#32

/-! The function's registers -/

/-- KIND of FN_IDENT (Table 04-5). -/
def fnKind (fn : Nat) : Nat := if isAdmin fn then 0 else if isPf fn then 1 else 2

/-- FN_IDENT (Table 04-5). -/
def fnIdent (s : State) (fn : Nat) : Word :=
  regWord (fn + placed (portNum (portOf fn)) 7 + placed (fnKind fn) 8 + flagAt (fn == devAdmin s) 10 + placed (vfNum fn) 16)

/-- RESET_CAUSE with an FN_CAUSE (Table 03-10). -/
def resetCauseWith (s : State) (fnCause : Nat) : Word :=
  regWord (s.life.devCause + placed fnCause 4 + flagAt s.life.wasSepia 8 + placed s.life.startStatus 16)

/-- RESET_CAUSE of a function (R136). -/
def resetCause (s : State) (fn : Nat) : Word := resetCauseWith s (getFn s fn).fnCause

/-- FN_STATUS (Table 22-2). -/
def fnStatus (s : State) (fn : Nat) : Word :=
  regWord (flagAt (isTenant s fn) 0 + flagAt (getFn s fn).suspended 1 + flagAt (inSepia s) 2 + flagAt (lpddrOut s) 3 +
    flagAt s.metro.lost 4)

/-- METRO_HI: the upper half of the function's last capture, 0 before the first (R62). -/
def metroHi (s : State) (fn : Nat) : Word := halfOf ((getFn s fn).metroCap.getD 0) true

/-- APER_CTL (Table 04-6). -/
def aperCtl (s : State) (fn : Nat) : Word := regWord ((getFn s fn).apCtx + flagAt (getFn s fn).apEn 31)

/-! Mailbox slots -/

/-- The code of a slot's state (Table 05-3). -/
def slotCode : SlotState → Nat
  | .idle => 0
  | .busy => 1
  | .done => 2
  | .refused => 3
  | .stale => 4

/-- STATUS of a slot (Table 05-3). -/
def slotStatus (v : Slot) : Word :=
  regWord (slotCode v.st + placed (if v.st = .refused then v.cause else 0) 8 + flagAt v.goLost 16 +
    placed (if v.goLost then v.goCause else 0) 24)

/-- RESk of a slot: the result only in DONE (R192, R198). -/
def slotRes (v : Slot) (k : Nat) : Word := if v.st = .done then v.res.getD k 0#32 else noWord

/-- A word of a slot's 64 bytes (Table 05-1). -/
def slotWord (v : Slot) (n : Nat) : Word :=
  if n < 8 then v.body.getD n 0#32
  else if n < 14 then slotRes v (n - 8)
  else if n = 14 then slotStatus v
  else v.seq

/-! The error window -/

/-- UNIT of LOC (Table 18-3). -/
def unitCode : LocUnit → Nat
  | .none => 0
  | .core => 1
  | .madder => 2
  | .tileBackend => 3
  | .geometry => 4
  | .channel => 5
  | .slice => 6
  | .ni => 7
  | .lpddr => 8
  | .port => 9
  | .queueEngine => 10
  | .mordant => 11
  | .pace => 12

/-- LOC as a word (Table 18-3). -/
def locWord (l : Loc) : Word := regWord (unitCode l.unit + placed (l.index % 128) 4 + placed (l.sched % 4) 11 + placed (l.slot % 2048) 13)

/-- ADDR_KIND and ADDR (Table 18-2). -/
def addrOf : RecAddr → Nat × Nat
  | .none => (0, 0)
  | .va a => (1, a)
  | .pa a => (2, a)
  | .scratch a => (3, a)
  | .host a => (4, a)
  | .localStore a => (5, a)
  | .priv a => (6, a)

/-- CODE and DEST of a stored record. -/
def codeWord (code : Nat) (d : Dest) : Word := regWord (code + flagAt d.t 16 + flagAt d.a 17 + flagAt d.b 18)

/-- The subject word of a record at 0x10 (Table 18-2). -/
def subjectWord (r : ErrRec) : Word :=
  regWord (r.tenant.getD 0 + flagAt r.tenant.isSome 7 + placed (r.ctx.getD 0) 8 + flagAt r.ctx.isSome 14 + flagAt r.queue.isSome 15 +
    placed (r.queue.getD 0) 16 + placed r.scope 20 + placed (addrOf r.addr).1 24)

/-- The 16 words of a record (Table 18-2); of a damaged one only SEQ, DEST and CODE ERRQ_UE remain (R815). -/
def recordWords (x : StoredRec) : List Word :=
  let r := x.rec_
  if x.damaged then [regWord x.seq, codeWord 0x000D r.dest] ++ List.replicate 14 0#32
  else
    let a := (addrOf r.addr).2
    [regWord x.seq, codeWord r.code r.dest, halfOf r.stamp false, halfOf r.stamp true, subjectWord r, r.tag, halfOf a false,
      halfOf a true, locWord r.loc, r.pc, r.lanes, regWord (r.extra % 2 ^ 16)] ++
      (List.range 4).map fun k => r.detail.extractLsb' (32 * k) 32

/-- ERR_STATUS (Table 18-5). -/
def errStatus (s : State) (fn : Nat) : Word :=
  regWord ((windowOf s fn).length + flagAt ((windowOf s fn).length == windowCap fn) 16)

/-- A word of ERR_REC: the selected record, or all ones (R801). -/
def errRecWord (s : State) (fn k : Nat) : Word :=
  match viewed s fn with
  | some r => (recordWords r).getD k 0#32
  | none => noWord

/-! Doorbell blocks -/

/-- The queue that a doorbell of a function belongs to. -/
def doorbellOwner (s : State) (fn db : Nat) : Option (QueueId × Queue) :=
  s.queues.find? fun e => e.1.ctx.tenant == fn && e.2.doorbell == db

/-- The code of a queue's state: STOPPED while a reset or kill of its context is in progress (Table 06-7a).
DEDUCED, unsafe: log 13. -/
def queueCode (s : State) (q : QueueId) (r : Queue) : Nat :=
  if (forfeitOf s q.ctx).isSome then 5
  else match r.st with
    | .idle => 1
    | .parked => 2
    | .running => 3
    | .waiting => 4
    | .stopped => 5
    | .error => 6

/-- Word n of a doorbell block (Table 06-8). -/
def doorbellWord (s : State) (fn db n : Nat) : Word :=
  match doorbellOwner s fn db with
  | none => 0#32
  | some (q, r) =>
    match n with
    | 2 => regWord (queueCode s q r + flagAt r.latched 4 + flagAt r.sub.isSome 5 + flagAt r.missed 6 + flagAt r.incRead 7 +
        placed r.lastErr 16)
    | 3 => r.qTag
    | 4 => halfOf r.qPos false
    | 5 => halfOf r.qPos true
    | 6 => r.retired
    | _ => 0#32

/-! MSI-X -/

/-- Word n of an MSI-X entry (Table 22-3). -/
def msixWord (e : MsixEntry) (n : Nat) : Word :=
  match n with
  | 0 => e.addr.extractLsb' 0 32 &&& 0xFFFFFFFC#32
  | 1 => e.addr.extractLsb' 32 32
  | 2 => e.data
  | _ => regWord (natOfBool e.mask)

/-- Word n of the PBA (R917). -/
def pbaWord (f : Fn) (n : Nat) : Word := regWord (((List.range 32).map fun i => flagAt (f.pba.contains (32 * n + i)) i).sum)

/-! BAR0 -/

/-- The register at a 4-byte offset of BAR0 (Table 22-1); an offset that is not listed reads 0 (R147).
DEDUCED, unsafe: log 21. -/
def readBar0 (s : State) (fn off : Nat) : Word :=
  if off = 0x00 then fnIdent s fn
  else if off = 0x04 then Config.devRev
  else if off = 0x08 then resetCause s fn
  else if off = 0x0C then fnStatus s fn
  else if off = 0x10 then halfOf s.stamp false
  else if off = 0x14 then metroHi s fn
  else if off = 0x20 then aperCtl s fn
  else if off = 0x24 then regWord (getFn s fn).apVaHi
  else if 0x1000 ≤ off && off < 0x1000 + 64 * slotCount fn then
    slotWord (getSlot s { fn := fn, slot := (off - 0x1000) / 64 }) (off % 64 / 4)
  else if off = 0x2000 then errStatus s fn
  else if off = 0x2004 then regWord (tblGetD s.err.drop fn 0)
  else if off = 0x2008 then regWord (tblGetD s.err.sel fn 0)
  else if off = 0x2010 then regWord (((windowOf s fn).head?.map StoredRec.seq).getD 0)
  else if 0x2040 ≤ off && off < 0x2080 then errRecWord s fn ((off - 0x2040) / 4)
  else if 0x4000 ≤ off && off < 0x8000 then doorbellWord s fn ((off - 0x4000) / 64) (off % 64 / 4)
  else if 0x8000 ≤ off && off < 0x8000 + 16 * vectorCount fn then
    msixWord (msixEntry (getFn s fn) ((off - 0x8000) / 16)) (off % 16 / 4)
  else if 0xC000 ≤ off && off < 0xC020 then pbaWord (getFn s fn) ((off - 0xC000) / 4)
  else 0#32

/-! BAR4 pages -/

/-- The administration identity page (Table 22-5). -/
def identWord (s : State) (n : Nat) : Word :=
  match n with
  | 0 => regWord (flagAt s.life.straps.memHalf 0 + flagAt s.life.straps.adminSel 1 + flagAt s.life.straps.portbEn 2 +
      flagAt s.fuses.jtagLock 3)
  | 1 => regWord (inProgress s + placed ((busySlots s).filter fun e => !e.2.started).length 16)
  | _ => 0#32

/-- PORTx_STATE (Table 04-14). A Port B that PORTB_EN leaves out reads 0 in every field, whatever the level of PERSTB_N.
DEDUCED, unsafe: log 53. -/
def portState (s : State) (p : PortId) : Word :=
  let x := getPort s p
  if !x.present then 0#32
  else regWord (1 + flagAt x.linkUp 1 + flagAt (x.perst || x.inReset) 2 + flagAt (isOpen s && !x.perst && !x.inReset) 3 +
    placed x.speed 4 + placed x.width 8 + placed x.downCount 16)

/-- The port page (Table 04-14). -/
def portWord (s : State) (n : Nat) : Word :=
  match n with
  | 0 => portState s .a
  | 1 => portState s .b
  | 2 => halfOf s.portA.downStamp false
  | 3 => halfOf s.portA.downStamp true
  | 4 => halfOf s.portB.downStamp false
  | 5 => halfOf s.portB.downStamp true
  | _ => 0#32

/-- The flags word of the Governor page (Table 02-9). -/
def govStatus (g : Gov) : Word :=
  let p := g.page
  regWord (flagAt p.satHiNow 0 + flagAt p.satLoNow 1 + flagAt p.clampNow 2 + flagAt p.staleNow 3 + flagAt g.satHi 8 + flagAt g.satLo 9 +
    flagAt g.integClamp 10 + flagAt g.sensorStale 11 + placed p.mode 16 + flagAt p.tpSel 18 + placed p.pmicEn 19)

/-- The Governor page (Table 02-9). -/
def govWord (g : Gov) (n : Nat) : Word :=
  match n with
  | 0 => govStatus g
  | 1 => g.page.vout
  | 2 => g.page.pace
  | 3 => g.page.pest
  | 4 => halfOf g.page.sample false
  | 5 => halfOf g.page.sample true
  | 6 => regWord g.page.episode
  | 7 => regWord g.page.code
  | _ => 0#32

/-- A domain counts as on in the power page until it is off (R137). -/
def pwrOn (s : State) (d : Nat) : Bool := (getDom s d).st == .on || (getDom s d).st == .switchingOff

/-- The power page (Table 03-11). -/
def pwrWord (s : State) (n : Nat) : Word := regWord (((List.range 32).map fun i => flagAt (pwrOn s (32 * n + i)) i).sum)

/-- Units of memory objects. -/
def objectUnitsAll (s : State) : Nat := (s.lpddr.objects.map fun e => e.2.units.length).sum

/-- The memory page (Table 07-11). DEDUCED, unsafe: log 21. -/
def memWord (s : State) (n : Nat) : Word :=
  let l := s.lpddr
  match n with
  | 0 => regWord (channels s + flagAt l.density2g 5 + flagAt l.ranks2 6 + flagAt l.ecc 7 + flagAt l.inService 8 + placed l.trainFail.toNat 16)
  | 1 => regWord (poolUnits s % 2 ^ 16 + placed ((poolUnits s - objectUnitsAll s) % 2 ^ 16) 16)
  | 2 => regWord (min (l.ceCounts.map Prod.snd).sum (2 ^ 32 - 1))
  | 3 => regWord l.ueCount
  | 4 => regWord (if l.ecc then 0 else l.poison.length)
  | 5 => regWord ((tablePages s + 15) / 16)
  | _ => 0#32

/-- The Vat page (Table 08-7). -/
def vatWord (s : State) (n : Nat) : Word :=
  let v := s.vat
  let held := fun (p : PortId) => segsHeld s fun c => portOf c.tenant == p
  match n with
  | 0 => regWord (v.convMask.toNat + flagAt v.converting.isSome 16 + flagAt v.streamEn 17 + placed v.streamThresh 24)
  | 1 => regWord (v.segs.length + placed (freeSegList s).length 16)
  | 2 => regWord (held .a + placed (held .b) 16)
  | 3 => regWord v.ceCount
  | 4 => regWord v.ueCount
  | _ => 0#32

/-- A partition's four words (Table 09-9). -/
def partWord (p : Partition) (n : Nat) : Word :=
  match n with
  | 0 => regWord (flagAt p.cfg.en 0 + placed p.cfg.windowUs 16)
  | 1 => regWord p.cfg.budget
  | 2 => regWord p.last
  | _ => regWord p.heldWindows

/-- The fabric page (Table 09-9) at an offset of the page. -/
def fabricWord (s : State) (off : Nat) : Word :=
  let f := (settleParity s).fabric
  if off < 0x100 then partWord (getPart f (off / 16)) (off % 16 / 4)
  else match off with
    | 0x100 => regWord f.parityTotal
    | 0x104 => regWord (f.parityWin % 32)
    | 0x108 => regWord f.ceCount
    | _ => 0#32

/-- The cluster page (Table 10-7). -/
def clusterWord (s : State) (c : Nat) : Word :=
  if c ≥ 6 then 0#32
  else
    let h := (s.cores.clusters.getD c {}).excl
    regWord (flagAt h.isSome 0 + placed ((h.map CtxId.tenant).getD 0) 8 + placed ((h.map CtxId.idx).getD 0) 16 +
      placed (s.cores.groups.filter fun e => e.2.core / 4 == c).length 24)

/-- The tenant that holds the grant of a transfer channel. -/
def channelHolder (s : State) (ch : Nat) : Option Nat := allFns.find? fun fn => (getFn s fn).grant.chans.getLsbD ch

/-- The transfer page (Table 16-8). In Sepia mode only channels 0 to 3 serve (Table 19-5). -/
def xferWord (s : State) (ch : Nat) : Word :=
  if ch ≥ 64 then 0#32
  else
    let h := channelHolder s ch
    let a := tblGet s.xfer.active ch
    let out := (inSepia s && ch ≥ 4) || (getDom s 71).policy == .forceOff
    regWord (h.getD 0 + flagAt h.isSome 7 + flagAt a.isSome 8 + flagAt (s.xfer.waiting.any fun o => o.ch == ch) 9 +
      flagAt (s.xfer.saved.any fun o => o.ch == ch) 10 + flagAt out 11 + placed ((a.map fun o => o.queue.ctx.idx).getD 0) 16)

/-- FC of the error page (Table 18-11). -/
def fcBits (s : State) : Nat := flagAt (inSepia s) 0 + flagAt s.metro.lost 1 + flagAt (lpddrOut s) 2

/-- The error page (Table 18-11). -/
def errWord (s : State) (n : Nat) : Word :=
  match n with
  | 0 => regWord s.err.storedCount
  | 1 => regWord s.err.droppedCount
  | 2 => regWord s.err.stored.length
  | 3 => regWord (s.err.lastDevice + placed s.err.storageUe 16)
  | 4 => regWord (fcBits s)
  | _ => 0#32

/-- The code of MORDANT_MODE (Table 19-6). -/
def modeCode : MordantMode → Nat
  | .pair => 0
  | .aAlone => 1
  | .halted => 2

/-- The integrity page (Table 19-6). -/
def integrityWord (s : State) (n : Nat) : Word :=
  let l := s.lock
  match n with
  | 0 => regWord (flagAt l.sepia 0 + placed (modeCode l.mode) 1 + placed l.sepiaCause 16)
  | 1 => halfOf l.sepiaStamp false
  | 2 => halfOf l.sepiaStamp true
  | 3 => regWord l.selfPass
  | 4 => regWord (l.replays + placed (min l.lastAlarm 0xFFFF) 16)
  | _ => 0#32

/-- The register at a 4-byte offset of BAR4 (Table 22-4), which only administration functions have (R18, Table 04-3); an offset that
is not listed reads 0 (R919). DEDUCED, unsafe: log 21. -/
def readBar4 (s : State) (fn off : Nat) : Option Word :=
  let n := off % 0x1000 / 4
  if !isAdmin fn then none
  else some <| match off / 0x1000 with
  | 0 => identWord s n
  | 1 => portWord s n
  | 2 => govWord s.gov n
  | 3 => if n < 3 then pwrWord s n else 0#32
  | 4 => memWord s n
  | 5 => vatWord s n
  | 6 => fabricWord s (off % 0x1000)
  | 7 => clusterWord s n
  | 8 => xferWord s n
  | 9 => errWord s n
  | 10 => integrityWord s n
  | _ => 0#32

/-! The I3C map -/

/-- A temperature as the target reports it (R929). -/
def tempCode (v : Option Nat) : Nat := v.getD 0xFFFF

/-- DEV_STATUS (Table 22-7). -/
def devStatus (s : State) : Nat :=
  flagAt (isOpen s && !inWarm s) 0 + flagAt (inSepia s) 1 + placed (modeCode s.lock.mode) 2 + flagAt (faultN s) 4 + flagAt s.metro.lost 5 +
    flagAt (lpddrOut s) 6 + flagAt s.life.pins.thermTrip 7

/-- The registers of the I3C map by address, size and value (Table 22-6). -/
def i3cMap (s : State) : List (Nat × Nat × Nat) :=
  let l := s.lock
  let mx := tempMax s
  [(0x00, 4, Config.devRev.toNat), (0x04, 4, (resetCauseWith s 0).toNat), (0x08, 1, devStatus s), (0x09, 1, s.life.startStatus),
    (0x0A, 2, s.lpddr.trainFail.toNat), (0x0C, 2, l.sepiaCause), (0x10, 8, l.sepiaStamp), (0x18, 4, l.selfPass), (0x1C, 2, l.replays),
    (0x1E, 2, min l.lastAlarm 0xFFFF), (0x20, 4, s.err.storedCount), (0x24, 4, s.err.droppedCount), (0x28, 2, s.err.stored.length),
    (0x2A, 2, s.err.lastDevice), (0x2C, 2, s.err.storageUe), (0x2E, 1, fcBits s), (0x30, 4, (portState s .a).toNat),
    (0x34, 4, (portState s .b).toNat), (0x38, 4, s.gov.page.vout.toNat), (0x3C, 4, s.gov.page.pest.toNat),
    (0x40, 4, (govStatus s.gov).toNat), (0x44, 2, s.gov.page.code)] ++
  ((List.range 16).map fun i => (0x50 + 2 * i, 2, tempCode (s.sensors.temp.getD i none))) ++
  [(0x70, 2, tempCode (mx.map Prod.fst)), (0x72, 1, (mx.map Prod.snd).getD 0xFF),
    (0x74, 2, ((List.range 16).map fun i => flagAt (s.sensors.temp.getD i none).isSome i).sum),
    (0x80, 1, flagAt s.i3c.busy 0 + flagAt s.i3c.ignored 1), (0x81, 1, s.i3c.ibiEn.toNat), (0x82, 1, s.i3c.ibiPend.toNat),
    (0x84, 2, s.i3c.tempAlert)]

/-- A byte of the I3C map; reserved bytes read 0 (R926). -/
def i3cByte (s : State) (addr : Nat) : Byte :=
  match (i3cMap s).find? fun e => e.1 ≤ addr && addr < e.1 + e.2.1 with
  | some (a, _, v) => BitVec.ofNat 8 (v / 2 ^ (8 * (addr - a)))
  | none => 0#8

end Sys2Proof.Machine
end

