-- ==== Sys2Proof/Machine/Sideband.lean ====
section
/-!
DEFINITION. The I3C target (spec 22), and the JTAG TAP with the trace buffer and the fuses (spec 21).
-/

namespace Sys2Proof.Machine

/-! The I3C target -/

/-- The target answers private transfers and directed CCCs: it serves from step 2 on (R895, R945) and holds a dynamic address.
PRESUMED, unsafe: log 33. -/
def i3cAnswers (s : State) : Bool := s.i3c.serving && s.i3c.dynAddr.isSome

/-- The state with the target's registers changed. -/
def modI3c (s : State) (g : I3c → I3c) : State := { s with i3c := g s.i3c }

/-- READY of DEV_STATUS (Table 22-7). -/
def i3cReady (s : State) : Bool := isOpen s && !inWarm s

/-- The warm-reset order: accepted only while READY, or in a watchdog halt (R931, R932). -/
def warmOrder (s : State) (v : Byte) : State :=
  if v ≠ 0xC3#8 then s
  else if i3cReady s || s.lock.mode == .halted then startWarm (modI3c s fun i => { i with busy := true, ignored := false }) .i3c
  else modI3c s fun i => { i with ignored := true }

/-- A W1C write of IBI_PEND: a bit set in the same step stays (R5, R936), and an interrupt may be requested anew where enabled bits
stay pending (R935). -/
def clearPend (s : State) (v : Byte) : State :=
  let keep := if sameStep s s.i3c.pendSet.2 then s.i3c.pendSet.1 else 0#8
  let s := modI3c s fun i => { i with ibiPend := i.ibiPend &&& (~~~v ||| keep) }
  ibiRequest (if s.i3c.ibiPend &&& s.i3c.ibiEn = 0#8 then s else modI3c s fun i => { i with accepted := none })

/-- TEMP_ALERT takes a threshold, which arms the TEMP cause (R926, R934). -/
def setTempAlert (s : State) (v : Nat) : State := modI3c s fun i => { i with tempAlert := v, tempArmed := true }

/-- One register byte of a private write at an address, with byte 0x84 as held in the transfer (R924, R926). -/
def i3cPut (s : State) (addr : Nat) (b : Byte) (held : Option Byte) : State × Option Byte :=
  match addr with
  | 0x80 => (warmOrder s b, held)
  | 0x81 => (ibiRequest (modI3c s fun i => { i with ibiEn := b }), held)
  | 0x82 => (clearPend s b, held)
  | 0x84 => (s, some b)
  | 0x85 => (setTempAlert s (((held.map BitVec.toNat).getD (s.i3c.tempAlert % 256)) + 256 * b.toNat), held)
  | _ => (s, held)

/-- The register bytes of a private write, at the pointer and on (R924). -/
def i3cPuts (s : State) (held : Option Byte) : List Byte → State
  | [] => s
  | b :: bs =>
    let r := i3cPut s s.i3c.pointer.toNat b held
    i3cPuts (modI3c r.1 fun i => { i with pointer := i.pointer + 1#8 }) r.2 bs

/-- A private write: the first byte sets the pointer, the others are register bytes (R924). -/
def privateWrite (s : State) : List Byte → State
  | [] => s
  | p :: bs => if i3cAnswers s then i3cPuts (modI3c s fun i => { i with pointer := p }) none bs else s

/-- I3C_PRIVATE_WRITE (R924, R926, R943). -/
def execI3cPrivateWrite (bytes : List Byte) (t : Stamp) (s : State) : Out := .next (privateWrite (s.upTo t) bytes)

/-- I3C_PRIVATE_READ: bytes of one capture of the map from the pointer on (R924, R925). -/
def execI3cPrivateRead (len : Nat) (t : Stamp) (s : State) : Out :=
  let s := s.upTo t
  let p := s.i3c.pointer.toNat
  let bytes := (List.range len).map fun k => i3cByte s ((p + k) % 256)
  .next (if i3cAnswers s then emit (modI3c s fun i => { i with pointer := i.pointer + BitVec.ofNat 8 len }) (.i3c bytes) else s)

/-- TEMP_ALERT_WRITE: a private write of both bytes of TEMP_ALERT (R926, R934). -/
def execTempAlertWrite (value : BitVec 16) (s : State) : Out :=
  .next (privateWrite s [0x84#8, value.extractLsb' 0 8, value.extractLsb' 8 8])

/-- I3C_WARM_RESET_ORDER: a private write of byte 0x80 (R931, R932, R937). -/
def execI3cWarmResetOrder (value : Byte) (t : Stamp) (s : State) : Out := .next (privateWrite (s.upTo t) [0x80#8, value])

/-- IBI_PEND_CLEAR: a private write of byte 0x82 (R935, R936). -/
def execIbiPendClear (value : Byte) (t : Stamp) (s : State) : Out := .next (privateWrite (s.upTo t) [0x82#8, value])

/-- IBI_ACCEPT: the controller takes the data byte; the target then waits for a bit that it did not hold (R935). -/
def execIbiAccept (s : State) : Out :=
  match s.i3c.request with
  | some b => .next (emit (modI3c s fun i => { i with request := none, accepted := some b }) (.i3c [b]))
  | none => .next s

/-- ENEC: events are enabled, and an interrupt that DISEC held is requested (R935, R939). -/
def execEnec (s : State) : Out :=
  .next (if s.i3c.serving then ibiRequest (modI3c s fun i => { i with eventsEnabled := true }) else s)

/-- DISEC: events are disabled (R935, R939). -/
def execDisec (s : State) : Out :=
  .next (if s.i3c.serving then ibiRequest (modI3c s fun i => { i with eventsEnabled := false }) else s)

/-- RSTDAA: the dynamic address is removed (R945). -/
def execRstdaa (s : State) : Out :=
  .next (if s.i3c.serving then ibiRequest (modI3c s fun i => { i with dynAddr := none }) else s)

/-- The provisional ID, most significant byte first (R923). -/
def pidBytes : List Byte := [0x06#8, 0x96#8, 0x48#8, 0x60#8, 0x00#8, 0x00#8]

/-- BCR (R923). -/
def bcrByte : Byte := 0x06#8

/-- DCR (R923). -/
def dcrByte : Byte := 0x00#8

/-- A target without a dynamic address takes one (R895). PRESUMED, unsafe: log 33. -/
def takeAddress (s : State) (addr : Nat) : State := ibiRequest (modI3c s fun i => { i with dynAddr := some (addr % 128) })

/-- ENTDAA: a target without a dynamic address sends its identity and takes the assigned address (R895, R923). -/
def execEntdaa (addr : Nat) (s : State) : Out :=
  .next (if s.i3c.serving && s.i3c.dynAddr.isNone then emit (takeAddress s addr) (.i3c (pidBytes ++ [bcrByte, dcrByte])) else s)

/-- SETDASA: the target at static address 0x52 takes the assigned address (R895). -/
def execSetdasa (addr : Nat) (s : State) : Out :=
  .next (if s.i3c.serving && s.i3c.dynAddr.isNone then takeAddress s addr else s)

/-- A directed CCC that reads bytes of the target. PRESUMED, unsafe: log 33. -/
def answerCcc (s : State) (bytes : List Byte) : State := if i3cAnswers s then emit s (.i3c bytes) else s

/-- GETPID (R923). -/
def execGetpid (s : State) : Out := .next (answerCcc s pidBytes)

/-- GETBCR (R923). -/
def execGetbcr (s : State) : Out := .next (answerCcc s [bcrByte])

/-- GETDCR (R923). -/
def execGetdcr (s : State) : Out := .next (answerCcc s [dcrByte])

/-- GETSTATUS (R923): two status bytes, whose contents the spec does not state: a free value. -/
def execGetstatus (s : State) : Out :=
  .next (answerCcc { s with free := s.free + 1 } (leBytes 2 (Config.freeNat s.free)))

/-! The TAP -/

/-- The state with the TAP changed. -/
def modTap (s : State) (g : Jtag → Jtag) : State := { s with jtag := g s.jtag }

/-- RESET_N is low, so that boundary instructions may control balls and fuses may be blown (R897, R899). -/
def tapMayDrive (s : State) : Bool := !s.life.pins.resetN

/-- The low n bits of a number, bit 0 first. -/
def scanBits (n v : Nat) : List Bool := (List.range n).map (bitNat v)

/-- A scan of a data register: it is captured and shifted out. DESIGN CHOICE, safe: log 34. -/
def scanOut (s : State) (bits : List Bool) : State := emit (modTap s fun j => { j with dr := bits }) (.jtag bits)

/-- An instruction is selected, and the balls are controlled as it says (R897). DESIGN CHOICE, safe: log 34. -/
def selectInstr (s : State) (i : JtagInstr) (b : BallControl) : State := modTap s fun j => { j with instr := i, balls := b }

/-- The bypass register captures 0. DESIGN CHOICE, safe: log 34. -/
def bypassScan (s : State) : State := scanOut s [false]

/-- Control of the balls, only while RESET_N is low (R897). DESIGN CHOICE, safe: log 34. -/
def ballsFor (s : State) (b : BallControl) : BallControl := if tapMayDrive s then b else .system

/-- EXTEST: while RESET_N is low the balls are captured and the boundary-scan register drives them; else it acts as BYPASS
(R897). -/
def execExtest (captured levels : List Bool) (s : State) : Out :=
  .next (if tapMayDrive s then
      modTap (scanOut (selectInstr s .extest .boundary) captured) fun j => { j with boundary := levels }
    else bypassScan (selectInstr s .extest .system))

/-- SAMPLE_PRELOAD: the balls are captured and the boundary-scan register loaded; no ball is disturbed (R897). -/
def execSamplePreload (captured levels : List Bool) (s : State) : Out :=
  .next (modTap (scanOut (selectInstr s .samplePreload .system) captured) fun j => { j with boundary := levels })

/-- IDCODE (R898). -/
def execIdcode (s : State) : Out := .next (scanOut (selectInstr s .idcode .system) (scanBits 32 Config.idcode.toNat))

/-- CLAMP: while RESET_N is low the boundary-scan register holds the balls (R897). -/
def execClamp (s : State) : Out := .next (bypassScan (selectInstr s .clamp (ballsFor s .boundary)))

/-- HIGHZ: while RESET_N is low the balls are released (R897). -/
def execHighz (s : State) : Out := .next (bypassScan (selectInstr s .highz (ballsFor s .highz)))

/-- BYPASS; codes that are not listed select it (R896). -/
def execBypass (s : State) : Out := .next (bypassScan (selectInstr s .bypass .system))

/-- The 128 bits of a trace record (R901). -/
def traceBits (r : TraceRec) : List Bool :=
  scanBits 128 (r.kind % 16 + placed (natOfBool r.lost) 4 + placed (r.source % 128) 5 + placed (r.stamp % 2 ^ 52) 12 +
    placed r.payload.toNat 64)

/-- DAP_ACCESS: the oldest trace record, or zeros; BYPASS once JTAG_LOCK is blown (R900, R901, R908). -/
def execDapAccess (s : State) : Out :=
  let s := selectInstr s .dapAccess .system
  .next (if s.fuses.jtagLock then bypassScan s
    else match s.jtag.trace with
      | [] => scanOut s (scanBits 128 0)
      | r :: rest => scanOut (modTap s fun j => { j with trace := rest }) (traceBits r))

/-- DAP_CTRL: what the trace stream carries; bit 9 empties the buffer; BYPASS once JTAG_LOCK is blown (R900, R901). -/
def execDapCtrl (value : BitVec 16) (s : State) : Out :=
  let old := s.jtag.dapCtrl
  let s := selectInstr s .dapCtrl .system
  .next (if s.fuses.jtagLock then bypassScan s
    else modTap (scanOut s (scanBits 16 old.toNat)) fun j =>
      { j with dapCtrl := value, trace := if value.getLsbD 9 then [] else j.trace })

/-- A blow may start: RESET_N low, VPP_FUSE in range, JTAG_LOCK intact, and none in progress (R899). -/
def mayBlow (s : State) (vpp : Bool) : Bool := tapMayDrive s && vpp && !s.fuses.jtagLock && s.fuses.blowing.isNone

/-- FUSE_PROG: the selected fuses start to blow at Update-DR; otherwise the write has no effect (R899, R900). -/
def execFuseProg (value : BitVec 8) (vpp : Bool) (s : State) : Out :=
  let s := selectInstr s .fuseProg .system
  let sel := (value.getLsbD 0, value.getLsbD 1)
  .next (if s.fuses.jtagLock then bypassScan s
    else if mayBlow s vpp && (sel.1 || sel.2) then { s with fuses := { s.fuses with blowing := some sel } }
    else s)

/-- FUSE_BLOW_DONE: each selected fuse that verifies is blown, and one that was blown already is unchanged; PROG_FAIL tells of one that
does not verify (R899, Table 21-10).
DESIGN CHOICE, unsafe: log 35. -/
def execFuseBlowDone (verified : BitVec 2) (s : State) : Out :=
  match s.fuses.blowing with
  | none => .next s
  | some (ecc, lock) =>
    let e := ecc && (verified.getLsbD 0 || s.fuses.inlineEcc)
    let l := lock && (verified.getLsbD 1 || s.fuses.jtagLock)
    .next { s with fuses := {
      inlineEcc := s.fuses.inlineEcc || e, jtagLock := s.fuses.jtagLock || l
      progFail := (ecc && !e) || (lock && !l), blowing := none } }

/-- FUSE_READ (Table 21-10). -/
def execFuseRead (vpp : Bool) (s : State) : Out :=
  let f := s.fuses
  .next (scanOut (selectInstr s .fuseRead .system) [f.inlineEcc, f.jtagLock, vpp, f.progFail, false, false, false, false])

/-- TAP_RESET: the TAP alone is reset: IDCODE, and DAP_CTRL 0 (R912). -/
def execTapReset (s : State) : Out := .next (modTap (selectInstr s .idcode .system) fun j => { j with dapCtrl := 0#16 })

end Sys2Proof.Machine
end

