-- ==== Sys2Proof/Machine/TexOps.lean ====
section
/-!
DEFINITION. Texturing (R532, R533, R702 to R705): descriptors, texel addresses, coordinates and levels of detail, and the plan of
weighted texels of a sample.
-/

namespace Sys2Proof.Machine

/-! Descriptors (Table 15-5) -/

/-- A texture descriptor. -/
structure TexDesc where
  va : Nat
  width : Nat
  height : Nat
  depth : Nat
  format : Nat
  levels : Nat
  foot : Nat
  stride : Nat
  swizzle : Nat
  log2s : Nat
  deriving DecidableEq, Repr

/-- The texture descriptor in eight scalar registers. -/
def texDesc (ws : List Word) : TexDesc :=
  let bs := wordsLe ws
  { va := fieldAt bs 0 6, width := fieldAt bs 8 2 + 1, height := fieldAt bs 10 2 + 1, depth := fieldAt bs 12 2 + 1
    format := fieldAt bs 14 1, levels := fieldAt bs 15 1 % 16 + 1, foot := fieldAt bs 15 1 / 16, stride := fieldAt bs 16 4
    swizzle := fieldAt bs 20 2, log2s := fieldAt bs 22 1 % 4 }

/-- ASTC footprints in the order of VkFormat. -/
def astcBlock (foot : Nat) : Nat × Nat :=
  [(4, 4), (5, 4), (5, 5), (6, 5), (6, 6), (8, 5), (8, 6), (8, 8), (10, 5), (10, 6), (10, 8), (10, 10), (12, 10), (12, 12)].getD foot (1, 1)

/-- Pixels of a block of a format, and its bytes; none where the format is reserved (Table 15-6). -/
def texBlock (x : TexDesc) : Option (Nat × Nat × Nat) :=
  match pixFmt x.format, depthBytes x.format, blockBytes x.format with
  | some p, _, _ => some (1, 1, p.bytes)
  | none, some b, _ => some (1, 1, b)
  | none, none, some b =>
    if x.format < 0x50 then some (4, 4, b)
    else if x.foot ≤ 13 then some ((astcBlock x.foot).1, (astcBlock x.foot).2, b) else none
  | none, none, none => none

/-- The format is reserved, or levels or dimensions exceed the limits (Tables 15-8 and 15-9); a base that is not 256-byte aligned is
treated the same. DESIGN CHOICE, safe: log 30. -/
def texBad (x : TexDesc) (dim : Nat) : Bool :=
  let most := if dim = 2 then 2048 else 16384
  (texBlock x).isNone || x.levels > 15 || (x.log2s != 0 && x.levels != 1) || x.width > most || x.height > most || x.depth > 2048 ||
    x.va % 256 != 0

/-- A dimension at a level (R703). -/
def mipSize (n level : Nat) : Nat := max 1 (n / 2 ^ level)

/-- Blocks across and down, and the row pitch, of a level (R703). -/
def levelShape (x : TexDesc) (level : Nat) : Nat × Nat × Nat :=
  match texBlock x with
  | none => (1, 1, 64)
  | some (bw, bh, b) =>
    let bx := (mipSize x.width level + bw - 1) / bw
    let by_ := (mipSize x.height level + bh - 1) / bh
    (bx, by_, alignUp (bx * 2 ^ x.log2s * b) 64)

/-- The bytes of a level: its rows, for each slice of a 3D texture. -/
def levelBytes (x : TexDesc) (dim level : Nat) : Nat :=
  let sh := levelShape x level
  sh.2.1 * sh.2.2 * (if dim = 2 then mipSize x.depth level else 1)

/-- A texel: level, layer or slice, x, y and sample. -/
structure TexPos where
  level : Nat
  layer : Nat
  x : Nat
  y : Nat
  sample : Nat := 0
  deriving DecidableEq, Repr

/-- The VA of the texel or block that holds a texel, and its bytes (R703). -/
def texelVa (x : TexDesc) (dim : Nat) (p : TexPos) : Nat × Nat :=
  match texBlock x with
  | none => (x.va, 1)
  | some (bw, bh, b) =>
    let base := x.va + ((List.range p.level).map fun l => alignUp (levelBytes x dim l) 256).sum
    let sh := levelShape x p.level
    let layer := if dim = 2 then p.layer * (sh.2.1 * sh.2.2) else p.layer * x.stride * 256
    (base + layer + p.y / bh * sh.2.2 + (p.x / bw * 2 ^ x.log2s + p.sample) * b, b)

/-- A texel's four components from the bytes of its block (R698, R705): a depth format gives its depth, or the stencil of S8, in the
first. DESIGN CHOICE, safe: log 31. -/
def decodeTexel (x : TexDesc) (p : TexPos) (bs : List Byte) : List Word :=
  match texBlock x with
  | none => List.replicate 4 0#32
  | some (bw, bh, _) =>
    if (blockBytes x.format).isSome then
      let c := Config.compressedTexel (x.format + 256 * x.foot) bs (p.x % bw) (p.y % bh)
      [c.1, c.2.1, c.2.2.1, c.2.2.2]
    else if hasDepth x.format then [toF32 0 (depthVal x.format (depthField x.format (leNat bs))), 0#32, 0#32, f32One]
    else if x.format = 0x34 then [BitVec.ofNat 32 (leNat bs), 0#32, 0#32, 1#32]
    else decodePixel x.format (leNat bs)

/-- Texels of the format are integers. -/
def texInt (x : TexDesc) : Bool := x.format == 0x34 || ((pixFmt x.format).map PixFmt.isInt).getD false

/-- The format may be filtered (Table 15-6). -/
def texFilters (x : TexDesc) : Bool :=
  match pixFmt x.format with
  | some p => p.filter
  | none => x.format != 0x34

/-- 1 in the component type of a texture. -/
def texOne (x : TexDesc) : Word := if texInt x then 1#32 else f32One

/-- SWIZZLE on four components; codes 6 and 7 give a free value (Table 15-5). -/
def texSwizzle (x : TexDesc) (c : List Word) (fr : Nat) : List Word :=
  (List.range 4).map fun k =>
    match x.swizzle / 2 ^ (3 * k) % 8 with
    | 4 => 0#32
    | 5 => texOne x
    | n => if n < 4 then chan c n else Config.freeWord (fr + k)

/-- A code of a sampler field, or a free one where the code is reserved. -/
def legalCode (code n fr : Nat) : Nat := if code < n then code else Config.freeNat fr % n

/-! Coordinates -/

/-- A value in 1/256, rounded by RNE; a NaN or an infinity has none (R704). -/
def fixed8 : FVal → Option Int
  | .fin neg m e => let r := roundShift 0 {} neg m (e + 8); some (if neg then -(r : Int) else r)
  | _ => none

/-- A face of a cube with its two coordinates, its major axis and its sign: (face, which component and sign for sc, tc and rc).
PRESUMED, unsafe: log 29. -/
def cubeFace (x y z : FVal) : Nat × (Nat × Bool) × (Nat × Bool) × (Nat × Bool) :=
  let ge := fun (a b : FVal) => vkCompare 6 (fcompare a.abs b.abs)
  if ge z x && ge z y then
    (if z.isNeg then (5, (0, true), (1, true), (2, true)) else (4, (0, false), (1, true), (2, false)))
  else if ge y x then
    (if y.isNeg then (3, (0, false), (2, true), (1, true)) else (2, (0, false), (2, false), (1, false)))
  else if x.isNeg then (1, (2, false), (1, true), (0, true)) else (0, (2, true), (1, true), (0, false))

/-- A component of a direction with a sign. -/
def pick (d : List FVal) (c : Nat × Bool) : FVal :=
  let v := d.getD c.1 (.fin false 0 0)
  if c.2 then v.neg else v

/-- One half. -/
def halfVal : FVal := .fin false 1 (-1)

/-- The face and coordinates of a direction: s = sc / (2 |rc|) + 1/2. -/
def projectCube (d : List FVal) : Nat × List FVal :=
  let f := cubeFace (d.getD 0 .nan) (d.getD 1 .nan) (d.getD 2 .nan)
  let rc := pick d f.2.2.2
  let at_ := fun (c : Nat × Bool) => faddExact false (fdivVal (fmulExact halfVal (pick d c)) rc) halfVal
  (f.1, [at_ f.2.1, at_ f.2.2.1])

/-- The derivatives of a face's coordinates from those of the direction: d(sc / |rc|) / 2. -/
def projectDeriv (d dd : List FVal) : List FVal :=
  let f := cubeFace (d.getD 0 .nan) (d.getD 1 .nan) (d.getD 2 .nan)
  let rc := pick d f.2.2.2
  let at_ := fun (c : Nat × Bool) =>
    fdivVal (fmulExact halfVal (faddExact false (fmulExact rc (pick dd c)) (fmulExact (pick d c) (pick dd f.2.2.2)).neg)) (fmulExact rc rc)
  [at_ f.2.1, at_ f.2.2.1]

/-- A dimension code names a cube. -/
def isCube (dim : Nat) : Bool := dim == 3 || dim == 6

/-- Coordinates that a texel position has besides the layer: 1, 2 or 3. -/
def spatial (dim : Nat) : Nat :=
  match dim with
  | 0 => 1
  | 4 => 1
  | 2 => 3
  | _ => 2

/-- The coordinate registers of a dimension: u, v, w or direction, then the layer (R532). -/
def baseCount (dim : Nat) : Nat := coordCount dim 0 false

/-- Components of a direction or coordinate that derivatives are taken of. -/
def derivCount (dim : Nat) : Nat := if isCube dim then 3 else spatial dim

/-- A sampler request's coordinate register of a lane. -/
def coord (r : SampleRec) (k lane : Nat) : Word := (r.coords.getD k []).getD lane 0#32

/-- Dimension, LOD mode and compare bit of a request (Table 11-3). -/
def reqDim (r : SampleRec) : Nat := r.mod % 8
/-- LOD mode. -/
def reqLod (r : SampleRec) : Nat := r.mod / 8 % 4
/-- The depth-compare bit. -/
def reqCompare (r : SampleRec) : Bool := bitNat r.mod 5

/-- The first register after the coordinates and the reference depth. -/
def lodReg (r : SampleRec) : Nat := baseCount (reqDim r) + natOfBool (reqCompare r)

/-- The difference of a coordinate between two lanes of a quad; 0 where the pair is not wholly active (R533). -/
def laneDiff (r : SampleRec) (k a b : Nat) : FVal :=
  if r.active.getLsbD a && r.active.getLsbD b then faddExact false (f32 (coord r k b)) (f32 (coord r k a)).neg else .fin false 0 0

/-- Derivatives of a lane's coordinates along x and y: gradients, or differences in its quad (R532, R533). -/
def derivs (r : SampleRec) (lane : Nat) : List FVal × List FVal :=
  let n := derivCount (reqDim r)
  let q := lane / 4 * 4
  let raw := if reqLod r = 3 then
      ((List.range n).map fun k => f32 (coord r (lodReg r + k) lane), (List.range n).map fun k => f32 (coord r (lodReg r + n + k) lane))
    else ((List.range n).map fun k => laneDiff r k q (q + 1), (List.range n).map fun k => laneDiff r k q (q + 2))
  if isCube (reqDim r) then
    let d := (List.range 3).map fun k => f32 (coord r k lane)
    (projectDeriv d raw.1, projectDeriv d raw.2)
  else raw

/-- The size of a level along each axis. -/
def axisSizes (x : TexDesc) (dim level : Nat) : List Nat :=
  ([mipSize x.width level, mipSize x.height level, mipSize x.depth level]).take (spatial dim)

/-- The squared length of a derivative in texels of the base level; unnormalised coordinates are texels already. -/
def sqLength (x : TexDesc) (dim : Nat) (unnorm : Bool) (d : List FVal) : FVal :=
  (d.zip (axisSizes x dim 0)).foldl (fun acc e =>
    let v := if unnorm then e.1 else fmulExact e.1 (ofInt e.2)
    faddExact false acc (fmulExact v v)) (.fin false 0 0)

/-- 256 times the binary logarithm of the square root of a value, rounded; none for a NaN. -/
def halfLog2 : FVal → Option Int
  | .nan => none
  | .inf _ => some (2 ^ 16)
  | .fin _ m e => some (if m = 0 then -(2 ^ 16) else ((Nat.log2 (2 * m ^ 256) : Int) + 256 * e) / 2)

/-- A sampler descriptor's words as bytes. -/
def sampBytes (r : SampleRec) : List Byte := wordsLe r.samp

/-- The first word of a sampler descriptor. -/
def sampWord (r : SampleRec) : Nat := fieldAt (sampBytes r) 0 4

/-- A 4.8 number of 16 bits, signed. -/
def signed48 (n : Nat) : Int := if n ≥ 2 ^ 15 then (n : Int) - 2 ^ 16 else n

/-- Anisotropy of a lane: probes, the axis along which they lie is x, and 256 log2 of the footprint (R704).
PRESUMED, unsafe: log 29. -/
def anisotropy (x : TexDesc) (r : SampleRec) (lane fr : Nat) : Nat × Bool × Option Int :=
  let d := derivs r lane
  let dim := reqDim r
  let unnorm := bitNat (sampWord r) 22
  let rx := sqLength x dim unnorm d.1
  let ry := sqLength x dim unnorm d.2
  let alongX := vkCompare 6 (fcompare rx ry)
  let big := if alongX then rx else ry
  let small := if alongX then ry else rx
  let most := 2 ^ legalCode (bitsNat (sampWord r) 15 13) 5 fr
  let covers := fun (n : Nat) => vkCompare 6 (fcompare (fmulExact small (ofInt (n * n))) big)
  let n := ((rangeFrom 1 most).find? covers).getD most
  (n, alongX, halfLog2 (if most = 1 then big else fmaxNum small (fdivVal big (ofInt (most * most)))))

/-- The level of detail of a lane in 1/256, biased and clamped (R704, Table 15-5); a NaN gives a free one.
PRESUMED, unsafe: log 29. -/
def lodOf (x : TexDesc) (r : SampleRec) (lane fr : Nat) : Int :=
  let bs := sampBytes r
  let operand := fixed8 (f32 (coord r (lodReg r) lane))
  let implicit := if r.op = 0x62 && reqLod r = 0 then some 0 else (anisotropy x r lane fr).2.2
  let base := match reqLod r with
    | 2 => operand
    | 1 => match implicit, operand with
      | some a, some b => some (a + b)
      | _, _ => none
    | _ => implicit
  let v := base.getD (Config.freeNat (fr + 1) % 4096)
  let lo : Int := fieldAt bs 6 2
  let hi : Int := fieldAt bs 8 2
  if bitNat (sampWord r) 22 then 0 else min hi (max lo (v + signed48 (fieldAt bs 4 2)))

/-! The plan of a sample -/

/-- One term of a filter: a texel, the border colour, or a value that the spec does not state. -/
inductive Tap where
  | texel (p : TexPos)
  | border
  | free (k : Nat)
  deriving DecidableEq, Repr

/-- A coordinate along an axis after its address mode. -/
inductive Wrapped where
  | at_ (k : Nat)
  | border
  | outside
  deriving DecidableEq, Repr

/-- The mirror of a coordinate. PRESUMED, unsafe: log 29. -/
def mirrored (i : Int) : Int := if 0 ≤ i then i else -(1 + i)

/-- A texel coordinate under an address mode, in the order of VkSamplerAddressMode. -/
def wrapCoord (mode : Nat) (i : Int) (n : Nat) : Wrapped :=
  let clamp := fun (v : Int) => Wrapped.at_ (min (max v 0) ((n : Int) - 1)).toNat
  match mode with
  | 0 => .at_ (i % n).toNat
  | 1 => .at_ ((n : Int) - 1 - mirrored (i % (2 * n) - n)).toNat
  | 2 => clamp i
  | 3 => if 0 ≤ i && i < n then .at_ i.toNat else .border
  | _ => clamp (mirrored i)

/-- A coordinate on a face of a cube. -/
def faceCoord (i : Int) (n : Nat) : Wrapped := if 0 ≤ i && i < n then .at_ i.toNat else .outside

/-- The texels along one axis with weights of 256 for a coordinate in 1/256 texel (R704). PRESUMED, unsafe: log 29. -/
def axisTaps (linear : Bool) (u : Int) : List (Int × Nat) :=
  if linear then
    let v := u - 128
    let f := (v % 256).toNat
    [(v / 256, 256 - f), (v / 256 + 1, f)].filter fun e => e.2 ≠ 0
  else [(u / 256, 256)]

/-- Weighted positions over all axes. -/
def productTaps : List (List (Int × Nat)) → List (List Int × Nat)
  | [] => [([], 1)]
  | ax :: rest => (productTaps rest).flatMap fun r => ax.map fun e => (e.1 :: r.1, e.2 * r.2)

/-- The layer of an array, or of a face (R532, R703): the layer coordinate rounds to nearest and is clamped. -/
def layerOf (x : TexDesc) (dim face : Nat) (c : FVal) : Nat :=
  let n : Int := match roundIntegral 0 c with
    | .fin neg m e => let k := roundShift 0 {} neg m e; if neg then -(k : Int) else k
    | .inf neg => if neg then 0 else 2048
    | .nan => 0
  let at_ := fun (layers : Nat) => (min (max n 0) ((layers : Int) - 1)).toNat
  match dim with
  | 3 => face
  | 4 => at_ x.depth
  | 5 => at_ x.depth
  | 6 => 6 * at_ (max 1 (x.depth / 6)) + face
  | _ => 0

/-- A texel from its position on each axis. -/
def tapAt (x : TexDesc) (r : SampleRec) (dim level layer fr : Nat) (is : List Int) : Tap :=
  let w := sampWord r
  let ns := axisSizes x dim level
  let ws := (is.zip ns).zipIdx.map fun e =>
    if isCube dim then faceCoord e.1.1 e.1.2
    else wrapCoord (legalCode (bitsNat w (6 + 3 * e.2) (4 + 3 * e.2)) 5 (fr + 2 + e.2)) e.1.1 e.1.2
  if ws.contains .outside then .free (fr + 8)
  else if ws.contains .border then .border
  else
    let k := fun (n : Nat) => match ws.getD n (.at_ 0) with
      | .at_ v => v
      | _ => 0
    .texel { level := level, layer := if dim = 2 then k 2 else layer, x := k 0, y := k 1 }

/-- The coordinates of a lane in face or texture space, and its face. -/
def laneCoords (r : SampleRec) (lane : Nat) : Nat × List FVal :=
  let raw := (List.range (derivCount (reqDim r))).map fun k => f32 (coord r k lane)
  if isCube (reqDim r) then projectCube raw else (0, raw)

/-- The weighted taps of one probe at one level; a coordinate that is no number gives a free value. -/
def probeTaps (x : TexDesc) (r : SampleRec) (lane level fr : Nat) (linear : Bool) (cs : List FVal) (face : Nat) : List (Nat × Tap) :=
  let dim := reqDim r
  let unnorm := bitNat (sampWord r) 22
  let layer := layerOf x dim face (f32 (coord r (baseCount dim - 1) lane))
  let us := (cs.zip (axisSizes x dim level)).map fun e => fixed8 (if unnorm then e.1 else fmulExact e.1 (ofInt e.2))
  if us.any Option.isNone then [(256 ^ us.length, .free (fr + 8))]
  else (productTaps (us.map fun u => axisTaps linear (u.getD 0))).map fun e => (e.2, tapAt x r dim level layer fr e.1)

/-- Levels with weights in 1/256 for a level of detail (Table 15-5, MIP). -/
def mipTaps (x : TexDesc) (r : SampleRec) (lod : Int) (fr : Nat) : List (Nat × Nat) :=
  let top := x.levels - 1
  let clamp := fun (v : Int) => (min (max v 0) (top : Int)).toNat
  match legalCode (bitsNat (sampWord r) 3 2) 3 (fr + 5) with
  | 0 => [(0, 256)]
  | 1 => [(clamp ((lod + 127) / 256), 256)]
  | _ =>
    let c := min (max lod 0) (256 * (top : Int))
    let f := (c % 256).toNat
    [(clamp (c / 256), 256 - f), (clamp (c / 256 + 1), f)].filter fun e => e.2 ≠ 0

/-- Coordinates of the i-th of n probes, moved along the major axis (R704). -/
def probeCoords (cs dd : List FVal) (i n : Nat) : List FVal :=
  (cs.zip dd).map fun e =>
    if n = 1 then e.1
    else faddExact false e.1 (fmulExact e.2 (fdivVal (ofInt (2 * (i + 1) - (n + 1 : Nat) : Int)) (ofInt (2 * (n + 1)))))

/-- A plan: outer terms with FP32 scales, each a list of taps with FP32 weights. -/
abbrev Plan := List (Word × List (Word × Tap))

/-- A weight n / d in FP32. -/
def weightWord (n d : Nat) : Word := toF32 0 (ratVal false n d)

/-- The plan of a TEX of a lane: probes of the anisotropic footprint at one or two levels (R704). A format that is not filtered has
no stated result under a linear filter. PRESUMED, unsafe: log 29. -/
def texPlan (x : TexDesc) (r : SampleRec) (lane fr : Nat) : Plan :=
  let lod := lodOf x r lane fr
  let w := sampWord r
  let mips := mipTaps x r lod fr
  let linear := if lod ≤ 0 then bitNat w 0 else bitNat w 1
  let wants := linear || mips.length > 1
  if x.log2s ≠ 0 || (wants && !texFilters x) then [(f32One, [(f32One, .free (fr + 8))])]
  else
    let a := anisotropy x r lane fr
    let n := if reqLod r = 2 then 1 else a.1
    let c := laneCoords r lane
    let d := derivs r lane
    let along := if a.2.1 then d.1 else d.2
    (List.range n).flatMap fun i => mips.map fun m =>
      (weightWord m.2 (256 * n),
        (probeTaps x r lane m.1 fr linear (probeCoords c.2 along i n) c.1).map fun t =>
          (weightWord t.1 (256 ^ spatial (reqDim r)), t.2))

/-- The four texels of a TG4 of a lane, in the order (0, 1), (1, 1), (1, 0), (0, 0). PRESUMED, unsafe: log 29. -/
def gatherTaps (x : TexDesc) (r : SampleRec) (lane fr : Nat) : List Tap :=
  let dim := reqDim r
  let level := ((mipTaps x r (lodOf x r lane fr) fr).headD (0, 256)).1
  let c := laneCoords r lane
  let layer := layerOf x dim c.1 (f32 (coord r (baseCount dim - 1) lane))
  let unnorm := bitNat (sampWord r) 22
  let us := (c.2.zip (axisSizes x dim level)).map fun e => fixed8 (if unnorm then e.1 else fmulExact e.1 (ofInt e.2))
  [(0, 1), (1, 1), (1, 0), (0, 0)].map fun (o : Int × Int) =>
    if x.log2s ≠ 0 || us.any Option.isNone then .free (fr + 8)
    else
      let is := us.zipIdx.map fun u => (u.1.getD 0 - 128) / 256 + (if u.2 = 0 then o.1 else if u.2 = 1 then o.2 else 0)
      tapAt x r dim level layer fr is

/-- The texel of a TLD of a lane: integer coordinates, layer, sample and level (R532, R703); one that does not exist has no stated
value. DESIGN CHOICE, safe: log 30. -/
def fetchTap (x : TexDesc) (r : SampleRec) (lane fr : Nat) : Tap :=
  let dim := reqDim r
  let n := baseCount dim
  let k := fun (i : Nat) => (coord r i lane).toNat
  let multi := x.log2s ≠ 0
  let level := if reqLod r = 2 then k (lodReg r + natOfBool multi) else 0
  let layered := 4 ≤ dim || isCube dim
  let layer := if layered then k (n - 1) else 0
  let sp := spatial dim
  let y := if sp ≥ 2 then k 1 else 0
  let z := if sp = 3 then k 2 else 0
  let smp := if multi then k n else 0
  let inside := level < x.levels && k 0 < mipSize x.width level && y < mipSize x.height level &&
    (sp < 3 || z < mipSize x.depth level) && (!layered || layer < x.depth) && smp < 2 ^ x.log2s
  if inside then .texel { level := level, layer := if dim = 2 then z else layer, x := k 0, y := y, sample := smp } else .free (fr + 8)

/-- Free values that one lane of a request may use. -/
def freePerSample : Nat := 16

/-- The plan of a request for a lane; TG4 has one outer term for each texel. DESIGN CHOICE, safe: log 30. -/
def lanePlan (r : SampleRec) (lane fr : Nat) : Plan :=
  let x := texDesc r.tex
  let fr := fr + freePerSample * lane
  match r.op with
  | 0x60 => texPlan x r lane fr
  | 0x61 => [(f32One, [(f32One, fetchTap x r lane fr)])]
  | _ => (gatherTaps x r lane fr).map fun t => (f32One, [(f32One, t)])

/-- The texels that a plan reads. -/
def planTexels (p : Plan) : List TexPos :=
  (p.flatMap fun e => e.2.filterMap fun t => match t.2 with
    | .texel q => some q
    | _ => none).eraseDups

/-- The border colour (Table 15-5). -/
def borderColour (x : TexDesc) (r : SampleRec) (fr : Nat) : List Word :=
  let one := texOne x
  match legalCode (bitsNat (sampWord r) 21 20) 3 (fr + 6) with
  | 0 => [0#32, 0#32, 0#32, 0#32]
  | 1 => [0#32, 0#32, 0#32, one]
  | _ => [one, one, one, one]

/-- Comparison applies: the request carries a reference and the sampler enables it (R532, R704). -/
def compares (r : SampleRec) : Bool := reqCompare r && r.op != 0x61 && bitNat (sampWord r) 19

/-- A texel compared with the reference depth: 1.0 or 0.0 in the first component (R704). -/
def compareTexel (x : TexDesc) (r : SampleRec) (lane : Nat) (c : List Word) : List Word :=
  let ref := coord r (baseCount (reqDim r)) lane
  let ref := if (depthUnorm x.format).isSome then toF32 0 (saturate (f32 ref)) else ref
  let pass := vkCompare (bitsNat (sampWord r) 18 16) (fcompare (f32 ref) (f32 (chan c 0)))
  [if pass then f32One else f32Zero, 0#32, 0#32, f32One]

/-- Four components weighted and added in FP32. -/
def addScaled (acc : List Word) (k : Word) (c : List Word) : List Word :=
  (List.range 4).map fun ch => f32Add (chan acc ch) (f32Mul k (chan c ch))

/-- A list of weighted colours in FP32; a single term of weight 1 is itself. -/
def mixColours : List (Word × List Word) → List Word
  | [(k, c)] => if k = f32One then c else addScaled (List.replicate 4 0#32) k c
  | l => l.foldl (fun acc e => addScaled acc e.1 e.2) (List.replicate 4 0#32)

/-- The result of a request for a lane from the texels read (R704). PRESUMED, unsafe: log 29. -/
def sampleResult (r : SampleRec) (lane fr : Nat) (texel : TexPos → List Word) : List Word :=
  let x := texDesc r.tex
  let f := fr + freePerSample * lane
  let tap := fun (t : Tap) =>
    let c := match t with
      | .texel p => texel p
      | .border => borderColour x r f
      | .free k => (List.range 4).map fun i => Config.freeWord (k + i)
    if compares r then compareTexel x r lane c else c
  let plan := lanePlan r lane fr
  if r.op = 0x62 then
    (List.range 4).map fun k => chan (texSwizzle x (mixColours (((plan.getD k (f32One, [])).2).map fun e => (e.1, tap e.2))) (f + 12)) 0
  else texSwizzle x (mixColours (plan.map fun e => (e.1, mixColours (e.2.map fun t => (t.1, tap t.2))))) (f + 12)

end Sys2Proof.Machine
end

