-- ==== Sys2Proof/Machine/Texture.lean ====
section
/-!
DEFINITION. Sampler instructions and the return of their data (R532, R702 to R705, R713).
-/

namespace Sys2Proof.Machine

/-- A sampler record of a group that is written once per packet (R713). -/
def texRec (s : State) (slot : Nat) (g : Group) (code : Nat) (addr : RecAddr) (pc : Nat) (lanes : Word) (w : Insn) : ErrRec :=
  { groupRec s slot g code addr pc lanes w 0 with scope := 0, dest := destOf s [.t] (some g.ctx.tenant) none }

/-- The request of a sampler instruction (R532). -/
def sampleReq (g : Group) (iw : IWord) (w : Insn) (pc : Nat) (active : Word) (num : Nat) : SampleRec :=
  let n := coordCount (iw.mod % 8) (iw.mod / 8 % 4) (bitNat iw.mod 5) + 1
  { num := num, op := iw.op, reg := iw.d, lanes := lanesOf (runMask g iw active), active := active, mod := iw.mod
    tex := (rangeFrom iw.b 8).map (sreg g), samp := if iw.ck = 1 then (rangeFrom iw.c 4).map (sreg g) else []
    coords := (rangeFrom iw.a n).map fun k => (List.range 32).map (vreg g k)
    pc := pc, base := w.base, ext := w.ext }

/-- A quad written to the lanes of a request. -/
def putQuads (g : Group) (r : SampleRec) (f : Nat → List Word) : Group :=
  r.lanes.foldl (fun g l => putWords g false r.reg l (f l)) g

/-- The byte ranges of the texels that a request reads, by lane. -/
def requestSpans (r : SampleRec) (fr : Nat) : List (Nat × Nat) :=
  let x := texDesc r.tex
  (r.lanes.flatMap fun l => (planTexels (lanePlan r l fr)).map fun p => texelVa x (reqDim r) p).eraseDups

/-- The reads of a request: one for each line (R471); a translation fault with its address. -/
def samplerReads (s : State) (slot : Nat) (g : Group) (r : SampleRec) (spans : List (Nat × Nat)) : List Access :=
  let vas := spans.map Prod.fst
  let width := (spans.headD (0, 1)).2
  requests s g (.sampler slot r.num) .load width (vas.map fun a => (0, a)) fun _ _ _ => [.read]

/-- Free values that a request may use. -/
def freePerRequest : Nat := 1024

/-- TEX, TLD and TG4: a bad descriptor returns zeros; otherwise the texels of every executing lane are read (R532, R704, Table
15-9). -/
def samplerBody (w : Insn) : Body := fun s slot g iw pc active _ =>
  let r := sampleReq g iw w pc active g.nextLoad
  if r.lanes.isEmpty then putGroup s slot (advance g iw pc active)
  else if !mayAccess s slot g then s
  else if texBad (texDesc r.tex) (reqDim r) then
    let s := detect s (texRec s slot g 0x0612 .none pc (maskOf r.lanes) w)
    putGroup s slot (advance (putQuads g r fun _ => List.replicate 4 0#32) iw pc active)
  else
    let r := { r with free := s.free }
    let s : State := { s with free := s.free + freePerRequest }
    let spans := requestSpans r r.free
    match laneFault s g.ctx .load 1 (spans.map fun e => (0, e.1)) with
    | some (code, va) => groupFault s slot g code (.va va) pc active w
    | none =>
      let as := samplerReads s slot g r spans
      let g : Group := { g with samples := g.samples ++ [r], nextLoad := g.nextLoad + 1, fence := none }
      putGroup (as.foldl enterFabric s) slot (advance g iw pc active)

/-- TEX (0x60): d[0..3] = the filtered sample. -/
def execTex (slot : Nat) (w : Insn) (t : Stamp) (s : State) : Out := issue slot w t s (· == 0x60) (samplerBody w)

/-- TLD (0x61): d[0..3] = the unfiltered texel at integer coordinates. -/
def execTld (slot : Nat) (w : Insn) (t : Stamp) (s : State) : Out := issue slot w t s (· == 0x61) (samplerBody w)

/-- TG4 (0x62): d[0..3] = one component of the 2 × 2 footprint. -/
def execTg4 (slot : Nat) (w : Insn) (t : Stamp) (s : State) : Out := issue slot w t s (· == 0x62) (samplerBody w)

/-- TQRY (0x63): d[0..3] = width, height, depth or layers, and levels of the texture. -/
def execTqry (slot : Nat) (w : Insn) (t : Stamp) (s : State) : Out :=
  issue slot w t s (· == 0x63) fun s slot g iw pc active _ =>
    let r := sampleReq g iw w pc active 0
    let x := texDesc r.tex
    if r.lanes.isEmpty then putGroup s slot (advance g iw pc active)
    else
      let bad := texBad x (reqDim r)
      let s := if bad then detect s (texRec s slot g 0x0612 .none pc (maskOf r.lanes) w) else s
      let size := if bad then List.replicate 4 0#32 else [x.width, x.height, x.depth, x.levels].map (BitVec.ofNat 32)
      putGroup s slot (advance (putQuads g r fun _ => size) iw pc active)

/-- The texel that a request read, from the answers of its lines: (0, 0, 0, 1) where its sector is poison (Table 15-9). -/
def readTexel (x : TexDesc) (dim : Nat) (as : List (Nat × Access)) (p : TexPos) : List Word :=
  let (va, b) := texelVa x dim p
  match as.find? fun e => e.2.va = va / 128 * 128 with
  | none => List.replicate 4 0#32
  | some e =>
    let bad := e.2.poison && (e.2.fillPoison.isEmpty || e.2.fillPoison.getD (va % 128 / 32) false)
    if bad then [0#32, 0#32, 0#32, texOne x] else decodeTexel x p ((e.2.bytes.drop (va % 128)).take b)

/-- SAMPLER_RETURN: every line of a sampler request has answered: the filtered data goes to its registers, with poisoned texels
replaced and TEX_POISON written once per packet (R704, R713). -/
def execSamplerReturn (slot num : Nat) (t : Stamp) (s : State) : Out :=
  let s := s.upTo t
  match getGroup s slot with
  | none => .next s
  | some g =>
    match g.samples.find? fun r => r.num = num with
    | none => .next s
    | some r =>
      let as := s.traffic.accesses.filter fun e => e.2.client == .sampler slot num
      let waits := g.stopped || g.replays.any fun a => a.client == .sampler slot num
      if waits || !(as.all fun e => e.2.stage == .answered) then .next s
      else
        let s := match as.find? fun e => e.2.poison with
          | some e => noteOnce s g.queue g.pkt
              (texRec s slot g 0x0610 (.va e.2.va) r.pc (maskOf r.lanes) { base := r.base, ext := r.ext })
          | none => s
        let s := as.foldl (fun s e => removeAccess s e.1) s
        let g := putQuads g r fun l => sampleResult r l r.free (readTexel (texDesc r.tex) (reqDim r) as)
        let g : Group := { g with samples := g.samples.filter fun x => x.num ≠ num }
        .next (reapGroup (putGroup s slot g) slot)

end Sys2Proof.Machine
end

