-- ==== Sys2Proof/Machine/Tile.lean ====
section
/-!
DEFINITION. Tile backends (spec 15): the assignment of tiles, fragment thread groups, and the end of a tile's flush.
-/

namespace Sys2Proof.Machine

/-- A frame has tiles to hand out: a partial render flush's, or all of them once FRAME_END's draws are binned (R656, R679). -/
def frameTiles (f : Frame) : List Nat :=
  if f.flushing then f.todo
  else if f.endPkt.isNone || !f.draws.isEmpty then []
  else if f.rendering then f.todo else List.range f.tileCount

/-- A queue's frame may take tiles: it is placeable, and a pre-emption lets its packets complete (R706, Table 17-1). -/
def mayTile (s : State) (q : QueueId) : Bool :=
  placeable s q && (match (getQueue s q).bind Queue.preempting with
    | some 0 => false
    | some 1 => false
    | _ => true) && match getFrame s q with
    | some f => !(frameTiles f).isEmpty
    | none => false

/-- The next tile of a frame, and the frame without it. -/
def popTile (f : Frame) : Option (Nat × Frame) :=
  match frameTiles f with
  | [] => none
  | k :: rest => some (k, { f with todo := rest, rendering := f.rendering || !f.flushing })

/-- The primitives of a tile in PRIM_SEQ order: its bin and the wide list (R651, R681). -/
def tilePrims (f : Frame) (tile : Nat) : List Nat :=
  let mine := tblGetD f.bins tile [] ++ tblGetD f.bins f.tileCount []
  (List.range f.prims.length).filter mine.contains

/-- The core's cluster may render for a context: shared or exclusive to it, neither backend nor core under FORCE_OFF (R679,
R710). DEDUCED, unsafe: log 27. -/
def tileAllowed (s : State) (core : Nat) (c : CtxId) : Bool :=
  coreAllows s core { ctx := c, groups := 1, vregs := 1, ls := 0, drive := none } && (getDom s (65 + core / 4)).policy != .forceOff

/-- FLUSHES at the start of a pass: a partial render flush belongs to the pass that it ends (R682, R694).
DEDUCED, unsafe: log 27. -/
def passNumber (f : Frame) : Nat := f.flushes - natOfBool f.flushing

/-- TILE_ASSIGN: the next tile of a queue's frame is taken by the backend of a core's cluster, to render on that core, and its
load phase starts with the reads of its bin; domains that are off are woken (R457, R679, R680, R714, R753, R758). -/
def execTileAssign (q : QueueId) (core : Nat) (t : Stamp) (s : State) : Out :=
  let s := s.upTo t
  let outranks := fun (e : QueueId × Frame) => e.1 != q && mayTile s e.1 && tileAllowed s core e.1.ctx && lexLt (queueKey s e.1) (queueKey s q)
  if !mayTile s q || !tileAllowed s core q.ctx || s.gfx.frames.any outranks then .next s
  else if !domOn s (65 + core / 4) then .next (requestWake s (65 + core / 4))
  else if !domOn s core then .next (requestWake s core)
  else if (getTile s core).isSome || localUsed s core (fun _ => false) > 0x20000 then .next s
  else match (getFrame s q).bind popTile with
    | none => .next s
    | some (tile, f) =>
      let fr := s.free
      let s := useLocal { s with free := s.free + freePerIssue } core 0x10000
      let tl : Tile := { queue := q, tile := tile, part := f.flushing, samples := initialSamples f tile fr
                         todo := tilePrims f tile, pass := passNumber f }
      .next (startBins (startLoad (putTile (modFrame s q fun _ => f) core tl) core q f tile) core q f tile)

/-- v2 of a lane of a quad (Table 15-4). -/
def quadWord (prim : Prim) (q : Quad) (cov : Nat) : Word :=
  BitVec.ofNat 32 (cov + 256 * natOfBool prim.front + 512 * natOfBool (cov = 0) + 1024 * q.sample.getD 0)

/-- The vector registers of a fragment group: x, y, coverage and PRIM_ID of each lane (Table 15-4). -/
def quadRegs (f : Frame) (qs : List Quad) : List (List Word) :=
  let lanes := qs.flatMap fun q => (q.pixels.zip q.cov).map fun e =>
    match primAt f q.prim with
    | some (p, _) => (e.1.1, e.1.2, quadWord p q e.2, p.id)
    | none => (0, 0, 0#32, 0)
  let col := fun (g : Nat × Nat × Word × Nat → Word) => padWords (lanes.map g)
  [col fun l => BitVec.ofNat 32 l.1, col fun l => BitVec.ofNat 32 l.2.1, col fun l => l.2.2.1, col fun l => BitVec.ofNat 32 l.2.2.2]
where
  /-- 32 lanes. -/
  padWords (l : List Word) : List Word := (l ++ List.replicate 32 0#32).take 32

/-- The helper lanes of quads (R695). -/
def quadHelpers (qs : List Quad) : Word :=
  maskOf ((qs.flatMap Quad.cov).zipIdx.filterMap fun e => if e.1 = 0 then some e.2 else none)

/-- A group of quads launches on its tile's core (R694, Table 15-4). -/
def launchQuads (s : State) (core : Nat) (f : Frame) (tl : Tile) (d : Draw) (qs : List Quad) (args : List Byte) : State :=
  let n := tl.nextGroup
  let mk := fun (sched slot wg : Nat) =>
    graphicsGroup s tl.queue d (.fragment n) core sched slot wg (fprogVa d) (fieldAt d.state 0x90 1) (fieldAt d.state 0x40 4)
      (fieldAt d.state 0x48 6) args tl.tile d.index n (tl.tile, n, tl.pass) (quadRegs f qs) (4 * qs.length) (quadHelpers qs)
  match placeGraphics s tl.queue core mk with
  | some (slot, s) =>
    putTile s core { tl with
      quads := tl.quads.drop qs.length, nextGroup := n + 1
      groups := tl.groups ++ [{ num := n, draw := d.index, quads := qs, slot := slot }] }
  | none => s

/-- FRAGMENT_GROUP_LAUNCH: the next closed group of quads of the tile on a core launches there, where its registers and slot fit
(R693, R694). -/
def execFragmentGroupLaunch (core : Nat) (t : Stamp) (s : State) : Out :=
  let s := tileAdvance (s.upTo t) core
  match getTile s core with
  | none => .next s
  | some tl =>
    match getFrame s tl.queue, tl.quads with
    | some f, (k, _) :: _ =>
      match drawAt f k with
      | none => .next s
      | some d =>
        let n := graphicsNeed tl.queue (fieldAt d.state 0x90 1)
        if !placeable s tl.queue || !domOn s core || !fits s core n then .next s
        else
          let argVa := fieldAt d.state 0x88 6
          .next (withArgs s tl.queue d.tag core argVa fun s bs => launchQuads s core f tl d (nextQuads tl) bs)
    | _, _ => .next s

/-- TILE_FLUSH_DONE: the flush of a tile whose list is done is sent, and once its writes are acknowledged the tile is done and its
TILE lines are ordinary (R389, R680, R684). A tile with nothing to write is done at once. -/
def execTileFlushDone (core : Nat) (t : Stamp) (s : State) : Out :=
  let s := tileAdvance (s.upTo t) core
  match getTile s core with
  | none => .next s
  | some tl =>
    match getFrame s tl.queue with
    | none => .next s
    | some f =>
      let s := if tl.listDone then putTile (flushWrites s core f tl) core { tl with phase := .flush } else s
      match getTile s core with
      | none => .next s
      | some tl =>
        if tl.phase = .flush && (tileAccesses s core).isEmpty then .next (finishTile s core f tl) else .next s

end Sys2Proof.Machine
end

