-- ==== Sys2Proof/Machine/Transfer.lean ====
section
/-!
DEFINITION. The transfer packets, the acquisition of channels, the return of read data, and the completion pulse (spec 16).
-/

namespace Sys2Proof.Machine

/-- A transfer packet starts: a bad field, a refusal that moves no byte, or a packet that waits for its channel, which CHANNEL_ACQUIRE
gives to the first in order of the packets that name it (R716, R717, R719, R731, R741, R747, R748). -/
def startXfer (s : State) (q : QueueId) (p : Pkt) (bs : List Byte) : State :=
  let o := xferOf s q p bs
  if xferBad o then badField s q p
  else match xferRefused s o with
    | some code => xferError s o code o.dst 0
    | none =>
      let s := requestWake s 71
      { s with xfer := { s.xfer with waiting := s.xfer.waiting ++ [o] } }

/-- XFER_COPY (0x80): bytes are copied on the named channel. -/
def execXferCopy (q : QueueId) (t : Stamp) (s : State) : Out :=
  .next (packetRow (s.upTo t) q 0x80 anyBytes anyTime fun s p bs => startXfer s q p bs)

/-- XFER_COPY2D (0x81): rows are copied with pitches. -/
def execXferCopy2d (q : QueueId) (t : Stamp) (s : State) : Out :=
  .next (packetRow (s.upTo t) q 0x81 anyBytes anyTime fun s p bs => startXfer s q p bs)

/-- XFER_FILL (0x82): the destination is filled with the pattern. -/
def execXferFill (q : QueueId) (t : Stamp) (s : State) : Out :=
  .next (packetRow (s.upTo t) q 0x82 anyBytes anyTime fun s p bs => startXfer s q p bs)

/-- CHANNEL_ACQUIRE: a free channel goes to the highest-ranked waiting packet (R716, R741); the domain must be on. -/
def execChannelAcquire (ch : Nat) (t : Stamp) (s : State) : Out :=
  let s := s.upTo t
  .next (if isOpen s && timed s then takeChannel s ch else s)

/-- Channels of an engine with read data ready for their buffers. -/
def channelsReady (s : State) (engine : Nat) : List Nat :=
  (s.traffic.accesses.filterMap fun e => match e.2.client with
    | .xferRead _ c _ => if e.2.stage == .answered && c / 16 == engine then some c else none
    | _ => none).eraseDups

/-- The channel whose beat the read side of an engine accepts: a high-priority one first, round-robin within a class (R724).
DEDUCED, unsafe: log 24. -/
def servedChannel (s : State) (engine : Nat) : Option Nat := servedBeat s engine false (channelsReady s engine)

/-- The data of a returned read: its bytes of the source line with their poison. -/
def pieceOf (o : XferOp) (off : Nat) (a : Access) : List (Byte × Bool) :=
  let lo := o.srcAt off % 128
  (rangeFrom lo (o.readLen off)).map fun k => (a.bytes.getD k 0#8, bytePoison a k)

/-- Pieces that continue the buffer join it. -/
def absorbPieces (o : XferOp) : Nat → XferOp
  | 0 => o
  | k + 1 =>
    match o.pieces.find? fun e => e.1 == o.base + o.buf.length with
    | some e => absorbPieces { o with buf := o.buf ++ e.2, pieces := o.pieces.filter fun x => x.1 != e.1 } k
    | none => o

/-- Data with an uncorrectable error of the staging buffer in some of its 8-byte words, which is poison (R745, Table 16-6). -/
def spoil (bad : List Nat) (l : List (Byte × Bool)) : List (Byte × Bool) :=
  l.zipIdx.map fun e => (e.1.1, e.1.2 || bad.contains (e.2 / 8))

/-- XFER_READ_RETURN: read data enters its channel's staging buffer, and the channel goes on (R722 to R724, R730, R745). `bad` are
the 8-byte words of the data in which the buffer's SECDED finds an uncorrectable error. -/
def execXferReadReturn (n : Nat) (bad : List Nat) (t : Stamp) (s : State) : Out :=
  let s := s.upTo t
  match getAccess s n with
  | none => .next s
  | some a =>
    match a.client with
    | .xferRead _ ch off =>
      match tblGet s.xfer.active ch with
      | none => .next s
      | some o =>
        if s.lock.mode = .halted || a.stage ≠ .answered || servedChannel s (ch / 16) ≠ some ch then .next s
        else
          let s := removeAccess s n
          let o : XferOp := { o with pieces := o.pieces ++ [(off, spoil bad (pieceOf o off a))] }
          let o := absorbPieces o o.pieces.length
          .next (pumpXfer (beatServed (putXfer s o) ch false) ch)
    | _ => .next s

/-- XFER_COMPLETION_PULSE: the last write has left the engine's NI: the packet completes and the channel frees (R732, R738). A
fill with bytes left writes its next 4 KiB, and a stopping channel writes what it holds (R735). -/
def execXferCompletionPulse (ch : Nat) (t : Stamp) (s : State) : Out :=
  let s := s.upTo t
  match tblGet s.xfer.active ch with
  | none => .next s
  | some o =>
    if s.lock.mode = .halted || writesAtNi s ch then .next s
    else if o.written ≥ o.total then
      .next (completePkt { s with xfer := { s.xfer with active := tblErase s.xfer.active ch } } o.queue o.pkt)
    else if o.type = 0x82 || (o.stopping && !readsOut s ch) then .next (pumpXfer s ch)
    else .next s

end Sys2Proof.Machine
end

