-- ==== Sys2Proof/Machine/Dispatch.lean ====
section
/-!
DEFINITION. The dispatch of commands to their meanings, one arm per constructor.
-/

namespace Sys2Proof.Machine

def exec (i : Instr) (s : State) : Host.Outcome State Fault Refusal :=
  match i with
  | .registerWrite fn bar4 off size value ep t => Sys2Proof.Machine.execRegisterWrite fn bar4 off size value ep t s
  | .resetNAssert => Sys2Proof.Machine.execResetNAssert s
  | .resetNRise straps => Sys2Proof.Machine.execResetNRise straps s
  | .brownOut rail => Sys2Proof.Machine.execBrownOut rail s
  | .brownOutRelease straps => Sys2Proof.Machine.execBrownOutRelease straps s
  | .metronomeLock checks => Sys2Proof.Machine.execMetronomeLock checks s
  | .metronomeLockTimeout => Sys2Proof.Machine.execMetronomeLockTimeout s
  | .lpddrTrainingDone failed density2g ranks2 t => Sys2Proof.Machine.execLpddrTrainingDone failed density2g ranks2 t s
  | .warmResetComplete checks failed t => Sys2Proof.Machine.execWarmResetComplete checks failed t s
  | .domainIdleOff d t => Sys2Proof.Machine.execDomainIdleOff d t s
  | .domainWake d t => Sys2Proof.Machine.execDomainWake d t s
  | .domainOffDone d t => Sys2Proof.Machine.execDomainOffDone d t s
  | .forceOffDrained d t => Sys2Proof.Machine.execForceOffDrained d t s
  | .crystalLoss t => Sys2Proof.Machine.execCrystalLoss t s
  | .crystalReturn => Sys2Proof.Machine.execCrystalReturn s
  | .thermtrip => Sys2Proof.Machine.execThermtrip s
  | .sensorRefresh readings t => Sys2Proof.Machine.execSensorRefresh readings t s
  | .governorSample counts activity estDone t => Sys2Proof.Machine.execGovernorSample counts activity estDone t s
  | .governorOutput computed t => Sys2Proof.Machine.execGovernorOutput computed t s
  | .spmiFrameDone ok t => Sys2Proof.Machine.execSpmiFrameDone ok t s
  | .govSaturation t => Sys2Proof.Machine.execGovSaturation t s
  | .govFlagClear fn value t => Sys2Proof.Machine.execGovFlagClear fn value t s
  | .metroLoRead fn size t => Sys2Proof.Machine.execMetroLoRead fn size t s
  | .perstAssert p t => Sys2Proof.Machine.execPerstAssert p t s
  | .perstDeassert p t => Sys2Proof.Machine.execPerstDeassert p t s
  | .dlDown p t => Sys2Proof.Machine.execDlDown p t s
  | .linkUp p speed width t => Sys2Proof.Machine.execLinkUp p speed width t s
  | .linkRetrain p speed width t => Sys2Proof.Machine.execLinkRetrain p speed width t s
  | .configRequest fn req t => Sys2Proof.Machine.execConfigRequest fn req t s
  | .numvfsWrite p n t => Sys2Proof.Machine.execNumvfsWrite p n t s
  | .vfEnableSet p t => Sys2Proof.Machine.execVfEnableSet p t s
  | .vfReady fn t => Sys2Proof.Machine.execVfReady fn t s
  | .vfEnableClear p t => Sys2Proof.Machine.execVfEnableClear p t s
  | .flrInitiate fn t => Sys2Proof.Machine.execFlrInitiate fn t s
  | .flrComplete fn t => Sys2Proof.Machine.execFlrComplete fn t s
  | .d3hotEnter fn t => Sys2Proof.Machine.execD3hotEnter fn t s
  | .d3hotExit fn t => Sys2Proof.Machine.execD3hotExit fn t s
  | .busMasterEnable fn t => Sys2Proof.Machine.execBusMasterEnable fn t s
  | .msixUnmask fn vector t => Sys2Proof.Machine.execMsixUnmask fn vector t s
  | .bar2Read fn off len t => Sys2Proof.Machine.execBar2Read fn off len t s
  | .bar2Write fn off bytes ep t => Sys2Proof.Machine.execBar2Write fn off bytes ep t s
  | .tagGrant n tag t => Sys2Proof.Machine.execTagGrant n tag t s
  | .completionRx p tag status bytes t => Sys2Proof.Machine.execCompletionRx p tag status bytes t s
  | .completionTimeout n t => Sys2Proof.Machine.execCompletionTimeout n t s
  | .tagQuarantineExpire p tag t => Sys2Proof.Machine.execTagQuarantineExpire p tag t s
  | .malformedTlp p kind header t => Sys2Proof.Machine.execMalformedTlp p kind header t s
  | .mbxGo slot value t => Sys2Proof.Machine.execMbxGo slot value t s
  | .mbxAck slot value t => Sys2Proof.Machine.execMbxAck slot value t s
  | .nop slot t => Sys2Proof.Machine.execNop slot t s
  | .tenantInfo slot t => Sys2Proof.Machine.execTenantInfo slot t s
  | .ctxCreate slot t => Sys2Proof.Machine.execCtxCreate slot t s
  | .ctxDestroy slot t => Sys2Proof.Machine.execCtxDestroy slot t s
  | .ctxReset slot t => Sys2Proof.Machine.execCtxReset slot t s
  | .ctxSet slot t => Sys2Proof.Machine.execCtxSet slot t s
  | .qCreate slot t => Sys2Proof.Machine.execQCreate slot t s
  | .qDestroy slot t => Sys2Proof.Machine.execQDestroy slot t s
  | .qSet slot t => Sys2Proof.Machine.execQSet slot t s
  | .memAlloc slot t => Sys2Proof.Machine.execMemAlloc slot t s
  | .memFree slot t => Sys2Proof.Machine.execMemFree slot t s
  | .memMap slot t => Sys2Proof.Machine.execMemMap slot t s
  | .memUnmap slot t => Sys2Proof.Machine.execMemUnmap slot t s
  | .segAcquire slot t => Sys2Proof.Machine.execSegAcquire slot t s
  | .segRelease slot t => Sys2Proof.Machine.execSegRelease slot t s
  | .vatMaintClean slot t => Sys2Proof.Machine.execVatMaintClean slot t s
  | .vatMaintInvalidate slot t => Sys2Proof.Machine.execVatMaintInvalidate slot t s
  | .vatMaintCleanInvalidate slot t => Sys2Proof.Machine.execVatMaintCleanInvalidate slot t s
  | .queryCtx slot t => Sys2Proof.Machine.execQueryCtx slot t s
  | .admGrant slot t => Sys2Proof.Machine.execAdmGrant slot t s
  | .admRevoke slot t => Sys2Proof.Machine.execAdmRevoke slot t s
  | .admTenantReset slot t => Sys2Proof.Machine.execAdmTenantReset slot t s
  | .admPartCfg slot t => Sys2Proof.Machine.execAdmPartCfg slot t s
  | .admShareExport slot t => Sys2Proof.Machine.execAdmShareExport slot t s
  | .admShareImport slot t => Sys2Proof.Machine.execAdmShareImport slot t s
  | .admShareRevoke slot t => Sys2Proof.Machine.execAdmShareRevoke slot t s
  | .admTenantInfo slot t => Sys2Proof.Machine.execAdmTenantInfo slot t s
  | .admPortShare slot t => Sys2Proof.Machine.execAdmPortShare slot t s
  | .govSet slot t => Sys2Proof.Machine.execGovSet slot t s
  | .govGet slot t => Sys2Proof.Machine.execGovGet slot t s
  | .pwrPolicy slot t => Sys2Proof.Machine.execPwrPolicy slot t s
  | .pwrIdleOff slot t => Sys2Proof.Machine.execPwrIdleOff slot t s
  | .vatConvertToScratchpad slot t => Sys2Proof.Machine.execVatConvertToScratchpad slot t s
  | .vatConvertToCache slot t => Sys2Proof.Machine.execVatConvertToCache slot t s
  | .clusterModeExclusive slot t => Sys2Proof.Machine.execClusterModeExclusive slot t s
  | .clusterModeShared slot t => Sys2Proof.Machine.execClusterModeShared slot t s
  | .streamCfg slot t => Sys2Proof.Machine.execStreamCfg slot t s
  | .warmReset slot t => Sys2Proof.Machine.execWarmReset slot t s
  | .sepiaEnter slot t => Sys2Proof.Machine.execSepiaEnter slot t s
  | .composeCopy slot ahead t => Sys2Proof.Machine.execComposeCopy slot ahead t s
  | .composeFill slot ahead t => Sys2Proof.Machine.execComposeFill slot ahead t s
  | .composeBlend slot ahead t => Sys2Proof.Machine.execComposeBlend slot ahead t s
  | .dbRing fn doorbell t => Sys2Proof.Machine.execDbRing fn doorbell t s
  | .linkWordArrive q t => Sys2Proof.Machine.execLinkWordArrive q t s
  | .tailPoll q t => Sys2Proof.Machine.execTailPoll q t s
  | .chainTorn q t => Sys2Proof.Machine.execChainTorn q t s
  | .deadlineMiss q t => Sys2Proof.Machine.execDeadlineMiss q t s
  | .nopPacket q t => Sys2Proof.Machine.execNopPacket q t s
  | .fenceWrite q t => Sys2Proof.Machine.execFenceWrite q t s
  | .fenceAdd q t => Sys2Proof.Machine.execFenceAdd q t s
  | .fenceMax q t => Sys2Proof.Machine.execFenceMax q t s
  | .fenceStamp q t => Sys2Proof.Machine.execFenceStamp q t s
  | .wait q t => Sys2Proof.Machine.execWait q t s
  | .waitReevaluate q t => Sys2Proof.Machine.execWaitReevaluate q t s
  | .waitTimeout q t => Sys2Proof.Machine.execWaitTimeout q t s
  | .semAcquire q t => Sys2Proof.Machine.execSemAcquire q t s
  | .semRelease q t => Sys2Proof.Machine.execSemRelease q t s
  | .marker q t => Sys2Proof.Machine.execMarker q t s
  | .linesResidentSample t => Sys2Proof.Machine.execLinesResidentSample t s
  | .lpddrRead what ecc t => Sys2Proof.Machine.execLpddrRead what ecc t s
  | .lpddrWriteBack n ecc vat t => Sys2Proof.Machine.execLpddrWriteBack n ecc vat t s
  | .oscTracking ch ok t => Sys2Proof.Machine.execOscTracking ch ok t s
  | .lpddrRefresh ch rfm t => Sys2Proof.Machine.execLpddrRefresh ch rfm t s
  | .vatLoad n lru ecc tags t => Sys2Proof.Machine.execVatLoad n lru ecc tags t s
  | .vatStore n lru ecc tags t => Sys2Proof.Machine.execVatStore n lru ecc tags t s
  | .vatAtomic n lru ecc tags t => Sys2Proof.Machine.execVatAtomic n lru ecc tags t s
  | .vatFillReturn n lru t => Sys2Proof.Machine.execVatFillReturn n lru t s
  | .patrolScrub slice set way ecc tags t => Sys2Proof.Machine.execPatrolScrub slice set way ecc tags t s
  | .admissionAttempt n t => Sys2Proof.Machine.execAdmissionAttempt n t s
  | .windowBoundary part t => Sys2Proof.Machine.execWindowBoundary part t s
  | .heldReattempt ni part t => Sys2Proof.Machine.execHeldReattempt ni part t s
  | .flitAged k => Sys2Proof.Machine.execFlitAged k s
  | .routerFlitArrive n router flit ecc grants upset t => Sys2Proof.Machine.execRouterFlitArrive n router flit ecc grants upset t s
  | .fabricTimeout n t => Sys2Proof.Machine.execFabricTimeout n t s
  | .routeTablePatrol upset t => Sys2Proof.Machine.execRouteTablePatrol upset t s
  | .routeParityStorm t => Sys2Proof.Machine.execRouteParityStorm t s
  | .dispatch q t => Sys2Proof.Machine.execDispatch q t s
  | .dispatchIndirect q t => Sys2Proof.Machine.execDispatchIndirect q t s
  | .workgroupPlace d core t => Sys2Proof.Machine.execWorkgroupPlace d core t s
  | .placementReserve d core t => Sys2Proof.Machine.execPlacementReserve d core t s
  | .preemptDecision q kind t => Sys2Proof.Machine.execPreemptDecision q kind t s
  | .timeSliceBoundary t => Sys2Proof.Machine.execTimeSliceBoundary t s
  | .groupStopComplete slot t => Sys2Proof.Machine.execGroupStopComplete slot t s
  | .saveComplete q t => Sys2Proof.Machine.execSaveComplete q t s
  | .queueResume q t => Sys2Proof.Machine.execQueueResume q t s
  | .restoreComplete wg core lost t => Sys2Proof.Machine.execRestoreComplete wg core lost t s
  | .loadReturn slot num t => Sys2Proof.Machine.execLoadReturn slot num t s
  | .forfeitWritesPerformed k t => Sys2Proof.Machine.execForfeitWritesPerformed k t s
  | .nopInstruction slot w t => Sys2Proof.Machine.execNopInstruction slot w t s
  | .mov slot w t => Sys2Proof.Machine.execMov slot w t s
  | .sel slot w t => Sys2Proof.Machine.execSel slot w t s
  | .iadd slot w t => Sys2Proof.Machine.execIadd slot w t s
  | .isub slot w t => Sys2Proof.Machine.execIsub slot w t s
  | .imul slot w t => Sys2Proof.Machine.execImul slot w t s
  | .imulhi slot w t => Sys2Proof.Machine.execImulhi slot w t s
  | .imad slot w t => Sys2Proof.Machine.execImad slot w t s
  | .imin slot w t => Sys2Proof.Machine.execImin slot w t s
  | .imax slot w t => Sys2Proof.Machine.execImax slot w t s
  | .andI slot w t => Sys2Proof.Machine.execAndI slot w t s
  | .orI slot w t => Sys2Proof.Machine.execOrI slot w t s
  | .xorI slot w t => Sys2Proof.Machine.execXorI slot w t s
  | .notI slot w t => Sys2Proof.Machine.execNotI slot w t s
  | .shl slot w t => Sys2Proof.Machine.execShl slot w t s
  | .shr slot w t => Sys2Proof.Machine.execShr slot w t s
  | .sar slot w t => Sys2Proof.Machine.execSar slot w t s
  | .bfe slot w t => Sys2Proof.Machine.execBfe slot w t s
  | .bfi slot w t => Sys2Proof.Machine.execBfi slot w t s
  | .popc slot w t => Sys2Proof.Machine.execPopc slot w t s
  | .clz slot w t => Sys2Proof.Machine.execClz slot w t s
  | .brev slot w t => Sys2Proof.Machine.execBrev slot w t s
  | .icmp slot w t => Sys2Proof.Machine.execIcmp slot w t s
  | .iadd64 slot w t => Sys2Proof.Machine.execIadd64 slot w t s
  | .imadw slot w t => Sys2Proof.Machine.execImadw slot w t s
  | .fadd slot w t => Sys2Proof.Machine.execFadd slot w t s
  | .fmul slot w t => Sys2Proof.Machine.execFmul slot w t s
  | .ffma slot w t => Sys2Proof.Machine.execFfma slot w t s
  | .fmin slot w t => Sys2Proof.Machine.execFmin slot w t s
  | .fmax slot w t => Sys2Proof.Machine.execFmax slot w t s
  | .fcmp slot w t => Sys2Proof.Machine.execFcmp slot w t s
  | .frcp slot w t => Sys2Proof.Machine.execFrcp slot w t s
  | .frsq slot w t => Sys2Proof.Machine.execFrsq slot w t s
  | .fsqrt slot w t => Sys2Proof.Machine.execFsqrt slot w t s
  | .fexp2 slot w t => Sys2Proof.Machine.execFexp2 slot w t s
  | .flog2 slot w t => Sys2Proof.Machine.execFlog2 slot w t s
  | .fsin slot w t => Sys2Proof.Machine.execFsin slot w t s
  | .fcos slot w t => Sys2Proof.Machine.execFcos slot w t s
  | .ffract slot w t => Sys2Proof.Machine.execFfract slot w t s
  | .frnd slot w t => Sys2Proof.Machine.execFrnd slot w t s
  | .hadd2 slot w t => Sys2Proof.Machine.execHadd2 slot w t s
  | .hmul2 slot w t => Sys2Proof.Machine.execHmul2 slot w t s
  | .hfma2 slot w t => Sys2Proof.Machine.execHfma2 slot w t s
  | .hmin2 slot w t => Sys2Proof.Machine.execHmin2 slot w t s
  | .hmax2 slot w t => Sys2Proof.Machine.execHmax2 slot w t s
  | .hcmp2 slot w t => Sys2Proof.Machine.execHcmp2 slot w t s
  | .cvtf slot w t => Sys2Proof.Machine.execCvtf slot w t s
  | .cvtfi slot w t => Sys2Proof.Machine.execCvtfi slot w t s
  | .cvtif slot w t => Sys2Proof.Machine.execCvtif slot w t s
  | .bscale slot w t => Sys2Proof.Machine.execBscale slot w t s
  | .bquant slot w t => Sys2Proof.Machine.execBquant slot w t s
  | .bdeq slot w t => Sys2Proof.Machine.execBdeq slot w t s
  | .shfl slot w t => Sys2Proof.Machine.execShfl slot w t s
  | .readlane slot w t => Sys2Proof.Machine.execReadlane slot w t s
  | .ballot slot w t => Sys2Proof.Machine.execBallot slot w t s
  | .reduce slot w t => Sys2Proof.Machine.execReduce slot w t s
  | .sread slot w t => Sys2Proof.Machine.execSread slot w t s
  | .plop slot w t => Sys2Proof.Machine.execPlop slot w t s
  | .pmov slot w t => Sys2Proof.Machine.execPmov slot w t s
  | .ld slot w t => Sys2Proof.Machine.execLd slot w t s
  | .st slot w t => Sys2Proof.Machine.execSt slot w t s
  | .sld slot w t => Sys2Proof.Machine.execSld slot w t s
  | .ldl slot w t => Sys2Proof.Machine.execLdl slot w t s
  | .stl slot w t => Sys2Proof.Machine.execStl slot w t s
  | .ldp slot w t => Sys2Proof.Machine.execLdp slot w t s
  | .stp slot w t => Sys2Proof.Machine.execStp slot w t s
  | .atom slot w t => Sys2Proof.Machine.execAtom slot w t s
  | .atoml slot w t => Sys2Proof.Machine.execAtoml slot w t s
  | .fence slot w t => Sys2Proof.Machine.execFence slot w t s
  | .bar slot w t => Sys2Proof.Machine.execBar slot w t s
  | .tex slot w t => Sys2Proof.Machine.execTex slot w t s
  | .tld slot w t => Sys2Proof.Machine.execTld slot w t s
  | .tg4 slot w t => Sys2Proof.Machine.execTg4 slot w t s
  | .tqry slot w t => Sys2Proof.Machine.execTqry slot w t s
  | .samplerReturn slot num t => Sys2Proof.Machine.execSamplerReturn slot num t s
  | .interp slot w t => Sys2Proof.Machine.execInterp slot w t s
  | .outv slot w t => Sys2Proof.Machine.execOutv slot w t s
  | .outf slot w t => Sys2Proof.Machine.execOutf slot w t s
  | .discard slot w t => Sys2Proof.Machine.execDiscard slot w t s
  | .bra slot w t => Sys2Proof.Machine.execBra slot w t s
  | .brx slot w t => Sys2Proof.Machine.execBrx slot w t s
  | .call slot w t => Sys2Proof.Machine.execCall slot w t s
  | .exit slot w t => Sys2Proof.Machine.execExit slot w t s
  | .mark slot w t => Sys2Proof.Machine.execMark slot w t s
  | .mload slot w t => Sys2Proof.Machine.execMload slot w t s
  | .mma slot w t => Sys2Proof.Machine.execMma slot w t s
  | .mstore slot w t => Sys2Proof.Machine.execMstore slot w t s
  | .mzero slot w t => Sys2Proof.Machine.execMzero slot w t s
  | .mmaf slot w t => Sys2Proof.Machine.execMmaf slot w t s
  | .msync slot w t => Sys2Proof.Machine.execMsync slot w t s
  | .madderHandoff op t => Sys2Proof.Machine.execMadderHandoff op t s
  | .retireCommit op ue t => Sys2Proof.Machine.execRetireCommit op ue t s
  | .retireSquash op t => Sys2Proof.Machine.execRetireSquash op t s
  | .mloadDataReturn op t => Sys2Proof.Machine.execMloadDataReturn op t s
  | .mdispatch q t => Sys2Proof.Machine.execMdispatch q t s
  | .mdispatchIndirect q t => Sys2Proof.Machine.execMdispatchIndirect q t s
  | .frameBegin q t => Sys2Proof.Machine.execFrameBegin q t s
  | .attach q t => Sys2Proof.Machine.execAttach q t s
  | .draw q t => Sys2Proof.Machine.execDraw q t s
  | .drawIndirect q t => Sys2Proof.Machine.execDrawIndirect q t s
  | .vertexGroupLaunch q core t => Sys2Proof.Machine.execVertexGroupLaunch q core t s
  | .batchBin q t => Sys2Proof.Machine.execBatchBin q t s
  | .publishedReadReturn q t => Sys2Proof.Machine.execPublishedReadReturn q t s
  | .binGraceExpire q t => Sys2Proof.Machine.execBinGraceExpire q t s
  | .partialFlushRewind q t => Sys2Proof.Machine.execPartialFlushRewind q t s
  | .binnerYield q t => Sys2Proof.Machine.execBinnerYield q t s
  | .frameEnd q t => Sys2Proof.Machine.execFrameEnd q t s
  | .tileAssign q core t => Sys2Proof.Machine.execTileAssign q core t s
  | .fragmentGroupLaunch core t => Sys2Proof.Machine.execFragmentGroupLaunch core t s
  | .tileFlushDone core t => Sys2Proof.Machine.execTileFlushDone core t s
  | .frameEndComplete q t => Sys2Proof.Machine.execFrameEndComplete q t s
  | .xferCopy q t => Sys2Proof.Machine.execXferCopy q t s
  | .xferCopy2d q t => Sys2Proof.Machine.execXferCopy2d q t s
  | .xferFill q t => Sys2Proof.Machine.execXferFill q t s
  | .channelAcquire ch t => Sys2Proof.Machine.execChannelAcquire ch t s
  | .xferReadReturn n bad t => Sys2Proof.Machine.execXferReadReturn n bad t s
  | .xferCompletionPulse ch t => Sys2Proof.Machine.execXferCompletionPulse ch t s
  | .errorRecordStore t => Sys2Proof.Machine.execErrorRecordStore t s
  | .errAck fn value t => Sys2Proof.Machine.execErrAck fn value t s
  | .errSel fn value ue t => Sys2Proof.Machine.execErrSel fn value ue t s
  | .comparatorSelftest parityOk t => Sys2Proof.Machine.execComparatorSelftest parityOk t s
  | .selftestAlarm t => Sys2Proof.Machine.execSelftestAlarm t s
  | .comparatorUnverified t => Sys2Proof.Machine.execComparatorUnverified t s
  | .lockstepMismatch kind t => Sys2Proof.Machine.execLockstepMismatch kind t s
  | .replayComplete t => Sys2Proof.Machine.execReplayComplete t s
  | .mordantCheckpoint t => Sys2Proof.Machine.execMordantCheckpoint t s
  | .sepiaEntryComplete t => Sys2Proof.Machine.execSepiaEntryComplete t s
  | .watchdogHeartbeat t => Sys2Proof.Machine.execWatchdogHeartbeat t s
  | .watchdogExpire t => Sys2Proof.Machine.execWatchdogExpire t s
  | .extest captured levels => Sys2Proof.Machine.execExtest captured levels s
  | .samplePreload captured levels => Sys2Proof.Machine.execSamplePreload captured levels s
  | .idcode => Sys2Proof.Machine.execIdcode s
  | .clamp => Sys2Proof.Machine.execClamp s
  | .highz => Sys2Proof.Machine.execHighz s
  | .bypass => Sys2Proof.Machine.execBypass s
  | .dapAccess => Sys2Proof.Machine.execDapAccess s
  | .dapCtrl value => Sys2Proof.Machine.execDapCtrl value s
  | .fuseProg value vpp => Sys2Proof.Machine.execFuseProg value vpp s
  | .fuseBlowDone verified => Sys2Proof.Machine.execFuseBlowDone verified s
  | .fuseRead vpp => Sys2Proof.Machine.execFuseRead vpp s
  | .tapReset => Sys2Proof.Machine.execTapReset s
  | .i3cPrivateWrite bytes t => Sys2Proof.Machine.execI3cPrivateWrite bytes t s
  | .i3cPrivateRead len t => Sys2Proof.Machine.execI3cPrivateRead len t s
  | .tempAlertWrite value => Sys2Proof.Machine.execTempAlertWrite value s
  | .i3cWarmResetOrder value t => Sys2Proof.Machine.execI3cWarmResetOrder value t s
  | .ibiPendClear value t => Sys2Proof.Machine.execIbiPendClear value t s
  | .ibiAccept => Sys2Proof.Machine.execIbiAccept s
  | .enec => Sys2Proof.Machine.execEnec s
  | .disec => Sys2Proof.Machine.execDisec s
  | .rstdaa => Sys2Proof.Machine.execRstdaa s
  | .entdaa addr => Sys2Proof.Machine.execEntdaa addr s
  | .setdasa addr => Sys2Proof.Machine.execSetdasa addr s
  | .getpid => Sys2Proof.Machine.execGetpid s
  | .getbcr => Sys2Proof.Machine.execGetbcr s
  | .getdcr => Sys2Proof.Machine.execGetdcr s
  | .getstatus => Sys2Proof.Machine.execGetstatus s
  | .vdda18Below1v => Sys2Proof.Machine.execVdda18Below1v s
  | .writeAcknowledge n t => Sys2Proof.Machine.execWriteAcknowledge n t s
  | .linkCorrectableError p => Sys2Proof.Machine.execLinkCorrectableError p s
  | .unsupportedRequest fn bar off size write t => Sys2Proof.Machine.execUnsupportedRequest fn bar off size write t s
  | .unknownCmd slot t => Sys2Proof.Machine.execUnknownCmd slot t s
  | .badPacket q t => Sys2Proof.Machine.execBadPacket q t s
  | .undefinedOpcode slot w t => Sys2Proof.Machine.execUndefinedOpcode slot w t s

end Sys2Proof.Machine
end

