-- ==== Sys2Proof/Machine/Step.lean ====
section
/-!
DEFINITION. One step of the block: the oldest waiting command takes effect. On an empty queue the Mordant's token interfaces
advance by one handshake step, and nothing else happens.
-/

namespace Sys2Proof.Machine

/-- The command at the front of the queue runs on the state with the rest of the queue; an empty queue is a handshake step of an idle Mordant (R826).
DESIGN CHOICE, safe: log 1. -/
def step (s : State) : Out :=
  match s.pending with
  | [] => .next (mordantIdle s)
  | c :: rest => exec c { s with pending := rest }

/-- The state with the command that a table word spells at the front of its queue. DESIGN CHOICE, safe: log 1. -/
def State.withFetchWord (s : State) (nbits w : Nat) : State :=
  match decodeTableWord nbits w with
  | none => s
  | some c => { s with pending := c :: s.pending }

end Sys2Proof.Machine
end

