-- ==== Sys2Proof/Laws/Memory.lean ====
section
/-!
SUPPORT. The laws of the LPDDR cells: a write reads back, leaves every other byte alone, and every operation keeps the
canonical form.
-/

namespace Sys2Proof.Laws

open Machine

/-- Every listed address is at least a bound. -/
def CellsFrom (n : Nat) (l : List Host.Cell) : Prop := ∀ c ∈ l, n ≤ c.1

@[simp] theorem cellsFrom_nil (n : Nat) : CellsFrom n [] := by simp [CellsFrom]

@[simp] theorem cellsFrom_cons (n : Nat) (c : Host.Cell) (l : List Host.Cell) :
    CellsFrom n (c :: l) ↔ n ≤ c.1 ∧ CellsFrom n l := by simp [CellsFrom]

theorem cellsFrom_mono {m n : Nat} {l : List Host.Cell} (h : m ≤ n) (hl : CellsFrom n l) : CellsFrom m l :=
  fun c hc => Nat.le_trans h (hl c hc)

/-- The canonical form of a list with a first cell: its byte is not 0, the rest lies above it, and the rest is canonical. -/
theorem memory_wf_cons {a : Nat} {b : Byte} {l : List Host.Cell} :
    Memory.wf ((a, b) :: l) = true ↔ b ≠ 0#8 ∧ CellsFrom (a + 1) l ∧ Memory.wf l = true := by
  induction l generalizing a b with
  | nil => simp [Memory.wf]
  | cons c rest ih =>
    have up : a < c.1 → CellsFrom (c.1 + 1) rest → CellsFrom (a + 1) rest := fun h => cellsFrom_mono (by omega)
    simp [Memory.wf, ih (a := c.1)]
    grind

/-- A written byte keeps the canonical form and every bound that it respects itself. -/
theorem cellSet_keeps {l : List Host.Cell} {a n : Nat} {b : Byte} (h : Memory.wf l = true) :
    Memory.wf (cellSet l a b) = true ∧ (CellsFrom n l → n ≤ a → CellsFrom n (cellSet l a b)) := by
  induction l generalizing n with
  | nil => by_cases hb : b = 0#8 <;> simp [cellSet, Memory.wf, hb]
  | cons c rest ih =>
    obtain ⟨hc, above, tail⟩ := memory_wf_cons.mp h
    have here := ih (n := c.1 + 1) tail
    have there := ih (n := n) tail
    have widen : a < c.1 → CellsFrom (a + 1) rest := fun lt => cellsFrom_mono (by omega) above
    grind [cellSet, memory_wf_cons, cellsFrom_cons]

/-- Writing one byte keeps the canonical form. -/
theorem cellSet_wf {l : List Host.Cell} (a : Nat) (b : Byte) (h : Memory.wf l = true) : Memory.wf (cellSet l a b) = true :=
  (cellSet_keeps (n := 0) h).1

/-- Dropping cells keeps the canonical form. -/
theorem filter_wf {l : List Host.Cell} (p : Host.Cell → Bool) (h : Memory.wf l = true) : Memory.wf (l.filter p) = true := by
  induction l with
  | nil => rfl
  | cons c rest ih =>
    obtain ⟨hc, above, tail⟩ := memory_wf_cons.mp h
    by_cases hp : p c = true
    · rw [List.filter_cons_of_pos hp]
      exact memory_wf_cons.mpr ⟨hc, fun d hd => above d (List.mem_filter.mp hd).1, ih tail⟩
    · rw [List.filter_cons_of_neg hp]
      exact ih tail

/-- Zeroing a range keeps the canonical form. -/
theorem cellsZero_wf {l : List Host.Cell} (base len : Nat) (h : Memory.wf l = true) :
    Memory.wf (cellsZero l base len) = true := filter_wf _ h

/-- Writing a sector keeps the canonical form. -/
theorem cellsWriteSector_wf {l : List Host.Cell} (pa : Nat) (d : Sector) (mask : BitVec 32) (h : Memory.wf l = true) :
    Memory.wf (cellsWriteSector l pa d mask) = true := by
  unfold cellsWriteSector
  generalize List.range 32 = ks
  induction ks generalizing l with
  | nil => exact h
  | cons k ks ih =>
    rw [List.foldl_cons]
    apply ih
    split
    · exact cellSet_wf _ _ h
    · exact h

/-- The first write to a marked block keeps the canonical form. -/
theorem zeroBlock_wf {l : Lpddr} (pa : Nat) (h : Memory.wf l.cells = true) : Memory.wf (zeroBlock l pa).cells = true := by
  unfold zeroBlock
  split
  · exact cellsZero_wf _ _ h
  · exact h

/-- Marking poison leaves the cells alone. -/
@[simp] theorem markPoison_cells (l : Lpddr) (pa : Nat) : (markPoison l pa).1.cells = l.cells := by
  unfold markPoison
  split
  · rfl
  · split <;> rfl

/-- A write of a memory controller keeps the canonical form. -/
theorem dramWrite_wf {l : Lpddr} (pa : Nat) (d : Sector) (mask : BitVec 32) (poison : Bool) (h : Memory.wf l.cells = true) :
    Memory.wf (dramWrite l pa d mask poison).1.cells = true := by
  have hz := cellsWriteSector_wf pa d mask (zeroBlock_wf pa h)
  unfold dramWrite
  split
  · exact h
  · simp only
    split
    · rw [markPoison_cells]
      exact hz
    · split <;> exact hz

/-- Bytes below every listed address read 0. -/
theorem cellGet_below {l : List Host.Cell} {n a : Nat} (h : CellsFrom n l) (ha : a < n) : cellGet l a = 0#8 := by
  induction l with
  | nil => rfl
  | cons c rest ih =>
    have hc := (cellsFrom_cons ..).mp h
    rw [cellGet, if_neg (show ¬c.1 = a by omega), ih hc.2]

/-- Reading after a write: the byte written at its address, the old byte everywhere else. -/
theorem cellGet_cellSet {l : List Host.Cell} (h : Memory.wf l = true) (a a' : Nat) (b : Byte) :
    cellGet (cellSet l a b) a' = if a' = a then b else cellGet l a' := by
  induction l with
  | nil => by_cases hb : b = 0#8 <;> simp [cellSet, cellGet, hb, eq_comm]
  | cons c rest ih =>
    obtain ⟨-, above, tail⟩ := memory_wf_cons.mp h
    have below : ∀ z, z ≤ c.1 → cellGet rest z = 0#8 := fun z hz => cellGet_below above (by omega)
    have old := ih tail
    have hb := below a'
    simp only [cellSet, cellGet]
    grind [cellGet]

end Sys2Proof.Laws
end

