-- ==== Sys2Proof/Safety.lean ====
section
/-!
DEFINITION. What the statements say of the block in terms of its own operations: a step that goes on, a command that
completes, and the conditions under which a thread group issues an instruction.
-/

namespace Sys2Proof

open Machine

/-- What an issuing instruction starts from: the state and the group after the publication that a write of s62 or s63 makes
first (R612), the word's fields, its PC, the active mask and the first free value. -/
structure Issued where
  s : State
  g : Group
  iw : IWord
  pc : Nat
  active : Word
  fr : Nat

/-- The group in a resident slot issues a word of an opcode at a stamp: it may issue, its units have been fetched and give that word, the
encoding is legal and inside the group's registers, its operands are available, and a publication that the instruction needs is
performed (R463, R503, R511, R541, R550, R612). -/
def issuing (s : State) (slot : Nat) (w : Insn) (t : Stamp) (mine : Nat → Bool) : Option Issued :=
  let u := s.upTo t
  match getGroup u slot with
  | none => none
  | some g =>
    match groupPc g with
    | none => none
    | some pc =>
      let iw := iword w
      let active := activeMask g pc
      if groupReady u slot g && mine iw.op && fetched u g pc iw.len w && instrFetch u g pc iw.len == .ready &&
          (illegalReason iw g.kind active).isNone && !vregRange iw g.vregs && !interlocked u slot g iw then
        let v : State := { u with free := u.free + freePerIssue }
        if writesNsp iw then
          match publish v slot g pc w with
          | .done v g => some { s := putGroup v slot g, g := g, iw := iw, pc := pc, active := active, fr := u.free }
          | _ => none
        else some { s := v, g := g, iw := iw, pc := pc, active := active, fr := u.free }
      else none

namespace Issued

/-- The lanes that execute: lane 0 for the one run of scalar form (R509, R512). -/
def lanes (x : Issued) : List Nat := if x.iw.scalarForm then [0] else lanesOf (runMask x.g x.iw x.active)

/-- Source operands of a lane. -/
def a (x : Issued) (l : Nat) : Word := srcA x.g x.iw l
/-- Source B of a lane. -/
def b (x : Issued) (l : Nat) : Word := srcB x.g x.iw l
/-- Source C of a lane. -/
def c (x : Issued) (l : Nat) : Word := srcC x.g x.iw l

/-- The state after the group's registers have changed to those of `g` and its active threads have moved on. -/
def next (x : Issued) (slot : Nat) (g : Group) : State := putGroup x.s slot (advance g x.iw x.pc x.active)

/-- The state after a 32-bit result by lane went to the destination. -/
def result (x : Issued) (slot : Nat) (f : Nat → Word) : State := x.next slot (writeResult x.g x.iw x.lanes f)

/-- The state after a 64-bit result by lane went to the destination. -/
def result64 (x : Issued) (slot : Nat) (f : Nat → Dword) : State := x.next slot (writeResult64 x.g x.iw x.lanes f)

/-- A global access of lanes at addresses is performed: some lane executes, no fence or acquire holds it, no lane faults, and
no store of the group to one of its sectors awaits an acknowledgement (R473, R477, R495). -/
def reaches (x : Issued) (slot : Nat) (need : AccessNeed) (width : Nat) (lanes : List (Nat × Nat)) : Bool :=
  !lanes.isEmpty && mayAccess x.s slot x.g && (laneFault x.s x.g.ctx need width lanes).isNone &&
    !((linesOf (lanes.map Prod.snd)).any fun l => sectorConflict x.s slot l (lineSecs l width (lanes.map Prod.snd)))

/-- The state after the requests of an access entered the fabric, each after the earlier accesses of its threads to its bytes
(R476), and the group became `g`. -/
def enters (x : Issued) (slot : Nat) (client : Client) (need : AccessNeed) (width : Nat) (lanes : List (Nat × Nat))
    (mk : Home → Nat → List (Nat × Nat) → List AccKind) (g : Group) : State :=
  let rs := orderedAfter x.s.traffic.nextAccess (earlierOf x.s slot x.g (x.iw.op == 0x52) width · lanes)
    (requests x.s x.g client need width lanes mk)
  putGroup (rs.foldl enterFabric x.s) slot (advance g x.iw x.pc x.active)

/-- The group with no fence pending: its conditions were met. -/
def fenced (x : Issued) : Group := { x.g with fence := none }

/-- The state after a condition by lane went to the destination. -/
def cond (x : Issued) (slot : Nat) (f : Nat → Bool) : State := x.next slot (writeCond x.g x.iw x.lanes f)

end Issued

/-- A packet that has started: the state in which it has joined the packets in progress, the packet, and its bytes. -/
structure Started where
  s : State
  p : Pkt
  bytes : List Byte

/-- The queue meets a packet of a row and starts it at a stamp: the queue is served and does not wait, its units have been read, the
packet is of the row's type and no bad packet, the barrier rule lets it start, and nothing holds it (R242, R245, R268). -/
def starting (s : State) (q : QueueId) (t : Stamp) (type : Nat) (mine : List Byte → Bool)
    (hold : State → List Byte → Option State) : Option Started :=
  let u := s.upTo t
  match getQueue u q with
  | none => none
  | some r =>
    match packetAt u q with
    | .packet va endVa h bs =>
      if queueServed u q r && r.wait.isNone && h.type == type && !isBadPacket u r va endVa h && mayStart r h && mine bs &&
          (hold u bs).isNone then
        let x := startPkt u q va endVa h
        some { s := x.1, p := x.2, bytes := bs }
      else none
    | _ => none

/-- A row of a packet: wherever it starts, it answers the state that `f` gives from the state in which it has started, with the reads of
its units used up. -/
def startsTo (row : QueueId → Stamp → Instr) (type : Nat) (mine : List Byte → Bool) (hold : QueueId → State → List Byte → Option State)
    (f : State → QueueId → Pkt → List Byte → State) : Prop :=
  ∀ s q t x, starting s q t type mine (hold q) = some x → exec (row q t) s = .next (useReads (f x.s q x.p x.bytes) (.queue q))

/-- The Mordant starts the command in a slot for a row: it is the row's, nothing holds it back, and no cause refuses it (R188
to R209, R221). -/
def serving (u : State) (k : SlotId) (code : Nat) (mine : List Word → Bool)
    (causes : State → SlotId → List Word → List Nat) : Bool :=
  let cmd := (getSlot u k).cmd
  (getSlot u k).st == .busy && cmdCode cmd == code && mine cmd && takesCommands u && !(getSlot u k).started && startable u k &&
    (leastNat (commonCauses u k cmd ++ causes u k cmd)).isNone

/-- A row of a command: wherever it starts, it answers the state that `f` gives from the state in which it has started. -/
def servedBy (row : SlotId → Stamp → Instr) (code : Nat) (mine : List Word → Bool)
    (causes : State → SlotId → List Word → List Nat) (f : State → SlotId → List Word → State) : Prop :=
  ∀ s k t, let u := s.upTo t
    serving u k code mine causes = true → exec (row k t) s = .next (f (markStarted u k) k (getSlot u k).cmd)

/-- A row of a command: a later event of it, while its command is in progress, answers the state that `f` gives. -/
def resumedBy (row : SlotId → Stamp → Instr) (code : Nat) (mine : List Word → Bool)
    (f : State → SlotId → List Word → State) : Prop :=
  ∀ s k t, let u := s.upTo t
    (getSlot u k).st = .busy → cmdCode (getSlot u k).cmd = code → mine (getSlot u k).cmd = true → takesCommands u = true →
    (getSlot u k).started = true → exec (row k t) s = .next (f u k (getSlot u k).cmd)

/-- A row of an instruction: wherever the opcode issues, the command answers the state that `f` gives. -/
def issuesTo (row : Nat → Insn → Stamp → Instr) (op : Nat) (f : Issued → Nat → State) : Prop :=
  ∀ s slot w t x, issuing s slot w t (· == op) = some x → exec (row slot w t) s = .next (f x slot)

/-- The instruction's 32-bit result by executing lane. -/
def issuesWord (row : Nat → Insn → Stamp → Instr) (op : Nat) (f : Issued → Nat → Word) : Prop :=
  issuesTo row op fun x slot => x.result slot (f x)

/-- The instruction's 64-bit result by executing lane. -/
def issuesWord64 (row : Nat → Insn → Stamp → Instr) (op : Nat) (f : Issued → Nat → Dword) : Prop :=
  issuesTo row op fun x slot => x.result64 slot (f x)

/-- The instruction's condition by executing lane. -/
def issuesCond (row : Nat → Insn → Stamp → Instr) (op : Nat) (f : Issued → Nat → Bool) : Prop :=
  issuesTo row op fun x slot => x.cond slot (f x)

end Sys2Proof
end

