-- ==== Sys2Proof/WellFormed.lean ====
section
/-!
DEFINITION. The static checks on a command's operands: every index lies in the range that the spec gives the unit it
names. The meanings do not rely on them; they are total.
-/

namespace Sys2Proof.WellFormed

/-- A tenant ID: 0 to 127 (Table 04-2). -/
def fnOk (fn : Nat) : Bool := decide (fn < 128)

/-- A mailbox slot: 8 on an administration function, 4 on every other (R190). -/
def slotOk (k : SlotId) : Bool :=
  fnOk k.fn && decide (k.slot < if k.fn = 0 ∨ k.fn = 96 then 8 else 4)

/-- A queue: 64 contexts to a tenant, 8 queues to a context (R238). -/
def queueOk (q : QueueId) : Bool := fnOk q.ctx.tenant && decide (q.ctx.idx < 64) && decide (q.q < 8)

/-- A resident slot of a thread group: 24 cores of 4 schedulers of 12 slots (R455). -/
def residentOk (slot : Nat) : Bool := decide (slot < 1152)

/-- A switched power domain (Table 03-4). -/
def domainOk (d : Nat) : Bool := decide (d < 72)

/-- A core. -/
def coreOk (core : Nat) : Bool := decide (core < 24)

/-- A channel of a unit that has n: 16 memory channels, 64 transfer channels. -/
def channelOk (n ch : Nat) : Bool := decide (ch < n)

/-- A slice of the Vat (R361). -/
def sliceOk (slice : Nat) : Bool := decide (slice < 48)

/-- A set of a slice (R361). -/
def setOk (set : Nat) : Bool := decide (set < 1024)

/-- A way of a set. -/
def wayOk (way : Nat) : Bool := decide (way < 16)

/-- A regulator partition (R423). -/
def partOk (part : Nat) : Bool := decide (part < 16)

/-- A network interface (R410). -/
def niOk (ni : Nat) : Bool := decide (ni < 94)

/-- A router of the mesh. -/
def routerOk (router : Nat) : Bool := decide (router < 48)

/-- A tag of a port (R165). -/
def tagOk (tag : Nat) : Bool := decide (tag < 1024)

/-- A doorbell index of a tenant (R238). -/
def doorbellOk (doorbell : Nat) : Bool := decide (doorbell < 256)

/-- One count for each pace monitor (R52). -/
def countsOk (counts : List Nat) : Bool := counts.length == 32

/-- One reading for each temperature sensor (R902). -/
def readingsOk (readings : List (Option Nat)) : Bool := readings.length == 16

/-- A dynamic I3C address of seven bits (R895). -/
def i3cAddrOk (addr : Nat) : Bool := decide (addr < 128)

/-- A BAR that a host access can name (Table 04-3). -/
def barOk (bar : Nat) : Bool := bar == 0 || bar == 2 || bar == 4

end Sys2Proof.WellFormed

namespace Sys2Proof

open WellFormed

/-- Every operand of the command is in range. -/
def Instr.wf : Instr → Bool
  | .registerWrite fn _ _ _ _ _ _ => fnOk fn
  | .resetNAssert => true
  | .resetNRise _ => true
  | .brownOut _ => true
  | .brownOutRelease _ => true
  | .metronomeLock _ => true
  | .metronomeLockTimeout => true
  | .lpddrTrainingDone _ _ _ _ => true
  | .warmResetComplete _ _ _ => true
  | .domainIdleOff d _ => domainOk d
  | .domainWake d _ => domainOk d
  | .domainOffDone d _ => domainOk d
  | .forceOffDrained d _ => domainOk d
  | .crystalLoss _ => true
  | .crystalReturn => true
  | .thermtrip => true
  | .sensorRefresh readings _ => readingsOk readings
  | .governorSample counts _ _ _ => countsOk counts
  | .governorOutput _ _ => true
  | .spmiFrameDone _ _ => true
  | .govSaturation _ => true
  | .govFlagClear fn _ _ => fnOk fn
  | .metroLoRead fn _ _ => fnOk fn
  | .perstAssert _ _ => true
  | .perstDeassert _ _ => true
  | .dlDown _ _ => true
  | .linkUp _ _ _ _ => true
  | .linkRetrain _ _ _ _ => true
  | .configRequest fn _ _ => fnOk fn
  | .numvfsWrite _ _ _ => true
  | .vfEnableSet _ _ => true
  | .vfReady fn _ => fnOk fn
  | .vfEnableClear _ _ => true
  | .flrInitiate fn _ => fnOk fn
  | .flrComplete fn _ => fnOk fn
  | .d3hotEnter fn _ => fnOk fn
  | .d3hotExit fn _ => fnOk fn
  | .busMasterEnable fn _ => fnOk fn
  | .msixUnmask fn _ _ => fnOk fn
  | .bar2Read fn _ _ _ => fnOk fn
  | .bar2Write fn _ _ _ _ => fnOk fn
  | .tagGrant _ tag _ => tagOk tag
  | .completionRx _ tag _ _ _ => tagOk tag
  | .completionTimeout _ _ => true
  | .tagQuarantineExpire _ tag _ => tagOk tag
  | .malformedTlp _ _ _ _ => true
  | .mbxGo slot _ _ => slotOk slot
  | .mbxAck slot _ _ => slotOk slot
  | .nop slot _ => slotOk slot
  | .tenantInfo slot _ => slotOk slot
  | .ctxCreate slot _ => slotOk slot
  | .ctxDestroy slot _ => slotOk slot
  | .ctxReset slot _ => slotOk slot
  | .ctxSet slot _ => slotOk slot
  | .qCreate slot _ => slotOk slot
  | .qDestroy slot _ => slotOk slot
  | .qSet slot _ => slotOk slot
  | .memAlloc slot _ => slotOk slot
  | .memFree slot _ => slotOk slot
  | .memMap slot _ => slotOk slot
  | .memUnmap slot _ => slotOk slot
  | .segAcquire slot _ => slotOk slot
  | .segRelease slot _ => slotOk slot
  | .vatMaintClean slot _ => slotOk slot
  | .vatMaintInvalidate slot _ => slotOk slot
  | .vatMaintCleanInvalidate slot _ => slotOk slot
  | .queryCtx slot _ => slotOk slot
  | .admGrant slot _ => slotOk slot
  | .admRevoke slot _ => slotOk slot
  | .admTenantReset slot _ => slotOk slot
  | .admPartCfg slot _ => slotOk slot
  | .admShareExport slot _ => slotOk slot
  | .admShareImport slot _ => slotOk slot
  | .admShareRevoke slot _ => slotOk slot
  | .admTenantInfo slot _ => slotOk slot
  | .admPortShare slot _ => slotOk slot
  | .govSet slot _ => slotOk slot
  | .govGet slot _ => slotOk slot
  | .pwrPolicy slot _ => slotOk slot
  | .pwrIdleOff slot _ => slotOk slot
  | .vatConvertToScratchpad slot _ => slotOk slot
  | .vatConvertToCache slot _ => slotOk slot
  | .clusterModeExclusive slot _ => slotOk slot
  | .clusterModeShared slot _ => slotOk slot
  | .streamCfg slot _ => slotOk slot
  | .warmReset slot _ => slotOk slot
  | .sepiaEnter slot _ => slotOk slot
  | .composeCopy slot _ _ => slotOk slot
  | .composeFill slot _ _ => slotOk slot
  | .composeBlend slot _ _ => slotOk slot
  | .dbRing fn doorbell _ => fnOk fn && doorbellOk doorbell
  | .linkWordArrive q _ => queueOk q
  | .tailPoll q _ => queueOk q
  | .chainTorn q _ => queueOk q
  | .deadlineMiss q _ => queueOk q
  | .nopPacket q _ => queueOk q
  | .fenceWrite q _ => queueOk q
  | .fenceAdd q _ => queueOk q
  | .fenceMax q _ => queueOk q
  | .fenceStamp q _ => queueOk q
  | .wait q _ => queueOk q
  | .waitReevaluate q _ => queueOk q
  | .waitTimeout q _ => queueOk q
  | .semAcquire q _ => queueOk q
  | .semRelease q _ => queueOk q
  | .marker q _ => queueOk q
  | .linesResidentSample _ => true
  | .lpddrRead _ _ _ => true
  | .lpddrWriteBack _ _ _ _ => true
  | .oscTracking ch _ _ => channelOk 16 ch
  | .lpddrRefresh ch _ _ => channelOk 16 ch
  | .vatLoad _ lru _ _ _ => wayOk lru
  | .vatStore _ lru _ _ _ => wayOk lru
  | .vatAtomic _ lru _ _ _ => wayOk lru
  | .vatFillReturn _ lru _ => wayOk lru
  | .patrolScrub slice set way _ _ _ => sliceOk slice && setOk set && wayOk way
  | .admissionAttempt _ _ => true
  | .windowBoundary part _ => partOk part
  | .heldReattempt ni part _ => niOk ni && partOk part
  | .flitAged _ => true
  | .routerFlitArrive _ router _ _ _ _ _ => routerOk router
  | .fabricTimeout _ _ => true
  | .routeTablePatrol _ _ => true
  | .routeParityStorm _ => true
  | .dispatch q _ => queueOk q
  | .dispatchIndirect q _ => queueOk q
  | .workgroupPlace _ core _ => coreOk core
  | .placementReserve _ core _ => coreOk core
  | .preemptDecision q _ _ => queueOk q
  | .timeSliceBoundary _ => true
  | .groupStopComplete slot _ => residentOk slot
  | .saveComplete q _ => queueOk q
  | .queueResume q _ => queueOk q
  | .restoreComplete _ core _ _ => coreOk core
  | .loadReturn slot _ _ => residentOk slot
  | .forfeitWritesPerformed _ _ => true
  | .nopInstruction slot _ _ => residentOk slot
  | .mov slot _ _ => residentOk slot
  | .sel slot _ _ => residentOk slot
  | .iadd slot _ _ => residentOk slot
  | .isub slot _ _ => residentOk slot
  | .imul slot _ _ => residentOk slot
  | .imulhi slot _ _ => residentOk slot
  | .imad slot _ _ => residentOk slot
  | .imin slot _ _ => residentOk slot
  | .imax slot _ _ => residentOk slot
  | .andI slot _ _ => residentOk slot
  | .orI slot _ _ => residentOk slot
  | .xorI slot _ _ => residentOk slot
  | .notI slot _ _ => residentOk slot
  | .shl slot _ _ => residentOk slot
  | .shr slot _ _ => residentOk slot
  | .sar slot _ _ => residentOk slot
  | .bfe slot _ _ => residentOk slot
  | .bfi slot _ _ => residentOk slot
  | .popc slot _ _ => residentOk slot
  | .clz slot _ _ => residentOk slot
  | .brev slot _ _ => residentOk slot
  | .icmp slot _ _ => residentOk slot
  | .iadd64 slot _ _ => residentOk slot
  | .imadw slot _ _ => residentOk slot
  | .fadd slot _ _ => residentOk slot
  | .fmul slot _ _ => residentOk slot
  | .ffma slot _ _ => residentOk slot
  | .fmin slot _ _ => residentOk slot
  | .fmax slot _ _ => residentOk slot
  | .fcmp slot _ _ => residentOk slot
  | .frcp slot _ _ => residentOk slot
  | .frsq slot _ _ => residentOk slot
  | .fsqrt slot _ _ => residentOk slot
  | .fexp2 slot _ _ => residentOk slot
  | .flog2 slot _ _ => residentOk slot
  | .fsin slot _ _ => residentOk slot
  | .fcos slot _ _ => residentOk slot
  | .ffract slot _ _ => residentOk slot
  | .frnd slot _ _ => residentOk slot
  | .hadd2 slot _ _ => residentOk slot
  | .hmul2 slot _ _ => residentOk slot
  | .hfma2 slot _ _ => residentOk slot
  | .hmin2 slot _ _ => residentOk slot
  | .hmax2 slot _ _ => residentOk slot
  | .hcmp2 slot _ _ => residentOk slot
  | .cvtf slot _ _ => residentOk slot
  | .cvtfi slot _ _ => residentOk slot
  | .cvtif slot _ _ => residentOk slot
  | .bscale slot _ _ => residentOk slot
  | .bquant slot _ _ => residentOk slot
  | .bdeq slot _ _ => residentOk slot
  | .shfl slot _ _ => residentOk slot
  | .readlane slot _ _ => residentOk slot
  | .ballot slot _ _ => residentOk slot
  | .reduce slot _ _ => residentOk slot
  | .sread slot _ _ => residentOk slot
  | .plop slot _ _ => residentOk slot
  | .pmov slot _ _ => residentOk slot
  | .ld slot _ _ => residentOk slot
  | .st slot _ _ => residentOk slot
  | .sld slot _ _ => residentOk slot
  | .ldl slot _ _ => residentOk slot
  | .stl slot _ _ => residentOk slot
  | .ldp slot _ _ => residentOk slot
  | .stp slot _ _ => residentOk slot
  | .atom slot _ _ => residentOk slot
  | .atoml slot _ _ => residentOk slot
  | .fence slot _ _ => residentOk slot
  | .bar slot _ _ => residentOk slot
  | .tex slot _ _ => residentOk slot
  | .tld slot _ _ => residentOk slot
  | .tg4 slot _ _ => residentOk slot
  | .tqry slot _ _ => residentOk slot
  | .samplerReturn slot _ _ => residentOk slot
  | .interp slot _ _ => residentOk slot
  | .outv slot _ _ => residentOk slot
  | .outf slot _ _ => residentOk slot
  | .discard slot _ _ => residentOk slot
  | .bra slot _ _ => residentOk slot
  | .brx slot _ _ => residentOk slot
  | .call slot _ _ => residentOk slot
  | .exit slot _ _ => residentOk slot
  | .mark slot _ _ => residentOk slot
  | .mload slot _ _ => residentOk slot
  | .mma slot _ _ => residentOk slot
  | .mstore slot _ _ => residentOk slot
  | .mzero slot _ _ => residentOk slot
  | .mmaf slot _ _ => residentOk slot
  | .msync slot _ _ => residentOk slot
  | .madderHandoff _ _ => true
  | .retireCommit _ _ _ => true
  | .retireSquash _ _ => true
  | .mloadDataReturn _ _ => true
  | .mdispatch q _ => queueOk q
  | .mdispatchIndirect q _ => queueOk q
  | .frameBegin q _ => queueOk q
  | .attach q _ => queueOk q
  | .draw q _ => queueOk q
  | .drawIndirect q _ => queueOk q
  | .vertexGroupLaunch q core _ => queueOk q && coreOk core
  | .batchBin q _ => queueOk q
  | .publishedReadReturn q _ => queueOk q
  | .binGraceExpire q _ => queueOk q
  | .partialFlushRewind q _ => queueOk q
  | .binnerYield q _ => queueOk q
  | .frameEnd q _ => queueOk q
  | .tileAssign q core _ => queueOk q && coreOk core
  | .fragmentGroupLaunch core _ => coreOk core
  | .tileFlushDone core _ => coreOk core
  | .frameEndComplete q _ => queueOk q
  | .xferCopy q _ => queueOk q
  | .xferCopy2d q _ => queueOk q
  | .xferFill q _ => queueOk q
  | .channelAcquire ch _ => channelOk 64 ch
  | .xferReadReturn _ _ _ => true
  | .xferCompletionPulse ch _ => channelOk 64 ch
  | .errorRecordStore _ => true
  | .errAck fn _ _ => fnOk fn
  | .errSel fn _ _ _ => fnOk fn
  | .comparatorSelftest _ _ => true
  | .selftestAlarm _ => true
  | .comparatorUnverified _ => true
  | .lockstepMismatch _ _ => true
  | .replayComplete _ => true
  | .mordantCheckpoint _ => true
  | .sepiaEntryComplete _ => true
  | .watchdogHeartbeat _ => true
  | .watchdogExpire _ => true
  | .extest _ _ => true
  | .samplePreload _ _ => true
  | .idcode => true
  | .clamp => true
  | .highz => true
  | .bypass => true
  | .dapAccess => true
  | .dapCtrl _ => true
  | .fuseProg _ _ => true
  | .fuseBlowDone _ => true
  | .fuseRead _ => true
  | .tapReset => true
  | .i3cPrivateWrite _ _ => true
  | .i3cPrivateRead _ _ => true
  | .tempAlertWrite _ => true
  | .i3cWarmResetOrder _ _ => true
  | .ibiPendClear _ _ => true
  | .ibiAccept => true
  | .enec => true
  | .disec => true
  | .rstdaa => true
  | .entdaa addr => i3cAddrOk addr
  | .setdasa addr => i3cAddrOk addr
  | .getpid => true
  | .getbcr => true
  | .getdcr => true
  | .getstatus => true
  | .vdda18Below1v => true
  | .writeAcknowledge _ _ => true
  | .linkCorrectableError _ => true
  | .unsupportedRequest fn b _ _ _ _ => fnOk fn && barOk b
  | .unknownCmd slot _ => slotOk slot
  | .badPacket q _ => queueOk q
  | .undefinedOpcode slot _ _ => residentOk slot

end Sys2Proof
end

