-- ==== Sys2Proof/Certificates/Slice0/Obligations.lean ====
section
/-!
DEFINITION. The statements for the provers. A statement over commands says what the meaning answers on every state and
operands that meet its hypotheses; `s.upTo t` is the state at the event's stamp. That a command is one event at a stamp, and
that one whose conditions do not hold changes nothing, are the model's choices of log entries 2 and 3, on which every
statement about a command rests.
-/

open Sys2Proof Sys2Proof.Machine

/-- A GO cause of Table 05-15 applies to a value written to the GO register of a slot. -/
def Sys2Proof.goCauseApplies (v : Slot) (suspended : Bool) (value : Word) (c : Nat) : Prop :=
  (c = 0x80 ∧ v.st = .busy) ∨ (c = 0x81 ∧ (v.st = .done ∨ v.st = .refused)) ∨ (c = 0x82 ∧ value = 0#32) ∨
  (c = 0x83 ∧ value = v.seq) ∨ (c = 0x84 ∧ suspended = true)

/-- The instructions that write a result of 32 or 64 bits and change nothing else, with the width of their result in registers. -/
def Sys2Proof.wordRows : List ((Nat → Insn → Stamp → Instr) × Nat × Nat) :=
  [(.mov, 0x01, 1), (.sel, 0x02, 1), (.iadd, 0x03, 1), (.isub, 0x04, 1), (.imul, 0x05, 1), (.imulhi, 0x06, 1), (.imad, 0x07, 1),
   (.imin, 0x08, 1), (.imax, 0x09, 1), (.andI, 0x0A, 1), (.orI, 0x0B, 1), (.xorI, 0x0C, 1), (.notI, 0x0D, 1), (.shl, 0x0E, 1),
   (.shr, 0x0F, 1), (.sar, 0x10, 1), (.bfe, 0x11, 1), (.bfi, 0x12, 1), (.popc, 0x13, 1), (.clz, 0x14, 1), (.brev, 0x15, 1)] ++
  [(.iadd64, 0x17, 2), (.imadw, 0x18, 2), (.fadd, 0x20, 1), (.fmul, 0x21, 1), (.ffma, 0x22, 1), (.fmin, 0x23, 1),
   (.fmax, 0x24, 1), (.frcp, 0x26, 1), (.frsq, 0x27, 1), (.fsqrt, 0x28, 1), (.fexp2, 0x29, 1), (.flog2, 0x2A, 1),
   (.fsin, 0x2B, 1), (.fcos, 0x2C, 1), (.ffract, 0x2D, 1), (.frnd, 0x2E, 1), (.hadd2, 0x30, 1), (.hmul2, 0x31, 1),
   (.hfma2, 0x32, 1), (.hmin2, 0x33, 1), (.hmax2, 0x34, 1), (.cvtfi, 0x39, 1), (.bdeq, 0x3D, 1), (.shfl, 0x40, 1)]

/-- A Madder instruction whose unit is on, and for MLOAD and MSTORE that no fence or acquire holds, joins the operations of the
Madder, with its token, and the threads move on. -/
def Sys2Proof.joinsMadder (row : Nat → Insn → Stamp → Instr) (op : Nat) (kind : Issued → MKind) : Prop :=
  ∀ s slot w t x, issuing s slot w t (· == op) = some x → domOn x.s (24 + x.g.core) = true →
    let accesses := op == 0x80 || op == 0x82
    (accesses = true → mayAccess x.s slot x.g = true) →
    let v := x.next slot (if accesses then x.fenced else x.g)
    let o : MOp :=
      { group := slot, core := x.g.core, kind := kind x, commit := madderToken x.g x.iw x.active (op == 0x84), pc := x.pc
        lanes := x.active, base := w.base, ext := w.ext }
    exec (row slot w t) s =
      .next { v with madders := { ops := v.madders.ops ++ [(v.madders.nextOp, o)], nextOp := v.madders.nextOp + 1 } }

/-- A step runs the command at the front of the queue on the state with the rest of the queue. The queue itself, and that
the Mordant's interfaces take a handshake step on an empty one, are the model's choice (log entries 1 and 18). -/
def Obligations.StepRunsTheCommandAtTheFront : Prop :=
  (∀ (c : Instr) (s : State) (rest : List Instr),
    step { s with pending := c :: rest } = exec c { s with pending := rest }) ∧
  (∀ s : State, s.pending = [] → step s = .next { s with lock := s.lock.advance none none })

/-- State.reset holds the values that the spec gives the block while RESET_N is low. That the supplies have already risen,
that fuses are unblown and that unwritten memory reads 0 are choices (log entries 5, 6 and 35). -/
def Obligations.ResetLeavesTheBlockHeld : Prop :=
  let s := State.reset
  s.life.phase = .held ∧ s.life.pins.resetN = false ∧ s.metro.now = 0 ∧ s.metro.running = false ∧
  (∀ k, (getSlot s k).st = .idle ∧ (getSlot s k).seq = 0#32 ∧ (getSlot s k).cause = 0 ∧ (getSlot s k).goLost = false) ∧
  s.err.nextSeq = 1 ∧ s.err.stored = [] ∧ s.err.detected = [] ∧ s.ctxs = [] ∧ s.queues = [] ∧ s.forfeits = [] ∧
  s.lpddr.objects = [] ∧ s.alloc.shares = [] ∧ s.vat.lines = [] ∧ s.vat.segs = [] ∧ s.vat.convMask = 0#16 ∧
  s.vat.streamEn = true ∧ s.vat.streamThresh = 32 ∧
  (∀ d, d < 72 → (getDom s d).policy = .auto) ∧ s.power.idleOff = List.replicate 6 1000 ∧
  (∀ p ∈ s.fabric.parts, p.cfg.en = false ∧ p.cfg.windowUs = 100 ∧ p.cfg.budget = 1) ∧
  s.alloc.portA.contexts = 2048 ∧ s.alloc.portA.parts = 0xFFFF#16 ∧ s.alloc.portA.segs = 64 ∧ s.alloc.portA.quota = 64 ∧
  s.lock.mode = .pair ∧ s.lock.sepia = false ∧ s.i3c.tempAlert = 0x290 ∧ s.jtag.dapCtrl = 0#16 ∧
  s.cores.groups = [] ∧ s.traffic.accesses = [] ∧ Memory.wf s.lpddr.cells = true

/-- Every step that goes on keeps the canonical form of the LPDDR cells. It rests on the model's own choices or readings
of log entry 6. -/
def Obligations.EveryStepKeepsTheMemoryForm : Prop :=
  ∀ s s' : State, Memory.wf s.lpddr.cells = true → step s = .next s' → Memory.wf s'.lpddr.cells = true

/-- No step un-blows a fuse: INLINE_ECC and JTAG_LOCK, once blown, stay blown. It rests on the model's own choices or
readings of log entry 35. -/
def Obligations.BlownFusesStayBlown : Prop :=
  ∀ s s' : State, step s = .next s' →
    (s.fuses.inlineEcc = true → s'.fuses.inlineEcc = true) ∧ (s.fuses.jtagLock = true → s'.fuses.jtagLock = true)

/-- No command changes the queue, and only a write at its memory NI and a power-on reset change LPDDR cells. It rests on
the model's own choices or readings of log entries 1, 6. -/
def Obligations.CommandsLeaveTheQueueAndMemoryAlone : Prop :=
  ∀ (c : Instr) (s t : State), exec c s = .next t →
    t.pending = s.pending ∧
    ((∀ k ecc vat τ, c ≠ .lpddrWriteBack k ecc vat τ) → c ≠ .resetNAssert → (∀ rail, c ≠ .brownOut rail) →
      ∀ a, cellGet t.lpddr.cells a = cellGet s.lpddr.cells a)

/-- LPDDR_WRITE_BACK merges its bytes into its own sector; every other sector reads as before. It rests on the model's own
choices or readings of log entries 6, 36. -/
def Obligations.WriteBackChangesItsOwnSectorAlone : Prop :=
  ∀ s k ecc vat t w, let u := s.upTo t
    Memory.wf u.lpddr.cells = true → writeBackDue u k = some w → w.pa < usableBytes u → w.pa % 32 = 0 →
    ∃ v, exec (.lpddrWriteBack k ecc vat t) s = .next v ∧ ∀ a, a % 32 = 0 →
      (dramRead v.lpddr a).1 = if a = w.pa ∧ u.lpddr.inService = true
        then mergeSector (dramRead u.lpddr w.pa).1 w.data w.mask else (dramRead u.lpddr a).1

/-- Every command but LPDDR_READ and LPDDR_WRITE_BACK answers a next state on every state and operands. It rests on the
model's own choices or readings of log entries 3, 36. -/
def Obligations.EveryCommandButTwoCompletes : Prop :=
  (∀ (c : Instr) (s : State), (∀ x ecc t, c ≠ .lpddrRead x ecc t) → (∀ k ecc vat t, c ≠ .lpddrWriteBack k ecc vat t) →
    ∃ v, exec c s = .next v) ∧
  (∀ (c : Instr) (s : State), (∃ v, exec c s = .next v) ∨ exec c s = .fault .noSuchAddress)

/-- An ACK of another value, or at a slot in IDLE, BUSY or STALE, is ignored and records nothing -/
def Obligations.IgnoredAckChangesNothing : Prop :=
  ∀ s k value t, let u := s.upTo t
    (value ≠ (getSlot u k).seq ∨ (getSlot u k).st = .idle ∨ (getSlot u k).st = .busy ∨ (getSlot u k).st = .stale) →
    exec (.mbxAck k value t) s = .next u

/-- A refused GO keeps the slot, sets GO_LOST and the lowest GO cause, and writes one MBX_GO_REFUSED record -/
def Obligations.RefusedGoKeepsTheSlotAndHoldsTheLowestCause : Prop :=
  ∀ s k value t c, let u := s.upTo t
    barAnswers u k.fn = true → k.slot < slotCount k.fn → isTenant u k.fn = true →
    goCauseApplies (getSlot u k) (getFn u k.fn).suspended value c → (∀ d,
      goCauseApplies (getSlot u k) (getFn u k.fn).suspended value d → c ≤ d) →
    ∃ v r, exec (.mbxGo k value t) s = .next v ∧
      v = { u with
            slots := v.slots
            err := { u.err with detected := u.err.detected ++ [r] }
            lock := (mordantInput u 2).lock } ∧
      getSlot v k = { getSlot u k with goLost := true, goCause := c } ∧ (∀ j, j ≠ k → getSlot v j = getSlot u j) ∧
      r.code = 0x0110 ∧ r.scope = 0 ∧ r.tenant = some k.fn ∧ r.dest = { t := true } ∧
      r.detail = detailOf k.slot value.toNat c 0

/-- ERR_ACK consumes, in order, up to and including the record whose SEQ is written, and sets ERR_SEL to 0 -/
def Obligations.ErrAckConsumesUpToTheRecord : Prop :=
  ∀ s fn (value : Word) t, let u := s.upTo t
    barAnswers u fn = true → turnedNow u = [] →
    (∀ before r after, windowOf u fn = before ++ r :: after → (∀ x ∈ before, x.seq ≠ value.toNat) → r.seq = value.toNat →
      ∃ v, exec (.errAck fn value t) s = .next v ∧ windowOf v fn = after ∧
        (∀ g, g ≠ fn → (windowOf v g).map StoredRec.rec_ = (windowOf u g).map StoredRec.rec_ ∧
          (windowOf v g).map StoredRec.seq = (windowOf u g).map StoredRec.seq) ∧
        tblGetD v.err.sel fn 0 = 0 ∧ v = { u with err := { u.err with stored := v.err.stored, sel := v.err.sel } } ∧
        ∀ g, g ≠ fn → tblGetD v.err.sel g 0 = tblGetD u.err.sel g 0) ∧
    ((∀ r ∈ windowOf u fn, r.seq ≠ value.toNat) → exec (.errAck fn value t) s = .next u)

/-- A register instruction changes one group: its destination registers in the executing lanes and the PCs. It rests on
the model's own choices or readings of log entries 7, 14, 15. -/
def Obligations.RegisterInstructionsFrame : Prop :=
  (∀ row op width, (row, op, width) ∈ wordRows → ∀ s slot w t x, issuing s slot w t (· == op) = some x →
    ∀ h, getGroup x.s slot = some h →
    ∃ v g, exec (row slot w t) s = .next v ∧ v = { x.s with cores := { x.s.cores with groups := v.cores.groups } } ∧
      (∀ k, k ≠ slot → getGroup v k = getGroup x.s k) ∧ getGroup v slot = some g ∧
      g = { x.g with v := g.v, sregs := g.sregs, pcs := g.pcs } ∧
      (∀ r l, (x.iw.dk = 1 ∨ r < x.iw.d ∨ x.iw.d + width ≤ r ∨ l ∉ x.lanes) → vreg g r l = vreg x.g r l) ∧
      (∀ r, (x.iw.dk ≠ 1 ∨ r < x.iw.d ∨ x.iw.d + width ≤ r) → sreg g r = sreg x.g r)) ∧
  (∀ row op, (row, op) ∈ [(Instr.icmp, 0x16), (Instr.fcmp, 0x25), (Instr.plop, 0x45), (Instr.pmov, 0x46)] →
    ∀ s slot w t x, issuing s slot w t (· == op) = some x → ∀ h, getGroup x.s slot = some h →
    ∃ v g, exec (row slot w t) s = .next v ∧ v = { x.s with cores := { x.s.cores with groups := v.cores.groups } } ∧
      (∀ k, k ≠ slot → getGroup v k = getGroup x.s k) ∧ getGroup v slot = some g ∧
      g = { x.g with preds := g.preds, sregs := g.sregs, pcs := g.pcs } ∧
      (∀ r l, l < 32 → (x.iw.dk = 1 ∨ r ≠ x.iw.d ∨ l ∉ x.lanes) → preg g r l = preg x.g r l) ∧
      (∀ r, (x.iw.dk ≠ 1 ∨ r ≠ x.iw.d) → sreg g r = sreg x.g r))

/-- BAR0 reads: the result words only in DONE, the selected error record below PENDING, all ones otherwise. It rests on
the model's own choices or readings of log entries 21, 53. -/
def Obligations.RegisterReadsShowSlotsAndErrorWindow : Prop :=
  (∀ s fn i k, i < slotCount fn → k < 6 →
    let v := getSlot s { fn := fn, slot := i }
    readBar0 s fn (0x1000 + 64 * i + 0x20 + 4 * k) = if v.st = .done then v.res.getD k 0#32 else 0xFFFFFFFF#32) ∧
  (∀ s fn i k, i < slotCount fn → k < 8 →
    readBar0 s fn (0x1000 + 64 * i + 4 * k) = (getSlot s { fn := fn, slot := i }).body.getD k 0#32) ∧
  (∀ s fn i, i < slotCount fn → readBar0 s fn (0x1000 + 64 * i + 0x3C) = (getSlot s { fn := fn, slot := i }).seq) ∧
  (∀ s fn k, k < 16 →
    readBar0 s fn (0x2040 + 4 * k) = match (windowOf s fn)[tblGetD s.err.sel fn 0]? with
      | some r => (recordWords r).getD k 0#32
      | none => 0xFFFFFFFF#32) ∧
  (∀ s fn, (windowOf s fn = [] → readBar0 s fn 0x2010 = 0#32) ∧
    ∀ r rest, windowOf s fn = r :: rest → readBar0 s fn 0x2010 = BitVec.ofNat 32 r.seq)

/-- Power-on, brown-out, lock, training and the warm reset's end take the block to the states of spec 03. It rests on the
model's own choices or readings of log entries 4, 5. -/
def Obligations.StartUpEventsAct : Prop :=
  (∀ s, ∃ ph, exec .resetNAssert s = .next (powerOn s ph false) ∧ (s.life.phase ≠ .brownOut → s.life.phase ≠ .releasedLow →
    ph = .held)) ∧
  (∀ s straps, s.life.pins.resetN = false → s.life.phase ≠ .brownOut →
    exec (.resetNRise straps) s = .next (beginStart
      { s with
        life := { s.life with pins := { s.life.pins with resetN := true } }
        jtag := { s.jtag with balls := .system } } straps)) ∧
  (∀ s rail, s.life.pins.resetN = true → s.life.phase ≠ .brownOut →
    exec (.brownOut rail) s = .next (let v := powerOn s .brownOut true
      { v with life := { v.life with brownFlag := true } })) ∧
  (∀ s straps, s.life.phase = .brownOut →
    exec (.brownOutRelease straps) s = .next (if s.life.pins.resetN then beginStart s straps
      else { s with life := { s.life with phase := .releasedLow } })) ∧
  (∀ s checks, s.life.phase = .awaitLock → s.metro.lost = false →
    let v : State :=
      { s with
        err := {}, metro := { now := 0, running := true }, life := { s.life with lockFailed := false, startStatus := 0 } }
    (∀ code, failedCheck checks = some code → exec (.metronomeLock checks) s = .next (faultEdge s (fatal v code))) ∧
    (failedCheck checks = none → exec (.metronomeLock checks) s = .next (let v := installBoot v
      { v with life := { v.life with phase := .awaitTraining, pins := { v.life.pins with ddrReset := true } } }))) ∧
  (∀ s, s.life.phase = .awaitLock → exec .metronomeLockTimeout s =
    .next (faultEdge s { s with life := { s.life with lockFailed := true, startStatus := 0x01 } })) ∧
  (∀ s failed density ranks t, let u := s.upTo t
    u.life.phase = .awaitTraining → timed u = true → u.life.straps.adminSel = false →
    let m := channelMask u
    let same := fun (x : BitVec 16) => x &&& m = 0#16 ∨ x &&& m = m
    let bad := if same density ∧ same ranks then failed &&& m else m
    let v : State := { u with
      lpddr := { u.lpddr with
        density2g := density &&& m == m, ranks2 := ranks &&& m == m, trainFail := bad, inService := bad == 0#16 }
      life := { u.life with
        phase := .opened, startStatus := if bad = 0#16 then 0 else 0x10
        devCause := if u.life.brownFlag then 1 else 0, brownFlag := false } }
    exec (.lpddrTrainingDone failed density ranks t) s =
      .next (faultEdge u (if bad = 0#16 then v else pushRecord v (trainFailRec v)))) ∧
  (∀ s checks failed t w, let u := s.upTo t
    u.life.warm = some w → u.forfeits.isEmpty = true →
    (∀ code, failedCheck checks = some code → exec (.warmResetComplete checks failed t) s =
      .next (faultEdge u (fatal { u with lock := { u.lock with sepia := false, sepiaOut := false } } code))) ∧
    (failedCheck checks = none → ∃ v, exec (.warmResetComplete checks failed t) s = .next (ibiCause (faultEdge u
      (warmSlots v (w.causes.filterMap fun c => match c with
        | .admin k => some k
        | .i3c => none))) 4) ∧ v.life.warm = none ∧ v.cores = {} ∧ v.madders = {} ∧ v.gfx = {} ∧ v.xfer = {} ∧
      v.ctxs = u.ctxs ∧ v.queues = u.queues ∧ v.i3c.busy = false))

/-- Domain switching, crystal loss and return, the trip latch, the backup flag and sensor refresh. It rests on the model's
own choices or readings of log entries 4, 20, 47. -/
def Obligations.PowerDomainsPinsAndSensorsAct : Prop :=
  (∀ s d t t0, let u := s.upTo t
    timed u = true → t % 10000 = 0 → u.stamp = t → d < 72 → (getDom u d).st = .on → (getDom u d).policy = .auto →
    (getDom u d).idleSince = some t0 → u.power.idleOff.getD (domClass d) 0 ≠ 0 →
    heldMoreThan t0 t (u.power.idleOff.getD (domClass d) 0 * 1000) = true → heldOn u d = false →
    workPending u d = false → mustSave u d = false →
    exec (.domainIdleOff d t) s = .next (startOff u d true)) ∧
  (∀ s d t, let u := s.upTo t
    (getDom u d).st = .switchingOff →
    exec (.domainOffDone d t) s = .next (modDom u d fun x =>
      { x with
        st := if x.wakeAfter then .waking else .off, wakeAfter := false, changedAt := u.stamp, changedBefore := x.changedAt
        byIdle := false })) ∧
  (∀ s d t, let u := s.upTo t
    (getDom u d).st = .waking → (24 ≤ d → d < 48 → domOn u (d - 24) = true) →
    let v := modDom u d fun x =>
      { x with
        st := .on, changedAt := u.stamp, changedBefore := x.changedAt, byIdle := false
        idleSince := if domainBusy u d then none else some u.stamp }
    exec (.domainWake d t) s = .next { v with cores := { v.cores with lsEver := tblErase v.cores.lsEver d } }) ∧
  (∀ s d t, let u := s.upTo t
    (getDom u d).policy = .forceOff → (getDom u d).st = .on → (d < 48 ∨ 64 ≤ d) → domainBusy u d = false →
    heldOn u d = false → mustSave u d = false → exec (.forceOffDrained d t) s = .next (startOff u d false)) ∧
  (∀ s t, let u := s.upTo t
    u.metro.running = true → u.metro.lost = false →
    let v : State := { u with
      metro := { u.metro with lost := true, awaitWarm := isOpen u }
      queues := u.queues.map fun e => (e.1, { e.2 with stops := insertOnce e.2.stops .crystal }) }
    let v := pushRecord v { deviceRec v 0x0004 6 [.b] with
      loc := { unit := .mordant }, detail := detailOf v.stamp (v.stamp / 2 ^ 32) 0 0 }
    exec (.crystalLoss t) s = .next (faultEdge u ((v.queues.map Prod.fst).foldl settleQueue v))) ∧
  (∀ s t, let u := s.upTo t
    u.life.phase = .awaitLock → u.metro.running = false → u.metro.lost = false →
    exec (.crystalLoss t) s = .next (faultEdge u { u with metro := { u.metro with lost := true } })) ∧
  (∀ s, exec .crystalReturn s = .next { s with metro := { s.metro with lost := false } }) ∧
  (∀ s, exec .thermtrip s = .next { s with life := { s.life with pins := { s.life.pins with thermTrip := true } } }) ∧
  (∀ s, exec .vdda18Below1v s =
    .next { s with life := { s.life with brownFlag := false, pins := { s.life.pins with thermTrip := false } } }) ∧
  (∀ s readings t, let u := s.upTo t
    timed u = true → t % 100000 = 0 → u.stamp = t →
    let failed := (List.range 16).filter fun i => u.sensors.failed.contains i || (readings.getD i none).isNone
    exec (.sensorRefresh readings t) s = .next (tempCause { u with sensors :=
      { temp := (List.range 16).map fun i => if failed.contains i then none else readings.getD i none
        failed := failed, before := u.sensors.temp, refreshed := some t } }))

/-- The Governor samples, releases, drives SPMI, saturates and clears its flags; METRO_LO captures the count. It rests on
the model's own choices or readings of log entries 17, 46, 47, 48, 49. -/
def Obligations.GovernorAndMetronomeAct : Prop :=
  (∀ s counts activity estDone t, let u := s.upTo t
    sampleDue u t = true →
    let stuck := stuckMonitors u counts t
    let v := stuck.foldl (fun v n => pushRecord v { govRec v 0x0006 0 [.d] with loc := { unit := .pace, index := n } }) u
    let v : State := { v with gov := { v.gov with excluded := v.gov.excluded ++ stuck } }
    let pest := Config.powerEstimate activity (if u.sensors.refreshed = some t then u.sensors.before else u.sensors.temp)
    let g := applyCommits v.gov t
    let r := sampleLoop g.inForce g.loop t (counts.getD 31 0 == 0 || !estDone)
      (paceOf ((leastNat ((contributing v t).map fun n => counts.getD n 0)).getD 0)) pest.toInt
    exec (.governorSample counts activity estDone t) s =
      .next { v with gov := { g with held := some (g.loop, r.2), loop := r.1, lastSample := some t } }) ∧
  (∀ s computed t old r, let u := s.upTo t
    u.gov.held = some (old, r) → timed u = true → u.stamp = r.stamp + 38400 →
    let lr := released u.gov old r computed
    let v : State := { u with gov := govPageAfter u.gov lr.1 lr.2 u.stamp }
    let v := match lr.2.code with
      | some c => emit v (.spmi (spmiFrameOf lr.2.params c))
      | none => v
    exec (.governorOutput computed t) s = .next (if lr.2.staleNow && !u.gov.page.staleNow then
      pushRecord v { govRec v 0x0005 0 [.d] with stamp := r.stamp } else v)) ∧
  (∀ s ok t, let u := s.upTo t
    u.gov.frame.isSome = true →
    let v : State := { u with gov := { u.gov with frame := none, spmiFailRun := !ok } }
    exec (.spmiFrameDone ok t) s =
      .next (if !ok && !u.gov.spmiFailRun then pushRecord v (govRec v 0x0007 0 [.d]) else v)) ∧
  (∀ s t t0, let u := s.upTo t
    u.gov.loop.episodeStart = some t0 → heldMoreThan t0 (u.gov.lastSample.getD 0) 100000000 = true →
    2002 ≤ u.gov.loop.episode → mayEnter u 0x0008 = true →
    exec (.govSaturation t) s = .next (decideSepia (pushRecord u (govRec u 0x0008 6 [.b])) 0x0008 none)) ∧
  (∀ s fn value t, let u := s.upTo t
    isAdmin fn = true → barAnswers u fn = true →
    let stays := fun (bit : Nat) => !bitOf value bit ||
      (u.metro.running && !u.metro.lost && u.gov.lastSet.2 == u.stamp && u.gov.lastSet.1.contains bit)
    exec (.govFlagClear fn value t) s = .next { u with gov := { u.gov with
      satHi := u.gov.satHi && stays 8
      satLo := u.gov.satLo && stays 9
      integClamp := u.gov.integClamp && stays 10
      sensorStale := u.gov.sensorStale && stays 11 } }) ∧
  (∀ s fn size t, let u := s.upTo t
    barAnswers u fn = true → (size = 4 ∨ size = 8) →
    exec (.metroLoRead fn size t) s = .next (emit (modFn u fn fun f => { f with metroCap := some u.stamp })
      (.cpl fn .success (leBytes size u.stamp) false)))

/-- PERST, DL_Down, link and correctable-error events act on their port. It rests on the model's own choices or readings
of log entries 11, 42, 57. -/
def Obligations.LinkAndPortEventsAct : Prop :=
  (∀ s p t, let v := setPerstPin (s.upTo t) p false
    (getPort v p).present = true → (getPort v p).perst = false →
    exec (.perstAssert p t) s = .next (modPort (startPortReset v p 1) p fun x => { x with perst := true })) ∧
  (∀ s p t, exec (.perstDeassert p t) s =
    .next (modPort (setPerstPin (s.upTo t) p true) p fun x => { x with perst := false })) ∧
  (∀ s p t, let u := s.upTo t
    (getPort u p).linkUp = true → exec (.dlDown p t) s = .next (startPortReset u p 2)) ∧
  (∀ s p speed width t, let u := s.upTo t
    phyRuns u = true → (getPort u p).present = true → (getPort u p).perst = false → linkOk p speed width = true →
    exec (.linkUp p speed width t) s =
      .next (modPort u p fun x => { x with linkUp := true, speed := speed, width := width })) ∧
  (∀ s p speed width t, let u := s.upTo t
    (getPort u p).linkUp = true → linkOk p speed width = true →
    exec (.linkRetrain p speed width t) s = .next (modPort u p fun x => { x with speed := speed, width := width })) ∧
  (∀ s p, isOpen s = true → (getPort s p).linkUp = true →
    ∃ v, exec (.linkCorrectableError p) s = .next v ∧
      v = aer (aer s (adminOf p) .correctable) (pf1Of p) .correctable ∧ v = { s with out := v.out, fns := v.fns })

/-- Configuration, SR-IOV, FLR, D3hot, bus mastering and MSI-X mask commands act on their function. It rests on the
model's own choices or readings of log entries 11, 42. -/
def Obligations.FunctionsAppearResetAndSleep : Prop :=
  (∀ s fn req t, let u := s.upTo t
    fnExists u fn = true → (getPort u (portOf fn)).linkUp = true →
    (cfgStatus u fn = .success → (∀ x, req ≠ .read x) →
      exec (.configRequest fn req t) s = .next (emit (cfgWrite u fn req) (.cpl fn .success [] false))) ∧
    (∀ x, cfgStatus u fn = .success → x ≠ .other → req = .read x →
      exec (.configRequest fn req t) s = .next (emit u (.cpl fn .success (leBytes 8 (cfgValue u fn x)) false))) ∧
    (cfgStatus u fn ≠ .success →
      exec (.configRequest fn req t) s = .next (emit u (.cpl fn (cfgStatus u fn) [] false)))) ∧
  (∀ s p, let fn := pf1Of p
    cfgValue s fn .totalVfs = totalVfs p ∧ cfgValue s fn .initialVfs = totalVfs p ∧ cfgValue s fn .firstVfOffset = 1 ∧
    cfgValue s fn .vfStride = 1 ∧ cfgValue s fn .numVfs = (getPort s p).numVfs ∧ cfgValue s fn .noSoftReset = 1 ∧
    cfgValue s fn .msixPbaOffset = 0xC000 ∧ cfgValue s fn .msixTableOffset = 0x8000 ∧ cfgValue s fn .maxPayloadSupported = 512 ∧
    (∀ x ∈ [PciFeature.ats, .pri, .pasid, .tph, .hotPlug, .intx, .l1Substates, .d3cold, .pme, .atomicCompleter, .resizableBar],
      cfgValue s fn (.feature x) = 0)) ∧
  (∀ s p n t, let u := s.upTo t
    fnReachable u (pf1Of p) = true → (getPort u p).vfEnable = false →
    exec (.numvfsWrite p n t) s = .next (modPort u p fun x => { x with numVfs := min n (totalVfs p) }) ∧
    exec (.vfEnableSet p t) s = .next ((coveredVfs (modPort u p fun x => { x with vfEnable := true }) p).foldl
      (fun v fn => if (getFn v fn).phase == .absent then
        setFn v fn { fnDefault fn with phase := .enabling, fnCause := (getFn v fn).fnCause } else v)
      (modPort u p fun x => { x with vfEnable := true }))) ∧
  (∀ s fn t, let u := s.upTo t
    (getFn u fn).phase = .enabling →
    exec (.vfReady fn t) s = .next (modFn u fn fun f => { f with phase := .ready, suspended := inSepia u })) ∧
  (∀ s p t, let u := s.upTo t
    fnReachable u (pf1Of p) = true → (getPort u p).vfEnable = true →
    exec (.vfEnableClear p t) s = .next (startForfeit (clearVfEnable u p) [.vfClear p] [])) ∧
  (∀ s fn t, let u := s.upTo t
    fnReachable u fn = true → (getFn u fn).flr = false →
    let v := quarantineAll (modFn u fn fun f => { f with flr := true, flrForfeited := false }) fun _ g => g == fn
    exec (.flrInitiate fn t) s = .next (if fn == pf1Of (portOf fn) && (getPort v (portOf fn)).vfEnable then
      startForfeit (clearVfEnable v (portOf fn)) [.flr fn, .vfClear (portOf fn)] []
      else startForfeit v [.flr fn] [])) ∧
  (∀ s fn t, let u := s.upTo t
    (getFn u fn).flr = true → (getFn u fn).flrForfeited = true →
    exec (.flrComplete fn t) s = .next (modFn u fn fun f => { f with flr := false, flrForfeited := false })) ∧
  (∀ s fn t, let u := s.upTo t
    fnReachable u fn = true →
    (isPf fn = true → (getFn u fn).flr = false → exec (.d3hotEnter fn t) s =
      .next (modStops (modFn u fn fun f => { f with d3hot := true }) fn fun l => insertOnce l .d3hot)) ∧
    ((getFn u fn).d3hot = true → exec (.d3hotExit fn t) s =
      .next (modStops (modFn u fn fun f => { f with d3hot := false }) fn fun l => removeAll l .d3hot)) ∧
    exec (.busMasterEnable fn t) s = .next (sendPending (modFn u fn fun f => { f with busMaster := true }) fn)) ∧
  (∀ s fn t, let u := s.upTo t
    barAnswers u fn = true →
    (∀ v, v < vectorCount fn → exec (.msixUnmask fn (some v) t) s =
      .next (sendPending (modFn u fn fun f => { f with msix := tblSet f.msix v { msixEntry f v with mask := false } }) fn)) ∧
    exec (.msixUnmask fn none t) s = .next (sendPending (modFn u fn fun f => { f with msixFnMask := false }) fn))

/-- REGISTER_WRITE, BAR2 reads and writes, and unsupported requests complete as spec 04 says. It rests on the model's own
choices or readings of log entries 40, 42, 56. -/
def Obligations.HostAccessesAct : Prop :=
  (∀ s fn off size value t, let u := s.upTo t
    barAnswers u fn = true → (size = 4 ∨ size = 8) → off % size = 0 → off + size ≤ 0x10000 →
    let v := writeBar0 u fn off (value.extractLsb' 0 32)
    exec (.registerWrite fn false off size value false t) s =
      .next (if size = 8 then writeBar0 v fn (off + 4) (value.extractLsb' 32 32) else v)) ∧
  (∀ s fn bar4 off size value t, let u := s.upTo t
    barAnswers u fn = true → exec (.registerWrite fn bar4 off size value true t) s =
      .next (aer (pushRecord u (hostRec u 0x0105 fn)) fn .poisonedTlp)) ∧
  (∀ s fn off len t ps, let u := s.upTo t
    barAnswers u fn = true → off + len ≤ 2 ^ 32 → aperturePieces u fn off len .bar2Read = some ps →
    let id := u.traffic.nextReq
    let v := (takeReq (modFn u fn fun f => { f with apFaultRun := false })).2
    let v := ps.foldl (fun v e => issueBar2 v fn id e .read) v
    let q : HostReq := { fn := fn, pieces := ps.map fun e => (e.2.1 / 128 * 128, e.2.1 % 128, e.2.2.2) }
    exec (.bar2Read fn off len t) s =
      .next (completeHostReq { v with traffic := { v.traffic with hostReqs := tblSet v.traffic.hostReqs id q } } id)) ∧
  (∀ s fn off len t, let u := s.upTo t
    barAnswers u fn = true → off + len ≤ 2 ^ 32 → aperturePieces u fn off len .bar2Read = none →
    exec (.bar2Read fn off len t) s =
      .next (emit (apertureFault u fn off) (.cpl fn .success (List.replicate len 0xFF#8) false))) ∧
  (∀ s fn off bytes t, let u := s.upTo t
    barAnswers u fn = true → off + bytes.length ≤ 2 ^ 32 →
    (aperturePieces u fn off bytes.length .bar2Write = none →
      exec (.bar2Write fn off bytes false t) s = .next (apertureFault u fn off)) ∧
    (∀ ps, aperturePieces u fn off bytes.length .bar2Write = some ps →
      exec (.bar2Write fn off bytes false t) s =
        .next (ps.foldl (fun v e => issueBar2 v fn u.traffic.nextReq e (.write (pieceWrite bytes e.2) false))
          (takeReq (modFn u fn fun f => { f with apFaultRun := false })).2))) ∧
  (∀ s id q, tblGet s.traffic.hostReqs id = some q → (∀ x ∈ hostReqParts s id q, x.isSome = true) →
    ∃ v data bad, completeHostReq s id = v ∧ v.out = s.out ++ [.cpl q.fn .success data bad] ∧
      tblGet v.traffic.hostReqs id = none) ∧
  (∀ s fn bar off size write t, let u := s.upTo t
    isOpen u = true → fnExists u fn = true → (getPort u (portOf fn)).linkUp = true → (getPort u (portOf fn)).inReset = false →
    barAnswers u fn = false → ((getFn u fn).flr || (getFn u fn).d3hot) = true →
    exec (.unsupportedRequest fn bar off size write t) s =
      .next (if write then u else emit u (.cpl fn .unsupported [] false)))

/-- TAG_GRANT, COMPLETION_RX, COMPLETION_TIMEOUT, quarantine expiry and malformed TLPs act by R164 to R169. It rests on
the model's own choices or readings of log entries 19, 42, 58. -/
def Obligations.TagsAndCompletionsAct : Prop :=
  (∀ s n tag t a at_ p fn addr, let u := s.upTo t
    getAccess u n = some a → a.stage = .waitTag at_ → a.home = .host p fn addr → a.kind = .read →
    (getFn u fn).busMaster = true → (getPort u p).linkUp = true → (getPort u p).inReset = false →
    tagAllowed u p tag a.pri = true → tagTaken u p tag = false → tagsHeld u fn < tagLimit u fn → ordered u a = true →
    updateWaits u n a = false →
    exec (.tagGrant n tag t) s = .next (emit (modAccess u n fun a => { a with stage := .onLink tag u.stamp })
      (.hostRead p fn tag (addr + a.hostSpan.1) a.hostSpan.2))) ∧
  (∀ s n tag t a at_ p fn addr op w off x y rest, let u := s.upTo t
    getAccess u n = some a → a.stage = .waitTag at_ → a.home = .host p fn addr → a.kind = .atomic op w ((off, x, y) :: rest) →
    hostReady u p fn = true → tagAllowed u p tag a.pri = true → tagTaken u p tag = false → tagsHeld u fn < tagLimit u fn →
    ordered u a = true → updateWaits u n a = false →
    exec (.tagGrant n tag t) s = .next (emit (modAccess u n fun a => { a with stage := .onLink tag u.stamp })
      (.hostAtomic p fn tag (addr + off) op x y))) ∧
  (∀ s p tag bytes t n a since p' fn addr, let u := s.upTo t
    tagAccess u p tag = some (n, a) → a.stage = .onLink tag since → a.home = .host p' fn addr →
    u.stamp < since + timeoutOf u fn →
    let data := bytes.take (a.asked - a.got)
    let b : Access := { a with bytes := a.bytes ++ data, got := a.got + data.length }
    exec (.completionRx p tag .ok bytes t) s = .next (if b.asked ≤ b.got then
      endRequest (modAccess u n fun _ => b) n b else modAccess u n fun _ => b) ∧
    exec (.completionRx p tag .poisoned bytes t) s =
      .next (takeCompletion (aer (pushRecord u (hostRec u 0x0105 fn)) fn .poisonedTlp) n a bytes true) ∧
    exec (.completionRx p tag .badStatus bytes t) s = .next (endRequest (pushRecord u (hostRec u 0x0104 fn)) n a)) ∧
  (∀ s p tag status bytes t n a since p' fn addr, let u := s.upTo t
    tagAccess u p tag = some (n, a) → a.stage = .onLink tag since → a.home = .host p' fn addr →
    since + timeoutOf u fn ≤ u.stamp →
    exec (.completionRx p tag status bytes t) s = .next (lateCompletion (timeoutAccess u n) p tag)) ∧
  (∀ s p tag status bytes t, let u := s.upTo t
    tagAccess u p tag = none → exec (.completionRx p tag status bytes t) s = .next (lateCompletion u p tag)) ∧
  (∀ s n t a tag since p fn addr, let u := s.upTo t
    getAccess u n = some a → a.stage = .onLink tag since → a.home = .host p fn addr → timed u = true →
    since + timeoutOf u fn ≤ u.stamp → exec (.completionTimeout n t) s = .next (timeoutAccess u n)) ∧
  (∀ s p tag t, let u := s.upTo t
    ∃ v, exec (.tagQuarantineExpire p tag t) s = .next v ∧ v = { u with traffic := v.traffic } ∧
      v.traffic = { u.traffic with quarantined := v.traffic.quarantined } ∧
      ∀ q, q ∈ v.traffic.quarantined ↔
        q ∈ u.traffic.quarantined ∧ ¬ (timed u = true ∧ q.port = p ∧ q.tag = tag ∧ q.returns ≤ u.stamp)) ∧
  (∀ s p header t, let u := s.upTo t
    isOpen u = true → (getPort u p).linkUp = true →
    let v := pushRecord u { portRec u 0x0107 0 [.p] p with detail := header }
    exec (.malformedTlp p .malformed header t) s = .next (aer v (adminOf p) .malformed) ∧
    exec (.malformedTlp p .ecrc header t) s = .next (aer v (adminOf p) .ecrc) ∧
    exec (.malformedTlp p .overflow header t) s = .next (aer v (adminOf p) .receiverOverflow))

/-- MBX_GO is accepted or refused with the lowest cause; MBX_ACK with the slot's SEQ makes it STALE; an unknown command.
It rests on the model's own choices or readings of log entries 8, 18. -/
def Obligations.GoAndAckMoveTheSlot : Prop :=
  (∀ s k value t, let u := s.upTo t
    barAnswers u k.fn = true → k.slot < slotCount k.fn →
    (leastNat (goCauses u k (getSlot u k) value) = none → exec (.mbxGo k value t) s =
      let w := mordantInput (acceptGo u k value) 0
      .next (if mordantServes w then refuseOverlapping w k else w)) ∧
    (∀ c, leastNat (goCauses u k (getSlot u k) value) = some c →
      exec (.mbxGo k value t) s = .next (refuseGo u k value c))) ∧
  (∀ s k value t, let u := s.upTo t
    barAnswers u k.fn = true → k.slot < slotCount k.fn → (getSlot u k).seq = value →
    ((getSlot u k).st = .done ∨ (getSlot u k).st = .refused) →
    exec (.mbxAck k value t) s = .next (setSlot u k { getSlot u k with st := .stale, cause := 0 })) ∧
  (∀ s k t, let u := s.upTo t
    cmdInfo (cmdCode (getSlot u k).cmd) = none → startable u k = true →
    exec (.unknownCmd k t) s = .next (slotRefuse u k 0x01))

/-- NOP, TENANT_INFO, ADM_TENANT_INFO, GOV_GET and QUERY_CTX answer their results. It rests on the model's own choices or
readings of log entries 10, 40. -/
def Obligations.ReportingCommandsAnswer : Prop :=
  (servedBy .nop 0x0001 anyCmd noCauses
    fun u k cmd => slotDone u k ((cmd.drop 1).take 6)) ∧
  (servedBy .tenantInfo 0x0002 anyCmd noCauses
    fun u k _ => slotDone u k (allocRecord u k.fn)) ∧
  (servedBy .admTenantInfo 0x0105 anyCmd (fun s k cmd =>
      causesOf [(offAuthority s k (argTenant cmd), 0x02), (!isTenant s (argTenant cmd), 0x05)])
    fun u k cmd => slotDone u k (allocRecord u (argTenant cmd))) ∧
  (servedBy .govGet 0x0202 anyCmd (fun _ _ cmd => causesOf [(argN cmd 1 > 17, 0x04)])
    fun u k cmd => slotDone u k [govGet u.gov.got (argN cmd 1)]) ∧
  (servedBy .queryCtx 0x0050 anyCmd (fun s k cmd => causesOf [(argVa cmd 2 % 256 ≠ 0, 0x04), (!ctxThere s k.fn cmd, 0x05)])
    fun u k cmd =>
      let c := argCtx k.fn cmd
      match getCtx u c, translate u c (argVa cmd 2) .store with
      | none, _ => slotDone u k [0#32]
      | some _, .error e => slotDone (tableKill u c (argVa cmd 2) e) k [0#32]
      | some x, .ok (h, l) =>
        let w := sendRecord (holdResult u k [resWord 256]) k c (argVa cmd 2) h l (queryRecord u c x)
        endQuery (if argF cmd 1 8 8 = 1 then modCtx w c (resetCounters w) else w) k cmd) ∧
  (resumedBy .queryCtx 0x0050 anyCmd fun u k _ =>
      let mine := fun (e : Nat × Access) => e.2.client == .mordant k && !e.2.dropped
      if u.traffic.accesses.any fun e => mine e && e.2.stage != .answered then u
      else finishHeld { u with traffic := { u.traffic with accesses := u.traffic.accesses.filter fun e => !mine e } } k)

/-- CTX_CREATE, DESTROY, RESET, SET and Q_CREATE, DESTROY, SET act on their context or queue. It rests on the model's own
choices or readings of log entries 9, 10, 44. -/
def Obligations.ContextAndQueueCommandsAct : Prop :=
  (servedBy .ctxCreate 0x0010 anyCmd ctxCreateCauses
    fun u k cmd =>
      let i := (createIndex u k.fn cmd).getD 0
      let p := takeUnits u saveAreaUnits
      let c : Ctx := { seed := cmd.getD 2 0#32, saveUnits := p.1, stampStart := u.stamp }
      let id : CtxId := { tenant := k.fn, idx := i }
      slotDone (addTable { p.2 with ctxs := tblSet p.2.ctxs id c } id (3, 0)) k [resWord i]) ∧
  (servedBy .ctxDestroy 0x0011 anyCmd ctxCauses
    fun u k cmd =>
      let c := argCtx k.fn cmd
      let v := stopWork (holdResult u k []) fun x => x = c
      let w := modCtx v c fun x => { x with leaves := [], tables := [] }
      endDestroy { w with queues := v.queues.filter fun e => e.1.ctx ≠ c } k cmd) ∧
  (resumedBy .ctxDestroy 0x0011 anyCmd fun u k cmd =>
      let c := argCtx k.fn cmd
      if ctxBusy u c then u else finishHeld (reapObjects (destroyContext u c)) k) ∧
  (servedBy .ctxReset 0x0012 anyCmd ctxCauses
    fun u k cmd => startForfeit u [.ctxReset (argCtx k.fn cmd)] [(k, (getSlot u k).seq, [])]) ∧
  (servedBy .ctxSet 0x0013 anyCmd ctxSetCauses
    fun u k cmd =>
      let c := argCtx k.fn cmd
      slotDone (modCtx u c fun x => setCtxParam x (argParam cmd) (argN cmd 2)) k
        [resWord (((getCtx u c).map fun x => ctxParam x (argParam cmd)).getD 0)]) ∧
  (servedBy .qCreate 0x0020 anyCmd qCreateCauses
    fun u k cmd =>
      let q := argQueue k.fn cmd
      slotDone (settleQueue { u with queues := tblSet u.queues q (newQueue u k.fn cmd) } q) k [resWord (argF cmd 1 23 16)]) ∧
  (servedBy .qDestroy 0x0021 anyCmd (fun s k cmd => causesOf [(noQueue s k cmd, 0x05)])
    fun u k cmd =>
      let q := argQueue k.fn cmd
      let v := match getFrame u q with
        | some f => discardBins u q f
        | none => u
      let w := stopQueues (holdResult v k []) (fun x => x = q) fun _ => false
      endQDestroy (modQueue w q fun r => { resetQueue r with stops := insertOnce r.stops .destroy, st := .stopped }) k cmd) ∧
  (resumedBy .qDestroy 0x0021 anyCmd fun u k cmd =>
      let q := argQueue k.fn cmd
      if discardedWrites u q.ctx then u
      else finishHeld (modCtx { u with queues := tblErase u.queues q } q.ctx fun c =>
        { c with dlQueue := c.dlQueue.set q.q (0, 0) }) k) ∧
  (servedBy .qSet 0x0022 anyCmd (fun s k cmd =>
      causesOf [(!queueParamOk k.fn (argParam cmd) (argN cmd 2), 0x04), (noQueue s k cmd, 0x05)])
    fun u k cmd =>
      let q := argQueue k.fn cmd
      slotDone (modQueue u q fun r => setQueueParam r (argParam cmd) (argN cmd 2)) k
        [resWord (((getQueue u q).map fun r => queueParam r (argParam cmd)).getD 0)])

/-- MEM_ALLOC, FREE, MAP, UNMAP, SEG_ACQUIRE, SEG_RELEASE and the three VAT_MAINT operations act. It rests on the model's
own choices or readings of log entries 9, 10, 39, 45, 50. -/
def Obligations.MemoryCommandsAct : Prop :=
  (servedBy .memAlloc 0x0030 anyCmd memAllocCauses
    fun u k cmd =>
      let p := takeUnits { u with free := u.free + 1 } (argN cmd 1)
      let l := markZero p.2.lpddr p.1
      slotDone { p.2 with lpddr := { l with
        objects := l.objects ++ [(freshHandle u, { tenant := k.fn, units := p.1 })] } } k [resWord (freshHandle u)]) ∧
  (servedBy .memFree 0x0031 anyCmd memFreeCauses
    fun u k cmd => endMemFree (holdResult u k []) k cmd) ∧
  (resumedBy .memFree 0x0031 anyCmd fun u k cmd =>
      if objectAccessed u (argN cmd 1) then u else finishHeld (freeObject u (argN cmd 1)) k) ∧
  (∀ s k t src, let u := s.upTo t
    let cmd := (getSlot u k).cmd
    serving u k 0x0032 anyCmd memMapCauses = true → mapSource (markStarted u k) k.fn cmd = some src →
    exec (.memMap k t) s = .next (slotDone (addPages (markStarted u k) (argCtx k.fn cmd)
      (argVa cmd 2) (mapEnd cmd) (mapLeaves cmd src)) k [resWord (argN cmd 7)])) ∧
  (servedBy .memUnmap 0x0033 anyCmd memUnmapCauses
    fun u k cmd =>
      let c := argCtx k.fn cmd
      let gone := fun (l : Leaf) => leafIn (argVa cmd 2) (mapEnd cmd) l
      let n := ((getCtx u c).map fun x => pageCount (x.leaves.filter gone) (argSize cmd)).getD 0
      let v := modCtx u c fun x => removeLeaves x gone
      endUnmap (recheckWaits (reapObjects (holdResult v k [resWord n]))) k cmd) ∧
  (resumedBy .memUnmap 0x0033 anyCmd fun u k cmd =>
      if staleAccess u (fun c => c = argCtx k.fn cmd) then u else finishHeld u k) ∧
  (servedBy .segAcquire 0x0040 anyCmd segAcquireCauses
    runAcquire) ∧
  (servedBy .segRelease 0x0041 anyCmd segReleaseCauses
    fun u k cmd =>
      let w := holdResult u k [resWord (segsInRange u (argCtx k.fn cmd) (argVa cmd 2) (segEnd cmd)).length]
      endRelease (setSlot w k { getSlot w k with mark := w.traffic.nextAccess }) k cmd) ∧
  (resumedBy .segRelease 0x0041 anyCmd fun u k cmd =>
      let c := argCtx k.fn cmd
      let segs := segsInRange u c (argVa cmd 2) (segEnd cmd)
      if segs.isEmpty then freeReleased u k cmd
      else if segAccessed u segs (getSlot u k).mark then u
      else
        let v := modCtx u c fun x => removeLeaves x fun l => match l.target with
          | .scratch a => segs.contains (a / segBytes)
          | _ => false
        freeReleased (recheckWaits v) k cmd) ∧
  (∀ row op, (row, op) ∈ [(Instr.vatMaintClean, 1), (Instr.vatMaintInvalidate, 2), (Instr.vatMaintCleanInvalidate, 3)] →
    servedBy row 0x0042 (maintMine op) maintCauses fun u k cmd =>
      endMaint (u.vat.lines.foldl (fun v ln =>
        match maintLeaves v (argCtx k.fn cmd) cmd (linePa ln) with
        | [] => v
        | ls => maintLine v (maintOp cmd) (ls.any Leaf.w) ln) (holdResult u k [])) k cmd) ∧
  (∀ row op, (row, op) ∈ [(Instr.vatMaintClean, 1), (Instr.vatMaintInvalidate, 2), (Instr.vatMaintCleanInvalidate, 3)] →
    resumedBy row 0x0042 (maintMine op) endMaint)

/-- ADM_GRANT, REVOKE, TENANT_RESET, PART_CFG, the three ADM_SHARE operations and ADM_PORT_SHARE act. It rests on the
model's own choices or readings of log entries 8, 9, 10, 50, 60. -/
def Obligations.AdministrationCommandsAct : Prop :=
  (servedBy .admGrant 0x0100 anyCmd admGrantCauses
    fun u k cmd =>
      let g := grantAfter (getFn u (argTenant cmd)).grant cmd
      slotDone (modFn u (argTenant cmd) fun f => { f with grant := g }) k (grantWords g (argResource cmd))) ∧
  (∀ s k t, let u := s.upTo t
    let cmd := (getSlot u k).cmd
    let v := markStarted u k
    serving u k 0x0101 anyCmd admRevokeCauses = true →
    let g := revokeAfter (getFn v (argTenant cmd)).grant cmd
    let w := modFn v (argTenant cmd) fun f => { f with grant := g }
    let words := grantWords g (argResource cmd)
    (revokeVictims v cmd = [] → exec (.admRevoke k t) s = .next (slotDone w k words)) ∧
    (revokeVictims v cmd ≠ [] → isMask (argResource cmd) = false → exec (.admRevoke k t) s =
      .next (startForfeit w ((revokeVictims v cmd).map .ctxDestroy) [(k, (getSlot w k).seq, words)])) ∧
    (revokeVictims v cmd ≠ [] → isMask (argResource cmd) = true → exec (.admRevoke k t) s =
      let x := if argResource cmd = 5 then clearPartitions w (revokeVictims v cmd) else w
      .next (startForfeit x ((revokeVictims v cmd).map .revokeReset) [(k, (getSlot x k).seq, words)]))) ∧
  (servedBy .admTenantReset 0x0102 anyCmd tenantResetCauses
    fun u k cmd =>
      startForfeit (modFn u (argTenant cmd) fun f => { f with resetting := true }) [.tenantReset (argTenant cmd)]
        [(k, (getSlot u k).seq, [])]) ∧
  (servedBy .admPartCfg 0x0103 anyCmd partCfgCauses
    fun u k cmd =>
      let cfg : PartCfg := { en := argF cmd 1 4 4 = 1, windowUs := argF cmd 1 26 16, budget := argN cmd 2 }
      slotDone { u with fabric := modPart u.fabric (argF cmd 1 3 0) fun p => configurePart p cfg u.stamp } k []) ∧
  (servedBy .admShareExport 0x0104 (shareMine 1) exportCauses
    fun u k cmd =>
      let old := tblGet u.alloc.shares (argShareId cmd)
      let sh : Share := { st := if old.isSome then .both else .half, exporter := some (argParty cmd)
                          importer := old.bind Share.importer, handle := argN cmd 3 }
      slotDone (setShare u (argShareId cmd) sh) k [resWord (shareCode sh.st)]) ∧
  (servedBy .admShareImport 0x0104 (shareMine 2) importCauses
    fun u k cmd =>
      let old := tblGet u.alloc.shares (argShareId cmd)
      let sh : Share := { st := if old.isSome then .both else .half, exporter := old.bind Share.exporter
                          importer := some (argParty cmd), handle := (old.map Share.handle).getD 0 }
      slotDone (setShare u (argShareId cmd) sh) k [resWord (shareCode sh.st)]) ∧
  (servedBy .admShareRevoke 0x0104 (shareMine 3) shareRevokeCauses
    startShareRevoke) ∧
  (resumedBy .admShareRevoke 0x0104 (shareMine 3) endShareRevoke) ∧
  (servedBy .admPortShare 0x0200 anyCmd portShareCauses
    fun u k cmd =>
      let x := newShares u.alloc.portA cmd
      slotDone (withShares u x) k (shareWords x (argShareRes cmd)))

/-- GOV_SET, PWR_POLICY, PWR_IDLE_OFF, VAT_CONVERT, CLUSTER_MODE, STREAM_CFG, WARM_RESET and SEPIA_ENTER act. It rests on
the model's own choices or readings of log entries 9, 10, 20. -/
def Obligations.DeviceCommandsAct : Prop :=
  (servedBy .govSet 0x0201 anyCmd govSetCauses
    fun u k cmd =>
      let p := govApply u.gov.committed cmd
      slotDone { u with gov := { u.gov with
        committed := p, got := govApply u.gov.got cmd, commits := u.gov.commits ++ [(u.stamp, p)] } } k []) ∧
  (servedBy .pwrPolicy 0x0203 anyCmd (fun s _ cmd =>
      let d := argDomain cmd
      let pol := argF cmd 1 9 8
      causesOf [(d > 71 || pol = 3, 0x04), (pol = 2 && forceOffRefused s d, 0x0F)])
    fun u k cmd =>
      let d := argDomain cmd
      let pol := policyOf (argF cmd 1 9 8)
      slotDone (applyPolicy (modDom u d fun x => { x with policy := pol }) d pol) k [resWord (policyCode (getDom u d).policy)]) ∧
  (servedBy .pwrIdleOff 0x0204 anyCmd (fun _ _ cmd =>
      causesOf [(argF cmd 1 2 0 > 5 || !(argN cmd 2 = 0 || natIn (argN cmd 2) 10 100000), 0x04)])
    fun u k cmd =>
      let n := argF cmd 1 2 0
      slotDone { u with power := { u.power with idleOff := u.power.idleOff.set n (argN cmd 2) } } k
        [resWord (u.power.idleOff.getD n 0)]) ∧
  (servedBy .vatConvertToScratchpad 0x0205 (convertMine 1) toScratchCauses
    fun u _ cmd =>
      let m := argWays cmd &&& ~~~u.vat.convMask
      let v : State := { u with vat := { u.vat with converting := some m } }
      (v.vat.lines.filter fun ln => m.getLsbD ln.way).foldl (fun v ln => evictLine v ln 0) v) ∧
  (resumedBy .vatConvertToScratchpad 0x0205 (convertMine 1) endToScratch) ∧
  (servedBy .vatConvertToCache 0x0205 (convertMine 0) toCacheCauses
    fun u k cmd =>
      let conv := u.vat.convMask &&& ~~~argWays cmd
      let segs := u.vat.segs.filter fun e => !(argWays cmd).getLsbD (e.1 / 24)
      slotDone { u with vat := { u.vat with convMask := conv, segs := segs } } k [resWord conv.toNat]) ∧
  (servedBy .clusterModeExclusive 0x0206 (clusterMine 1) (fun s _ cmd =>
      causesOf [((getCtx s (holderOf cmd)).isNone, 0x05)])
    startExclusive) ∧
  (resumedBy .clusterModeExclusive 0x0206 (clusterMine 1) fun u k cmd =>
      if othersRemain u cmd then u else slotDone u k []) ∧
  (servedBy .clusterModeShared 0x0206 (clusterMine 0) noCauses
    fun u k cmd => slotDone (setClusters u cmd none) k []) ∧
  (servedBy .streamCfg 0x0207 anyCmd (fun _ _ cmd => causesOf [(argF cmd 1 15 8 < 8, 0x04)])
    fun u k cmd =>
      slotDone { u with vat := { u.vat with streamEn := argF cmd 1 0 0 = 1, streamThresh := argF cmd 1 15 8 } } k
        [resWord ((if u.vat.streamEn then 1 else 0) + u.vat.streamThresh * 2 ^ 8)]) ∧
  (servedBy .warmReset 0x0208 anyCmd noCauses
    fun u k _ => startWarm u (.admin k)) ∧
  (servedBy .sepiaEnter 0x0209 anyCmd noCauses
    fun u k _ => decideSepia u 0x000C (some k))

/-- COMPOSE_COPY, FILL and BLEND take the service, then read ahead or write line by line. It rests on the model's own
choices or readings of log entries 9, 32, 55. -/
def Obligations.ComposeCommandsAct : Prop :=
  ∀ row code kind causes, (row, code, kind, causes) ∈
      [(Instr.composeCopy, 0x0300, ComposeKind.copy, composeCauses false), (Instr.composeFill, 0x0301, .fill, composeCauses true),
       (Instr.composeBlend, 0x0302, .blend, composeCauses false)] → ∀ ahead,
    servedBy (row · ahead) code anyCmd causes (fun u k cmd =>
      requestWake (requestWake { u with compose := some { slot := k, ctx := argCtx k.fn cmd } } 0) 65) ∧
    ∀ s k t x, let u := s.upTo t
      let cmd := (getSlot u k).cmd
      let w := takeWrites u
      (getSlot u k).st = .busy → cmdCode cmd = code → takesCommands u = true → (getSlot u k).started = true →
      u.compose = some x → x.slot = k →
      (∀ bad va, x.stopped = false → badWrite u = some (bad, va) → exec (row k ahead t) s = .next (stopCompose w x bad va)) ∧
      (x.stopped = true ∨ (badWrite u = none ∧ composeWhole cmd x = true) → exec (row k ahead t) s =
        .next (if (pixelWrites w).isEmpty then slotDone { w with compose := none } k [] else w)) ∧
      (x.stopped = false → badWrite u = none → composeWhole cmd x = false → domOn u 0 = true → domOn u 65 = true →
        exec (row k ahead t) s = .next (if ahead && kind ≠ .fill then composeRead w cmd x else composeWrite kind w cmd x))

/-- MOV, SEL, IADD, ISUB, IMUL, IMAD, AND, OR, XOR, NOT, SHL, SHR and SAR write the result of Table 11-4. It rests on the
model's own choices or readings of log entry 14. -/
def Obligations.LogicAndAddInstructionsWriteTheirResult : Prop :=
  issuesWord .mov 0x01 (fun x l => x.a l) ∧
  issuesWord .iadd 0x03 (fun x l => x.a l + x.b l) ∧
  issuesWord .isub 0x04 (fun x l => x.a l - x.b l) ∧
  issuesWord .imul 0x05 (fun x l => x.a l * x.b l) ∧
  issuesWord .imad 0x07 (fun x l => x.a l * x.b l + x.c l) ∧
  issuesWord .andI 0x0A (fun x l => x.a l &&& x.b l) ∧
  issuesWord .orI 0x0B (fun x l => x.a l ||| x.b l) ∧
  issuesWord .xorI 0x0C (fun x l => x.a l ^^^ x.b l) ∧
  issuesWord .notI 0x0D (fun x l => ~~~(x.a l)) ∧
  issuesWord .shl 0x0E (fun x l => x.a l <<< ((x.b l).toNat % 32)) ∧
  issuesWord .shr 0x0F (fun x l => x.a l >>> ((x.b l).toNat % 32)) ∧
  issuesWord .sar 0x10 (fun x l => (x.a l).sshiftRight ((x.b l).toNat % 32)) ∧
  issuesWord .sel 0x02 (fun x l => if x.c l = 0#32 then x.b l else x.a l)

/-- IMULHI, IMIN, IMAX, BFE, BFI, POPC, CLZ and BREV write the result of Table 11-4. It rests on the model's own choices
or readings of log entry 14. -/
def Obligations.WideAndBitInstructionsWriteTheirResult : Prop :=
  issuesWord .imulhi 0x06 (fun x l => if bitNat x.iw.mod 0 then BitVec.ofInt 32 ((x.a l).toInt * (x.b l).toInt / 2 ^ 32)
      else BitVec.ofNat 32 ((x.a l).toNat * (x.b l).toNat / 2 ^ 32)) ∧
  issuesWord .imin 0x08 (fun x l => if bitNat x.iw.mod 0 then (if (x.b l).slt (x.a l) then x.b l else x.a l)
      else if (x.b l).ult (x.a l) then x.b l else x.a l) ∧
  issuesWord .imax 0x09 (fun x l => if bitNat x.iw.mod 0 then (if (x.a l).slt (x.b l) then x.b l else x.a l)
      else if (x.a l).ult (x.b l) then x.b l else x.a l) ∧
  issuesWord .bfe 0x11 (fun x l => bitExtract (bitNat x.iw.mod 0) (x.a l) (x.b l) (x.c l)) ∧
  issuesWord .bfi 0x12 (fun x l => bitInsert (x.a l) (x.b l) (x.c l)) ∧
  issuesWord .popc 0x13 (fun x l => BitVec.ofNat 32 ((List.range 32).countP fun k => (x.a l).getLsbD k)) ∧
  issuesWord .clz 0x14 (fun x l => if x.a l = 0#32 then 32#32 else BitVec.ofNat 32 (31 - Nat.log2 (x.a l).toNat)) ∧
  issuesWord .brev 0x15 (fun x l => bitReverse (x.a l))

/-- FADD, FMUL, FFMA, FMIN, FMAX, FFRACT and FRND write the exact result rounded once under AUX. It rests on the model's
own choices or readings of log entries 14, 16. -/
def Obligations.FloatArithmeticRoundsTheExactResult : Prop :=
  issuesWord .fadd 0x20 (fun x l => roundF x.iw (faddExact (x.iw.aux == 2) (fA x.g x.iw l x.fr) (fB x.g x.iw l x.fr))) ∧
  issuesWord .fmul 0x21 (fun x l => roundF x.iw (fmulExact (fA x.g x.iw l x.fr) (fB x.g x.iw l x.fr))) ∧
  issuesWord .ffma 0x22 (fun x l => roundF x.iw (faddExact (x.iw.aux == 2) (fmulExact (fA x.g x.iw l x.fr) (fB x.g x.iw l x.fr)) (fC x.g x.iw l x.fr))) ∧
  issuesWord .fmin 0x23 (fun x l => roundF x.iw (fminNum (fA x.g x.iw l x.fr) (fB x.g x.iw l x.fr))) ∧
  issuesWord .fmax 0x24 (fun x l => roundF x.iw (fmaxNum (fA x.g x.iw l x.fr) (fB x.g x.iw l x.fr))) ∧
  issuesWord .ffract 0x2D (fun x l => toF32 0 (faddExact false (fA x.g x.iw l x.fr) (floorVal (fA x.g x.iw l x.fr)).neg)) ∧
  issuesWord .frnd 0x2E (fun x l => let r := toF32 0 (roundIntegral x.iw.aux (fA x.g x.iw l x.fr))
    if bitNat x.iw.mod 5 then toF32 0 (saturate (f32 r)) else r)

/-- FRCP, FRSQ, FSQRT, FEXP2, FLOG2, FSIN and FCOS write a result within the bound of R516. It rests on the model's own
choices or readings of log entries 14, 15. -/
def Obligations.SpecialFunctionsWriteABoundedResult : Prop :=
  issuesWord .frcp 0x26 (fun x l => frcp (fA x.g x.iw l x.fr) (Config.freeWord (x.fr + l))) ∧
  issuesWord .frsq 0x27 (fun x l => frsq (fA x.g x.iw l x.fr) (Config.freeWord (x.fr + l))) ∧
  issuesWord .fsqrt 0x28 (fun x l => fsqrt (fA x.g x.iw l x.fr) (Config.freeWord (x.fr + l))) ∧
  issuesWord .fexp2 0x29 (fun x l => fexp2 (fA x.g x.iw l x.fr) (Config.freeWord (x.fr + l))) ∧
  issuesWord .flog2 0x2A (fun x l => flog2 (fA x.g x.iw l x.fr) (Config.freeWord (x.fr + l))) ∧
  issuesWord .fsin 0x2B (fun x l => fsincos (fA x.g x.iw l x.fr) 0 (Config.freeWord (x.fr + l))) ∧
  issuesWord .fcos 0x2C (fun x l => fsincos (fA x.g x.iw l x.fr) (2 ^ 78) (Config.freeWord (x.fr + l)))

/-- HADD2, HMUL2, HFMA2, HMIN2 and HMAX2 compute each FP16 half by itself; FCMP and HCMP2 write predicates. It rests on
the model's own choices or readings of log entries 14, 16. -/
def Obligations.HalfPairsComputeEachHalf : Prop :=
  issuesWord .hadd2 0x30 (fun x l => BitVec.ofNat 32 (halfResult (fun iw a b _ => faddExact (iw.aux == 2) a b) x.g x.iw l x.fr false +
    65536 * halfResult (fun iw a b _ => faddExact (iw.aux == 2) a b) x.g x.iw l x.fr true)) ∧
  issuesWord .hmul2 0x31 (fun x l => BitVec.ofNat 32 (halfResult (fun _ a b _ => fmulExact a b) x.g x.iw l x.fr false +
    65536 * halfResult (fun _ a b _ => fmulExact a b) x.g x.iw l x.fr true)) ∧
  issuesWord .hfma2 0x32 (fun x l => BitVec.ofNat 32 (halfResult (fun iw a b c => faddExact (iw.aux == 2) (fmulExact a b) c) x.g x.iw l x.fr false +
    65536 * halfResult (fun iw a b c => faddExact (iw.aux == 2) (fmulExact a b) c) x.g x.iw l x.fr true)) ∧
  issuesWord .hmin2 0x33 (fun x l => BitVec.ofNat 32 (halfResult (fun _ a b _ => fminNum a b) x.g x.iw l x.fr false +
    65536 * halfResult (fun _ a b _ => fminNum a b) x.g x.iw l x.fr true)) ∧
  issuesWord .hmax2 0x34 (fun x l => BitVec.ofNat 32 (halfResult (fun _ a b _ => fmaxNum a b) x.g x.iw l x.fr false +
    65536 * halfResult (fun _ a b _ => fmaxNum a b) x.g x.iw l x.fr true)) ∧
  issuesCond .fcmp 0x25 (fun x l => compareCode (x.iw.mod % 8) (fcompare (modify (srcF x.g x.iw x.iw.ak x.iw.a l x.fr) (bitNat x.iw.mod 4) false)
    (modify (srcF x.g x.iw x.iw.bk x.iw.b l x.fr) (bitNat x.iw.mod 5) false))) ∧
  issuesTo .hcmp2 0x35 (fun x slot =>
    let cmp := fun hi l => compareCode (x.iw.mod % 8)
      (fcompare (modify (srcH x.g x.iw x.iw.ak x.iw.a l x.fr hi) (bitNat x.iw.mod 4) false)
        (modify (srcH x.g x.iw x.iw.bk x.iw.b l x.fr hi) (bitNat x.iw.mod 5) false))
    x.next slot (x.lanes.foldl (fun g l => setPreg (setPreg g x.iw.d l (cmp false l)) (x.iw.d + 1) l (cmp true l)) x.g))

/-- CVTF, CVTFI, CVTIF, BSCALE, BQUANT and BDEQ write the converted codes and count their numeric events. It rests on the
model's own choices or readings of log entries 14, 16. -/
def Obligations.ConversionsWriteTheCodeAndCountEvents : Prop :=
  issuesTo .cvtf 0x38 (fun x slot =>
    let r := fun l => convertFloat (x.iw.mod % 8) (x.iw.mod / 8) x.iw.aux (laneRnd x.g.num l (x.iw.mod % 8)) (srcCode x.g x.iw (x.iw.mod / 8) l x.fr)
    let n := x.lanes.foldl (fun n l => let n := Numeric.note n (r l).2; if x.iw.aux == 5 then n.advance l else n) x.g.num
    x.next slot { writeResult x.g x.iw x.lanes (fun l => BitVec.ofNat 32 (r l).1) with num := n }) ∧
  issuesTo .cvtif 0x3A (fun x slot =>
    let r := fun l => convertInt (x.iw.mod % 8) (x.iw.mod / 8) x.iw.aux (laneRnd x.g.num l (x.iw.mod % 8)) (x.a l).toNat
    let n := x.lanes.foldl (fun n l => let n := Numeric.note n (r l).2; if x.iw.aux == 5 then n.advance l else n) x.g.num
    x.next slot { writeResult x.g x.iw x.lanes (fun l => BitVec.ofNat 32 (r l).1) with num := n }) ∧
  issuesTo .bquant 0x3C (fun x slot =>
    let r := fun l => quantise (x.iw.mod % 8) x.iw.aux (laneRnd x.g.num l (x.iw.mod % 8)) ((x.b l).toNat % 256) (x.c l).toNat l
      (srcF x.g x.iw x.iw.ak x.iw.a l x.fr)
    let n := x.lanes.foldl (fun n l => let n := Numeric.note n (r l).2; if x.iw.aux == 5 then n.advance l else n) x.g.num
    x.next slot { writeResult x.g x.iw x.lanes (fun l => BitVec.ofNat 32 (r l).1) with num := n }) ∧
  issuesWord .cvtfi 0x39 (fun x l => BitVec.ofNat 32 (toInt (x.iw.mod / 8) x.iw.aux (fdecode (fmtOf (x.iw.mod % 8)) (srcCode x.g x.iw (x.iw.mod % 8) l x.fr)))) ∧
  issuesWord .bdeq 0x3D (fun x l => toF32 0 (dequantise (fdecode (fmtOf (x.iw.mod % 8)) (x.a l).toNat) ((x.b l).toNat % 256) (x.c l).toNat l)) ∧
  issuesTo .bscale 0x3B (fun x slot =>
    let xs := (List.range 32).map fun l =>
      if x.lanes.contains l then srcF x.g x.iw x.iw.ak x.iw.a l x.fr else .fin false 0 0
    let gap := (x.b 0).toNat
    let r := encodeScale xs (x.iw.mod % 8) (bitNat x.iw.mod 3) (if 1 ≤ gap && gap ≤ 32 then gap else 8)
    let n := { x.g.num with
      flags := r.flags.foldl (fun acc f => orFlag acc f true) x.g.num.flags
      escapes := satAdd 32 x.g.num.escapes r.escapes }
    x.next slot { setSreg (setSreg x.g x.iw.d (BitVec.ofNat 32 r.code)) (x.iw.d + 1) (BitVec.ofNat 32 r.desc) with num := n })

/-- ICMP, IADD64, IMADW, SHFL, READLANE, BALLOT, REDUCE, SREAD, PLOP, PMOV and NOP write what Table 11-4 gives. It rests
on the model's own choices or readings of log entry 14. -/
def Obligations.LaneAndPredicateInstructionsWriteTheirResult : Prop :=
  issuesTo .nopInstruction 0x00 (fun x slot => x.next slot x.g) ∧
  issuesCond .icmp 0x16 (fun x l => compareCode (x.iw.mod % 8) (some (intOrder (bitNat x.iw.mod 3) (x.a l) (x.b l)))) ∧
  issuesWord64 .iadd64 0x17 (fun x l => src64 x.g x.iw x.iw.ak x.iw.a l + src64 x.g x.iw x.iw.bk x.iw.b l) ∧
  issuesWord64 .imadw 0x18 (fun x l => mulWide (bitNat x.iw.mod 0) (x.a l) (x.b l) + src64 x.g x.iw x.iw.ck x.iw.c l) ∧
  issuesWord .shfl 0x40 (fun x l =>
    match shuffleLane (x.iw.mod % 4) l (x.b l) with
    | some k => if x.active.getLsbD k then x.a k else x.a l
    | none => x.a l) ∧
  issuesTo .readlane 0x41 (fun x slot =>
    let k := (x.b 0).toNat % 32
    x.next slot (setSreg x.g x.iw.d (if x.active.getLsbD k then x.a k else 0#32))) ∧
  issuesTo .ballot 0x42 (fun x slot =>
    x.next slot (setSreg x.g x.iw.d (maskOf (x.lanes.filter fun l => preg x.g x.iw.c l)))) ∧
  issuesTo .reduce 0x43 (fun x slot =>
    let op := x.iw.mod % 16
    let get := fun l => if x.iw.ak = 3 && 8 ≤ op then toF32 0 (srcF x.g x.iw 3 x.iw.a l x.fr) else x.a l
    let r := reduceList op (x.lanes.map get)
    x.next slot (setSreg x.g x.iw.d (if 8 ≤ op then toF32 0 (f32 r) else r))) ∧
  issuesTo .sread 0x44 (fun x slot =>
    let g := if x.iw.mod = 6 then { x.g with stampCap := some x.s.stamp } else x.g
    x.next slot (writeResult g x.iw (lanesOf (runMask x.g x.iw x.active)) fun l =>
      specialReg x.s.stamp (queuePrio x.s x.g.queue) x.g x.pc x.active x.iw.mod l)) ∧
  issuesCond .plop 0x45 (fun x l => bitNat x.iw.mod (2 * natOfBool (preg x.g x.iw.a l) + natOfBool (preg x.g x.iw.b l))) ∧
  issuesCond .pmov 0x46 (fun x l => (x.a l).getLsbD l)

/-- LD, SLD and LDP send one read for each 128-byte line and become pending loads. It rests on the model's own choices or
readings of log entries 14, 19. -/
def Obligations.GlobalAndPrivateLoadsEnterTheFabric : Prop :=
  (∀ s slot w t x, issuing s slot w t (· == 0x50) = some x →
    let lanes := (lanesOf (runMask x.g x.iw x.active)).map fun l => (l, globalVa x.g x.iw l)
    let width := x.iw.mod % 8
    x.reaches slot .load (widthBytes width) lanes = true →
    exec (.ld slot w t) s = .next (x.enters slot (.groupLoad slot x.g.nextLoad) .load (widthBytes width) lanes
      (fun _ _ _ => [.read]) (addLoad x.fenced (.load width false) x.iw.d lanes x.pc w))) ∧
  (∀ s slot w t x, issuing s slot w t (· == 0x52) = some x →
    let lanes := [0].map fun l => (l, globalVa x.g x.iw l)
    let width := x.iw.mod % 8
    x.reaches slot .load (widthBytes width) lanes = true →
    exec (.sld slot w t) s = .next (x.enters slot (.groupLoad slot x.g.nextLoad) .load (widthBytes width) lanes
      (fun _ _ _ => [.read]) (addLoad x.fenced (.load width true) x.iw.d lanes x.pc w))) ∧
  (∀ s slot w t x, issuing s slot w t (· == 0x55) = some x →
    let lanes := (lanesOf (runMask x.g x.iw x.active)).map fun l => (l, privateVa x.g l (localOff x.g x.iw l))
    let width := x.iw.mod % 8
    x.reaches slot .load (widthBytes width) lanes = true →
    privateBad x.g x.iw x.active = none →
    exec (.ldp slot w t) s = .next (x.enters slot (.groupLoad slot x.g.nextLoad) .load (widthBytes width) lanes
      (fun _ _ _ => [.read]) (addLoad x.fenced (.load width false) x.iw.d lanes x.pc w)))

/-- ST, STP and ATOM send one request for each line with the data or operands of its lanes. It rests on the model's own
choices or readings of log entries 14, 19. -/
def Obligations.StoresAndAtomicsEnterTheFabric : Prop :=
  (∀ s slot w t x, issuing s slot w t (· == 0x51) = some x →
    let lanes := (effectLanes x.g x.iw x.active).map fun l => (l, globalVa x.g x.iw l)
    let n := widthBytes (x.iw.mod % 8)
    x.reaches slot .store n lanes = true →
    exec (.st slot w t) s = .next (x.enters slot (.groupStore slot) .store n lanes
      (fun _ line mine => [.write (mine.flatMap fun e =>
        (storeData x.g x.iw n e.1).zipIdx.map fun b => (e.2 - line + b.2, b.1)) false]) x.fenced)) ∧
  (∀ s slot w t x, issuing s slot w t (· == 0x56) = some x →
    let lanes := (lanesOf (runMask x.g x.iw x.active)).map fun l => (l, privateVa x.g l (localOff x.g x.iw l))
    let n := widthBytes (x.iw.mod % 8)
    x.reaches slot .store n lanes = true →
    privateBad x.g x.iw x.active = none →
    exec (.stp slot w t) s = .next (x.enters slot (.groupStore slot) .store n lanes
      (fun _ line mine => [.write (mine.flatMap fun e =>
        (storeData x.g x.iw n e.1).zipIdx.map fun b => (e.2 - line + b.2, b.1)) false]) x.fenced)) ∧
  (∀ s slot w t x, issuing s slot w t (· == 0x57) = some x →
    let wide := bitNat x.iw.aux 2
    let n := if wide then 8 else 4
    let op := atomOpOf (x.iw.mod % 16)
    let lanes := (effectLanes x.g x.iw x.active).map fun l => (l, atomVa x.g x.iw l)
    let word := fun (line : Nat) (e : Nat × Nat) => (e.2 - line, atomOperand x.g x.iw x.iw.bk x.iw.b e.1,
      if x.iw.mod % 16 = 2 then atomOperand x.g x.iw x.iw.ck x.iw.c e.1 else 0#64)
    x.reaches slot .atomic n lanes = true → atomReady x.s slot x.g x.iw (atomActs x.s x.g.ctx x.iw lanes) = true →
    atomHostBad x.s x.g.ctx op lanes = none →
    exec (.atom slot w t) s = .next (x.enters slot (.groupLoad slot x.g.nextLoad) .atomic n lanes
      (fun h line mine => if h.isHost then mine.map fun e => .atomic op wide [word line e]
        else [.atomic op wide (mine.map (word line))])
      (let g := addLoad x.fenced (.atomic wide (x.iw.dk == 0)) x.iw.d lanes x.pc w
       if x.iw.aux % 2 = 1 then { g with hold := some x.g.nextLoad } else g)))

/-- LDL, STL and ATOML read and write the local store of the workgroup in ascending lane order. It rests on the model's
own choices or readings of log entries 14, 38. -/
def Obligations.LocalAccessesActOnTheWorkgroupStore : Prop :=
  (∀ s slot w t x wg, issuing s slot w t (· == 0x53) = some x → getWg x.s x.g.wg = some wg →
    let n := widthBytes (x.iw.mod % 8)
    let lanes := (lanesOf (runMask x.g x.iw x.active)).map fun l => (l, localOff x.g x.iw l)
    (lanes = [] → exec (.ldl slot w t) s = .next (x.next slot x.g)) ∧
    (lanes ≠ [] → mayAccess x.s slot x.g = true → (∀ e ∈ lanes, e.2 % n = 0 ∧ e.2 + n ≤ wg.lsBytes) →
    exec (.ldl slot w t) s = .next (putGroup (putWg x.s x.g.wg wg) slot (advance
      (lanes.foldl (fun g e => putWords g false x.iw.d e.1 (loadWords (x.iw.mod % 8) (localBytes x.g.wg wg e.2 n)))
        x.fenced) x.iw x.pc x.active)))) ∧
  (∀ s slot w t x wg, issuing s slot w t (· == 0x54) = some x → getWg x.s x.g.wg = some wg →
    let n := widthBytes (x.iw.mod % 8)
    let lanes := (lanesOf (runMask x.g x.iw x.active)).map fun l => (l, localOff x.g x.iw l)
    (lanes = [] → exec (.stl slot w t) s = .next (x.next slot x.g)) ∧
    (lanes ≠ [] → mayAccess x.s slot x.g = true → (∀ e ∈ lanes, e.2 % n = 0 ∧ e.2 + n ≤ wg.lsBytes) →
    exec (.stl slot w t) s = .next (putGroup
      (putWg x.s x.g.wg (lanes.foldl (fun v e => localPut v e.2 (storeData x.g x.iw n e.1)) wg)) slot
      (advance x.fenced x.iw x.pc x.active)))) ∧
  (∀ s slot w t x wg, issuing s slot w t (· == 0x58) = some x → getWg x.s x.g.wg = some wg →
    let wide := bitNat x.iw.aux 2
    let n := if wide then 8 else 4
    let lanes := (lanesOf (runMask x.g x.iw x.active)).map fun l => (l, (x.a l + x.iw.imm).toNat)
    (lanes = [] → exec (.atoml slot w t) s = .next (x.next slot x.g)) ∧
    (lanes ≠ [] → mayAccess x.s slot x.g = true → atomReady x.s slot x.g x.iw (atomScope x.iw) = true →
    (∀ e ∈ lanes, e.2 % n = 0 ∧ e.2 + n ≤ wg.lsBytes) →
    let r := lanes.foldl (fun acc e =>
      let old : Dword := BitVec.ofNat 64 (leNat (localBytes x.g.wg acc.1 e.2 n))
      let b := if x.iw.mod % 16 = 2 then atomOperand x.g x.iw x.iw.ck x.iw.c e.1 else 0#64
      let new := atomApply (atomOpOf (x.iw.mod % 16)) wide old (atomOperand x.g x.iw x.iw.bk x.iw.b e.1) b
      (localPut acc.1 e.2 (leBytes n new.toNat),
        if x.iw.dk = 0 then putWords acc.2 false x.iw.d e.1 (loadWords (if wide then 5 else 4) (leBytes n old.toNat))
        else acc.2)) (wg, x.fenced)
    exec (.atoml slot w t) s = .next (putGroup (putWg x.s x.g.wg r.1) slot (advance r.2 x.iw x.pc x.active))))

/-- FENCE, BAR and LOAD_RETURN: a fence waits for its scope, a barrier for its workgroup, a load for its lines. It rests
on the model's own choices or readings of log entry 14. -/
def Obligations.FencesBarriersAndLoadReturnsComplete : Prop :=
  (∀ s slot w t x, issuing s slot w t (· == 0x59) = some x →
    (runMask x.g x.iw x.active = 0#32 → exec (.fence slot w t) s = .next (x.next slot x.g)) ∧
    (runMask x.g x.iw x.active ≠ 0#32 → x.iw.mod % 4 = 0 →
      exec (.fence slot w t) s = .next (x.next slot { x.g with fence := joinFence x.g.fence 0 })) ∧
    (runMask x.g x.iw x.active ≠ 0#32 → x.iw.mod % 4 ≠ 0 → fenceMet x.s slot x.g 1 = true →
      ∀ v g, publish x.s slot x.g x.pc w = .done v g →
      exec (.fence slot w t) s = .next (putGroup v slot
        (advance { g with fence := joinFence g.fence (x.iw.mod % 4) } x.iw x.pc x.active)))) ∧
  issuesTo .bar 0x5A (fun x slot => releaseBarrier (putGroup x.s slot
    (setSts (advance x.g x.iw x.pc x.active) (lanesOf x.active) .barrier)) x.g.wg) ∧
  (∀ s slot num t g l, getGroup (s.upTo t) slot = some g → (g.loads.find? fun l => l.num = num) = some l →
    let u := s.upTo t
    let as := loadAccesses u slot num
    g.stopped = false → (g.replays.any fun a => a.client == .groupLoad slot num) = false →
    (∀ e ∈ as, e.2.stage = .answered ∧ e.2.poison = false) →
    exec (.loadReturn slot num t) s = .next (reapGroup (putGroup (as.foldl (fun v e => removeAccess v e.1) u) slot
      (let g' := returnLoad g l as
       { g' with
         loads := g'.loads.filter fun y => y.num ≠ num
         hold := if g'.hold = some num then none else g'.hold })) slot))

/-- TEX, TLD and TG4 read the texels of the executing lanes; TQRY returns the size; SAMPLER_RETURN writes the samples. It
rests on the model's own choices or readings of log entries 14, 29, 30, 31. -/
def Obligations.SamplerInstructionsReadTheirTexels : Prop :=
  (∀ row op, (row, op) ∈ [(Instr.tex, 0x60), (Instr.tld, 0x61), (Instr.tg4, 0x62)] →
    ∀ s slot w t x, issuing s slot w t (· == op) = some x →
    let q := sampleReq x.g x.iw w x.pc x.active x.g.nextLoad
    let r := { q with free := x.s.free }
    let v : State := { x.s with free := x.s.free + freePerRequest }
    let spans := requestSpans r r.free
    q.lanes ≠ [] → mayAccess x.s slot x.g = true → texBad (texDesc q.tex) (reqDim q) = false →
    laneFault v x.g.ctx .load 1 (spans.map fun e => (0, e.1)) = none →
    exec (row slot w t) s = .next (putGroup ((samplerReads v slot x.g r spans).foldl enterFabric v) slot
      (advance { x.g with samples := x.g.samples ++ [r], nextLoad := x.g.nextLoad + 1, fence := none } x.iw x.pc x.active))) ∧
  (∀ s slot w t x, issuing s slot w t (· == 0x63) = some x →
    let r := sampleReq x.g x.iw w x.pc x.active 0
    let d := texDesc r.tex
    r.lanes ≠ [] → texBad d (reqDim r) = false →
    exec (.tqry slot w t) s = .next (x.next slot
      (putQuads x.g r fun _ => [d.width, d.height, d.depth, d.levels].map (BitVec.ofNat 32)))) ∧
  (∀ s slot num t g r, getGroup (s.upTo t) slot = some g → (g.samples.find? fun r => r.num = num) = some r →
    let u := s.upTo t
    let as := u.traffic.accesses.filter fun e => e.2.client == .sampler slot num
    g.stopped = false → (g.replays.any fun a => a.client == .sampler slot num) = false →
    (∀ e ∈ as, e.2.stage = .answered ∧ e.2.poison = false) →
    exec (.samplerReturn slot num t) s = .next (reapGroup (putGroup (as.foldl (fun v e => removeAccess v e.1) u) slot
      (let g' := putQuads g r fun l => sampleResult r l r.free (readTexel (texDesc r.tex) (reqDim r) as)
       { g' with samples := g'.samples.filter fun y => y.num ≠ num })) slot))

/-- INTERP interpolates, OUTV and OUTF write output slots, DISCARD makes the executing lanes helpers. It rests on the
model's own choices or readings of log entries 14, 27. -/
def Obligations.GraphicsInstructionsWriteOutputs : Prop :=
  (∀ s slot w t x f d fg, issuing s slot w t (· == 0x64) = some x → fragOf x.s slot x.g = some (f, d, fg) →
    exec (.interp slot w t) s = .next (putGroup { x.s with free := x.s.free + 128 } slot (advance
      ((lanesOf (runMask x.g x.iw x.active)).foldl (fun g l =>
        putWords g false x.iw.d l (interpLane f fg x.iw.a x.iw.mod l x.s.free)) x.g) x.iw x.pc x.active))) ∧
  issuesTo .outv 0x65 (fun x slot =>
    x.next slot (putOut x.g x.iw (lanesOf (runMask x.g x.iw x.active)) fun _ _ => 0#32)) ∧
  (∀ s slot w t x, issuing s slot w t (· == 0x66) = some x →
    (∀ g, getGroup (s.upTo t) slot = some g → (x.iw.d = 8 ∨ x.iw.d = 9) → earlyOnly (s.upTo t) slot g = false) →
    effectLanes x.g x.iw x.active ≠ [] →
    exec (.outf slot w t) s = .next (putGroup { x.s with free := x.s.free + 128 } slot (advance
      (putOut x.g x.iw (effectLanes x.g x.iw x.active) fun c lane => Config.freeWord (x.s.free + 32 * c + lane))
      x.iw x.pc x.active))) ∧
  (∀ s slot w t x, issuing s slot w t (· == 0x67) = some x →
    (∀ g, getGroup (s.upTo t) slot = some g → earlyOnly (s.upTo t) slot g = false) →
    let m := runMask x.g x.iw x.active
    exec (.discard slot w t) s = .next (x.next slot { x.g with helpers := x.g.helpers ||| m, discarded := x.g.discarded ||| m }))

/-- BRA, BRX and CALL move the executing lanes to their target, EXIT ends them, MARK traces a scalar. It rests on the
model's own choices or readings of log entry 14. -/
def Obligations.BranchesExitsAndMarksMoveThreads : Prop :=
  issuesTo .bra 0x70 (fun x slot =>
    putGroup x.s slot (setPcs (advance x.g x.iw x.pc x.active) (lanesOf (runMask x.g x.iw x.active))
      fun _ => (BitVec.ofNat 64 x.pc + BitVec.ofInt 64 (4 * x.iw.imm.toInt)).toNat)) ∧
  (∀ s slot w t x, issuing s slot w t (· == 0x71) = some x →
    (∀ l ∈ lanesOf (runMask x.g x.iw x.active), (x.g.progVa + (x.a l).toNat) % 4 = 0) →
    exec (.brx slot w t) s = .next (putGroup x.s slot (setPcs (advance x.g x.iw x.pc x.active)
      (lanesOf (runMask x.g x.iw x.active)) fun l => x.g.progVa + (x.a l).toNat))) ∧
  issuesTo .call 0x72 (fun x slot =>
    let lanes := lanesOf (runMask x.g x.iw x.active)
    let g := setPcs (advance x.g x.iw x.pc x.active) lanes
      fun _ => (BitVec.ofNat 64 x.pc + BitVec.ofInt 64 (4 * x.iw.imm.toInt)).toNat
    putGroup x.s slot (if lanes.isEmpty then g
      else writeResult g x.iw lanes fun _ => BitVec.ofInt 32 ((x.pc : Int) + 12 - x.g.progVa))) ∧
  (∀ s slot w t x, issuing s slot w t (· == 0x73) = some x →
    let g := setSts (advance x.g x.iw x.pc x.active) (lanesOf (runMask x.g x.iw x.active)) .exited
    (groupExited g = false → exec (.exit slot w t) s = .next (releaseBarrier (putGroup x.s slot g) g.wg)) ∧
    (groupExited g = true → ∀ v h, publish x.s slot g x.pc w = .done v h →
      exec (.exit slot w t) s = .next (reapGroup (finishWg (releaseBarrier (putGroup v slot h) h.wg) h.wg) slot))) ∧
  issuesTo .mark 0x74 (fun x slot =>
    putGroup (traceMark x.s x.g.core (x.a 0)) slot (advance x.g x.iw x.pc x.active))

/-- Undefined opcodes and illegal encodings kill the context with ILLEGAL_INSTR; what is not fetched is fetched first, a
fetch fault kills. It rests on the model's own choices or readings of log entry 14. -/
def Obligations.IllegalInstructionsKillTheContext : Prop :=
  ∀ s slot w t g pc, getGroup (s.upTo t) slot = some g → groupPc g = some pc →
    let u := s.upTo t
    let iw := iword w
    let active := activeMask g pc
    groupReady u slot g = true →
    (fetched u g pc iw.len w = true → instrFetch u g pc iw.len = .ready → shapeOf iw = none →
      exec (.undefinedOpcode slot w t) s = .next (groupFault u slot g 0x0505 .none pc active w 1)) ∧
    (∀ row op, (row, op) ∈ [(Instr.mov, 0x01), (Instr.sel, 0x02), (Instr.iadd, 0x03), (Instr.fadd, 0x20), (Instr.ld, 0x50),
        (Instr.st, 0x51), (Instr.fence, 0x59), (Instr.bra, 0x70), (Instr.mark, 0x74), (Instr.mma, 0x81)] → iw.op = op →
      (fetched u g pc iw.len w = false → exec (row slot w t) s = .next u) ∧
      (∀ v, fetched u g pc iw.len w = true → instrFetch u g pc iw.len = .missing v →
        exec (row slot w t) s = .next (startFetch u slot g v)) ∧
      (∀ code v, fetched u g pc iw.len w = true → instrFetch u g pc iw.len = .fault code v →
        exec (row slot w t) s = .next (groupFault u slot g code (.va v) pc active w)) ∧
      (fetched u g pc iw.len w = true → instrFetch u g pc iw.len = .ready →
        (∀ r, illegalReason iw g.kind active = some r →
          exec (row slot w t) s = .next (groupFault u slot g 0x0505 .none pc active w r)) ∧
        (illegalReason iw g.kind active = none → vregRange iw g.vregs = true →
          exec (row slot w t) s = .next (groupFault u slot g 0x0504 .none pc active w))))

/-- MLOAD, MMA, MSTORE, MZERO and MMAF join the Madder with their token; MSYNC waits for all of them. It rests on the
model's own choices or readings of log entries 14, 41. -/
def Obligations.MatrixInstructionsJoinTheMadder : Prop :=
  joinsMadder .mload 0x80 (fun x => .mload x.iw.d (tileBase x.g x.iw) (tileStride x.g x.iw)
      { code := x.iw.mod % 8, int4 := x.iw.mod % 8 == 0 && bitNat x.iw.aux 2, sgn := bitNat x.iw.aux 0,
        mode := x.iw.mod / 8, rows := [] }) ∧
  joinsMadder .mma 0x81 (fun x => .mma x.iw.d x.iw.a x.iw.b (bitNat x.iw.mod 0)) ∧
  joinsMadder .mstore 0x82 (fun x => .mstore x.iw.c (tileBase x.g x.iw) (tileStride x.g x.iw) (x.iw.mod % 8) x.iw.aux) ∧
  joinsMadder .mzero 0x83 (fun x => .mzero x.iw.d) ∧
  joinsMadder .mmaf 0x84 (fun x => .mmaf x.iw.d (x.iw.mod % 8) (x.iw.mod / 8) (bitNat x.iw.aux 0) (bitNat x.iw.aux 1)
      (x.iw.mod % 8 == 0 && bitNat x.iw.aux 2) (fragment x.g x.iw.a (fragRegs (x.iw.mod % 8)))
      (fragment x.g x.iw.b (fragRegs (x.iw.mod / 8))) (if x.iw.ck = 3 then none else some (fragment x.g x.iw.c 8))) ∧
  (∀ s slot w t x v g, issuing s slot w t (· == 0x85) = some x →
    (x.s.madders.ops.any fun e => e.2.group == slot) = false →
    (x.s.traffic.accesses.any fun e => !e.2.dropped && e.2.client == .madderStore slot) = false →
    publish x.s slot x.g x.pc w = .done v g →
    exec (.msync slot w t) s = .next (putGroup v slot (advance g x.iw x.pc x.active)))

/-- MADDER_HANDOFF stages an operation, data return fills it, the oldest one commits or is squashed without effect. It
rests on the model's own choices or readings of log entries 22, 41. -/
def Obligations.MadderOperationsCommitOrSquashInOrder : Prop :=
  (∀ s op t o g, getOp (s.upTo t) op = some o → getGroup (s.upTo t) o.group = some g →
    let u := s.upTo t
    o.handed = false → domOn u (24 + o.core) = true → stagingFree u o = true →
    let v := modOp u op fun o => { o with handed := true }
    (stagingClass o.kind ≠ 0 → exec (.madderHandoff op t) s = .next v) ∧
    (∀ n base stride d, o.kind = .mload n base stride d → g.drive.isSome = true →
      exec (.madderHandoff op t) s = .next (mloadReads v op o g base stride (recordLen d.code d.int4 d.mode)))) ∧
  (∀ s op t o n base stride d, getOp (s.upTo t) op = some o → o.kind = .mload n base stride d →
    let u := s.upTo t
    let as := u.traffic.accesses.filter fun e => e.2.client == .madderLoad o.group op
    o.reading = true → (∀ e ∈ as, e.2.stage = .answered ∧ e.2.poison = false) →
    exec (.mloadDataReturn op t) s = .next (modOp (as.foldl (fun v e => removeAccess v e.1) u) op fun o =>
      { o with
        reading := false
        rows := (List.range 16).map fun r => rowBytes as (base + r * stride) (recordLen d.code d.int4 d.mode) })) ∧
  (∀ s op t o g, getOp (s.upTo t) op = some o → getGroup (s.upTo t) o.group = some g →
    let u := s.upTo t
    o.handed = true → o.commit = true → o.reading = false → oldestOp u op o = true →
    commitFault g o.kind = none → o.fault = none →
    exec (.retireCommit op false t) s = .next (reapGroup (commitOp (removeOp u op) o g) o.group)) ∧
  (∀ s op t o, getOp (s.upTo t) op = some o →
    let u := s.upTo t
    o.handed = true → o.commit = false → oldestOp u op o = true →
    ∃ v, exec (.retireSquash op t) s = .next (reapGroup v o.group) ∧
      v.madders = (removeOp u op).madders ∧
      (∀ e ∈ u.traffic.accesses, e.2.client ≠ .madderLoad o.group op → e ∈ v.traffic.accesses) ∧
      (∀ e ∈ v.traffic.accesses, e.2.client = .madderLoad o.group op → e.2.dropped = true) ∧
      v = { u with madders := v.madders, traffic := { u.traffic with accesses := v.traffic.accesses } })

/-- DB_RING latches and opens a submission; LINK_WORD_ARRIVE, TAIL_POLL, CHAIN_TORN and DEADLINE_MISS act on the queue. It
rests on the model's own choices or readings of log entries 3, 12, 18, 59. -/
def Obligations.DoorbellsAndLinkWordsMoveTheQueue : Prop :=
  (∀ s fn db t q r, let u := s.upTo t
    barAnswers u fn = true → doorbellQueue u fn db = some q → getQueue u q = some r → r.st ≠ .error →
    let v := modQueue (mordantInput u 1) q fun r => { r with wait := r.wait.map fun w => { w with due := true } }
    exec (.dbRing fn db t) s = .next (settleQueue (modQueue v q fun r =>
      if r.deadline ≠ 0 && r.sub.isNone then
        { r with latched := true, sub := some (v.stamp + r.deadline), subMissed := false, missed := false }
      else { r with latched := true }) q)) ∧
  (∀ s q t r va, let u := s.upTo t
    getQueue u q = some r → r.chain = .linkRead va → queueServed u q r = true → r.torn < 9 →
    (∀ w, engineRead u (queueEngine u q) .load va 16 = .wait w → exec (.linkWordArrive q t) s = .next w) ∧
    (∀ e a, engineRead u (queueEngine u q) .load va 16 = .fault e a →
      exec (.linkWordArrive q t) s = .next (chainFault u q va (some e))) ∧
    (∀ bs, engineRead u (queueEngine u q) .load va 16 = .ready bs →
      let v := useReads u (.queue q)
      let n := leNat (bs.map Prod.fst)
      (bs.any Prod.snd = true → exec (.linkWordArrive q t) s = .next (chainFault u q va none)) ∧
      (bs.any Prod.snd = false → bitsNat n 31 0 = bitsNat n 127 96 →
        exec (.linkWordArrive q t) s = .next (followLink v q va n)) ∧
      (bs.any Prod.snd = false → bitsNat n 31 0 ≠ bitsNat n 127 96 →
        exec (.linkWordArrive q t) s = .next (tornLink v q)))) ∧
  (∀ s q t r va, let u := s.upTo t
    getQueue u q = some r → r.chain = .atEnd va → timed u = true → queueServed u q r = true → r.st = .parked →
    r.park + (r.polls + 1) * r.parkPoll * 1000 ≤ u.stamp →
    exec (.tailPoll q t) s = .next (modQueue u q fun r => { r with chain := .linkRead va, polls := r.polls + 1 })) ∧
  (∀ s q t r va, let u := s.upTo t
    getQueue u q = some r → r.chain = .linkRead va → queueServed u q r = true → 9 ≤ r.torn →
    exec (.chainTorn q t) s = .next (chainError u q 0x0200 va 0#32)) ∧
  (∀ s q t r d, let u := s.upTo t
    getQueue u q = some r → r.sub = some d → timed u = true → r.subMissed = false → d ≤ u.stamp →
    exec (.deadlineMiss q t) s = .next (declareMiss u q))

/-- NOP, MARKER and the four FENCE operations complete with their effect; a bad packet is a chain error. It rests on the
model's own choices or readings of log entries 12, 13, 43. -/
def Obligations.CommonPacketsCompleteWithTheirEffect : Prop :=
  startsTo .nopPacket 0 anyBytes (fun _ => anyTime) (fun s q p _ => completePkt s q p.num) ∧
  startsTo .marker 5 anyBytes (fun _ => anyTime) (fun s q p bs =>
    completePkt (traceMarker s q.ctx.tenant (BitVec.ofNat 64 (fieldAt bs 8 8))) q p.num) ∧
  (∀ row op kind, (row, op, kind) ∈ [(Instr.fenceWrite, 0, SignalKind.write), (Instr.fenceAdd, 1, .add), (Instr.fenceMax, 2, .max),
      (Instr.fenceStamp, 3, .stamp)] →
    (∀ s q t x h l, starting s q t 1 (fenceOp · == op) (visibleHold q) = some x →
      ((getQueue (s.upTo t) q).bind Queue.signal).all (fun o => o.kind != kind) = true →
      let va := vaAt x.bytes 8
      let o : SignalOp := { pkt := x.p.num, kind := kind, va := va, value := BitVec.ofNat 64 (fieldAt x.bytes 16 8), tries := 1 }
      let v := putSignal x.s q o
      va % 8 = 0 → translate v q.ctx va kind.need = .ok (h, l) → homeGone v h = false →
      exec (row q t) s = .next (useReads
        (wordAccess v q (.signal q) h l va (signalStart x.s h o).1 (signalStart x.s h o).2) (.queue q))) ∧
    (∀ s q t o n a, let u := s.upTo t
      (getQueue u q).bind Queue.signal = some o → o.kind = kind → accessOf u (.signal q) = some (n, a) → waitServed u q = true →
      a.stage = .answered →
      let v := removeAccess u n
      (a.kind.isWrite = true → (∀ aop wide ws, a.kind ≠ .atomic aop wide ws) → a.poison = false →
        exec (row q t) s = .next (completePkt v q o.pkt)) ∧
      ((answeredWord a o.va).2 = false →
        (∀ aop wide ws, a.kind = .atomic aop wide ws → aop ≠ .cas → exec (row q t) s = .next (completePkt v q o.pkt)) ∧
        (∀ wide ws, a.kind = .atomic .cas wide ws → exec (row q t) s = .next (stepMax v q o (answeredWord a o.va).1)) ∧
        (a.kind = .read → exec (row q t) s = .next
          (sendSignal v q o fun _ => (wordWrite (updatedWord o (answeredWord a o.va).1), true)))))) ∧
  (∀ s q t r va endVa h bs, let u := s.upTo t
    getQueue u q = some r → queueServed u q r = true → r.wait = none → packetAt u q = .packet va endVa h bs →
    isBadPacket u r va endVa h = true → exec (.badPacket q t) s = .next (chainError (useReads u (.queue q)) q 0x0202 va h.tag))

/-- WAIT starts to wait, WAIT_REEVALUATE and WAIT_TIMEOUT end it, SEM_ACQUIRE takes and SEM_RELEASE frees a semaphore. It
rests on the model's own choices or readings of log entries 12, 13, 43. -/
def Obligations.WaitsAndSemaphoresComplete : Prop :=
  (∀ s q t x, starting s q t 2 anyBytes anyTime = some x → waitBad (vaAt x.bytes 8) x.bytes = false →
    exec (.wait q t) s = .next (useReads (startWait x.s q x.p x.bytes (vaAt x.bytes 8) false) (.queue q))) ∧
  (∀ s q t x, starting s q t 3 anyBytes anyTime = some x →
    let va := fieldAt x.bytes 8 8
    waitBad va x.bytes = false → semsHeld x.s q.ctx < 16 → noAtomic x.s q.ctx va = false →
    exec (.semAcquire q t) s = .next (useReads (startWait x.s q x.p x.bytes va true) (.queue q))) ∧
  (∀ s q t r w h l, let u := s.upTo t
    getQueue u q = some r → r.wait = some w → waitServed u q = true → accessOf u (.wait q) = none →
    translate u q.ctx w.addr (if w.sem then .atomic else .load) = .ok (h, l) → homeGone u h = false →
    waitOccasion u r w h = true → acquireRefused u q w = none →
    exec (.waitReevaluate q t) s = .next (wordAccess (putWait u q { w with due := false, polls := pollsPassed u r w }) q
      (.wait q) h l w.addr (fun _ => .read) false)) ∧
  (∀ s q t r w n a, let u := s.upTo t
    getQueue u q = some r → r.wait = some w → waitServed u q = true → accessOf u (.wait q) = some (n, a) → a.stage = .answered →
    let v := removeAccess u n
    let word := (answeredWord a w.addr).1
    (answeredWord a w.addr).2 = false →
    (w.sem = false → condHolds w word = true → inTime v w = true →
      exec (.waitReevaluate q t) s = .next (completePkt v q w.pkt)) ∧
    (w.sem = true → a.kind = .read → semFree word = true → inTime v w = true →
      exec (.waitReevaluate q t) s = .next (takeSem v q w word)) ∧
    (w.sem = true → a.kind ≠ .read → word = w.compare →
      exec (.waitReevaluate q t) s = .next (completePkt (holdSem v q.ctx w.addr) q w.pkt))) ∧
  (∀ s q t r w, let u := s.upTo t
    getQueue u q = some r → r.wait = some w → timed u = true → waitServed u q = true → inTime u w = false →
    exec (.waitTimeout q t) s = .next (wordError u q w.pkt 0x0210 w.addr)) ∧
  (∀ s q t x h l, starting s q t 4 anyBytes (visibleHold q) = some x →
    ((getQueue (s.upTo t) q).bind Queue.signal).all (fun o => o.kind != .release) = true →
    let va := fieldAt x.bytes 8 8
    let o : SignalOp := { pkt := x.p.num, kind := .release, va := va, value := BitVec.ofNat 64 (fieldAt x.bytes 16 8), tries := 1 }
    let v := putSignal x.s q o
    va % 8 = 0 → noAtomic x.s q.ctx va = false → translate v q.ctx va .atomic = .ok (h, l) → homeGone v h = false →
    exec (.semRelease q t) s = .next (useReads (wordAccess v q (.signal q) h l va (fun _ => .read) false) (.queue q))) ∧
  (∀ s q t o n a, let u := s.upTo t
    (getQueue u q).bind Queue.signal = some o → o.kind = .release → accessOf u (.signal q) = some (n, a) → waitServed u q = true →
    a.stage = .answered →
    let v := removeAccess u n
    let word := (answeredWord a o.va).1
    (answeredWord a o.va).2 = false →
    (a.kind = .read → semHolder word = ownerCode q.ctx →
      exec (.semRelease q t) s = .next (sendSwap v q { o with compare := word } (semReleased word))) ∧
    (∀ wide ws, a.kind = .atomic .cas wide ws → word = o.compare →
      exec (.semRelease q t) s = .next (completePkt (modCtx v q.ctx fun c => { c with sems := removeAll c.sems o.va }) q o.pkt)))

/-- DISPATCH, MDISPATCH and their indirect forms open a dispatch of their grid. It rests on the model's own choices or
readings of log entries 12, 13. -/
def Obligations.DispatchPacketsOpenAGrid : Prop :=
  (∀ s q t x, starting s q t 0x40 anyBytes anyTime = some x →
    let d := dispatchOf x.s q x.p x.bytes (gridOf x.bytes) none
    dispatchBad d = false → gridBad d.grid = false → gridEmpty d.grid = false → unfit d = false →
    exec (.dispatch q t) s = .next (useReads { x.s with cores := { x.s.cores with
      dispatches := x.s.cores.dispatches ++ [(x.s.cores.nextDispatch, d)]
      nextDispatch := x.s.cores.nextDispatch + 1 } } (.queue q))) ∧
  (∀ s q t x, starting s q t 0x60 anyBytes anyTime = some x →
    let d := dispatchOf x.s q x.p x.bytes (gridOf x.bytes) (driveOf x.bytes)
    dispatchBad d = false → gridBad d.grid = false → gridEmpty d.grid = false → unfit d = false → fieldAt x.bytes 64 1 ≤ 64 →
    exec (.mdispatch q t) s = .next (useReads { x.s with cores := { x.s.cores with
      dispatches := x.s.cores.dispatches ++ [(x.s.cores.nextDispatch, d)]
      nextDispatch := x.s.cores.nextDispatch + 1 } } (.queue q))) ∧
  (∀ s q t x bs, starting s q t 0x41 anyBytes (gridHold q) = some x →
    gridVa x.bytes % 4 = 0 → readGrid x.s q x.bytes = .ready bs → bs.any Prod.snd = false →
    let g := bs.map Prod.fst
    let d := dispatchOf x.s q x.p x.bytes (fieldAt g 0 4, fieldAt g 4 4, fieldAt g 8 4) none
    dispatchBad d = false → gridBad d.grid = false → unfit d = false →
    exec (.dispatchIndirect q t) s = .next (useReads (if gridEmpty d.grid then completePkt x.s q x.p.num
      else { x.s with cores := { x.s.cores with
        dispatches := x.s.cores.dispatches ++ [(x.s.cores.nextDispatch, d)]
        nextDispatch := x.s.cores.nextDispatch + 1 } }) (.queue q))) ∧
  (∀ s q t x bs, starting s q t 0x61 anyBytes (gridHold q) = some x →
    gridVa x.bytes % 4 = 0 → readGrid x.s q x.bytes = .ready bs → bs.any Prod.snd = false →
    let g := bs.map Prod.fst
    let d := dispatchOf x.s q x.p x.bytes (fieldAt g 0 4, fieldAt g 4 4, fieldAt g 8 4) (driveOf x.bytes)
    dispatchBad d = false → gridBad d.grid = false → unfit d = false → fieldAt x.bytes 64 1 ≤ 64 →
    exec (.mdispatchIndirect q t) s = .next (useReads (if gridEmpty d.grid then completePkt x.s q x.p.num
      else { x.s with cores := { x.s.cores with
        dispatches := x.s.cores.dispatches ++ [(x.s.cores.nextDispatch, d)]
        nextDispatch := x.s.cores.nextDispatch + 1 } }) (.queue q)))

/-- WORKGROUP_PLACE launches, PLACEMENT_RESERVE reserves, PREEMPT_DECISION and TIME_SLICE_BOUNDARY stop victims. It rests
on the model's own choices or readings of log entry 23. -/
def Obligations.PlacementAndPreemptionAct : Prop :=
  (∀ s d core t x, let u := s.upTo t
    tblGet u.cores.dispatches d = some x → placeCore u d x = some core →
    outranked u core (orderKey u x.queue x.ready) = false →
    (∀ w, readArgs u x.queue core x.argVa = .wait w → exec (.workgroupPlace d core t) s = .next w) ∧
    (∀ bs, readArgs u x.queue core x.argVa = .ready bs → bs.any Prod.snd = false →
      exec (.workgroupPlace d core t) s = .next (useReads (launchWg u d x core (bs.map Prod.fst)) (.args x.queue core)))) ∧
  (∀ s d core t x, let u := s.upTo t
    tblGet u.cores.dispatches d = some x → timed u = true → dispatchReady u x = true → topDispatch u d x = true →
    (u.cores.reserve.any fun e => e.2 == d) = false → heldMoreThan x.ready u.stamp 100000 = true →
    ((eligibleCores u d x).find? fun c => fitsLess u c x.need fun _ => true) = some core →
    exec (.placementReserve d core t) s =
      .next { u with cores := { u.cores with reserve := tblSet u.cores.reserve core d } }) ∧
  (∀ s q core t d x vs, let u := s.upTo t
    waitingDispatch u q = some (d, x) → corePreempt u d x = some (core, vs) →
    exec (.preemptDecision q (.core core) t) s = .next (startCorePreempt u d core vs)) ∧
  (∀ s q victim t r, let u := s.upTo t
    getQueue u victim = some r → r.preempting = none → placeable u q = true →
    (wantsChannel u q victim || wantsBinner u q victim) = true →
    exec (.preemptDecision q (.queue victim) t) s = .next (preemptQueue u victim (preemptCode u victim))) ∧
  (∀ s t, let u := s.upTo t
    timed u = true → u.stamp = t → t % 1000000 = 0 →
    exec (.timeSliceBoundary t) s = .next (u.cores.dispatches.foldl (fun v e =>
      if starved v e.1 e.2 t then
        match lowestQueue v (sliceHolders v e.1 e.2) with
        | some x => preemptQueue v x (preemptCode v x)
        | none => v
      else v) u))

/-- GROUP_STOP_COMPLETE, SAVE_COMPLETE, QUEUE_RESUME, RESTORE_COMPLETE and FORFEIT_WRITES_PERFORMED finish. It rests on
the model's own choices or readings of log entries 11, 23, 44. -/
def Obligations.StopsSavesAndRestoresComplete : Prop :=
  (∀ s slot t g, let u := s.upTo t
    getGroup u slot = some g → g.stopping = true → g.stopped = false → stopMet u slot g = true →
    let reads := toReplay u slot g
    let ops := opsToReplay u slot g
    let v := reads.foldl (fun v e => removeAccess v e.1) u
    exec (.groupStopComplete slot t) s = .next (putGroup
      { v with madders := { v.madders with ops := v.madders.ops.filter fun e => !(ops.any fun o => o.1 == e.1) } } slot
      { g with stopped := true, replays := g.replays ++ reads.map Prod.snd, replayOps := g.replayOps ++ ops })) ∧
  (∀ s q t, let u := s.upTo t
    let ready := u.cores.wgs.filter fun e => e.2.queue == q && wgStopped u e.1
    let ops := u.xfer.active.filter fun e => e.2.queue == q && xferStopped u e.1 e.2
    exec (.saveComplete q t) s =
      .next (ops.foldl (fun v e => saveXfer v e.1 e.2) (ready.foldl (fun v e => saveWg v e.1 e.2) u))) ∧
  (∀ s q t r, let u := s.upTo t
    getQueue u q = some r → r.stops.contains .preempt = true → stopComplete u q r = true → placeable u q = true →
    exec (.queueResume q t) s = .next (settleQueue (modQueue
      { u with xfer := { u.xfer with
          saved := u.xfer.saved.filter fun o => o.queue != q
          waiting := u.xfer.waiting ++ u.xfer.saved.filter fun o => o.queue == q } } q
      fun r => { r with stops := removeAll r.stops .preempt, preempting := none, wait := r.wait.map fun w => { w with due := true } }) q)) ∧
  (∀ s wg core t x, let u := s.upTo t
    tblGet u.cores.saved wg = some x → restorable u x core = true →
    outranked u core (orderKey u x.wg.queue x.since) = false →
    exec (.restoreComplete wg core false t) s = .next (restoreWg u wg core x)) ∧
  (∀ s k t f, let u := s.upTo t
    u.forfeits[k]? = some f → u.lock.mode ≠ .halted →
    let v := dropHeld u f
    (forfeitWritesLeft v f = true → exec (.forfeitWritesPerformed k t) s = .next (takeCheckpoint v)) ∧
    (forfeitWritesLeft v f = false →
      let w := if f.swept then v else modForfeit (forfeitSweep v fun c => f.ctxs.contains c) k fun f => { f with swept := true }
      let y := markSems w k f.ctxs
      exec (.forfeitWritesPerformed k t) s = .next (takeCheckpoint
        (if semsLeft y f.ctxs || adminRuns y f then y else finishForfeit y k))))

/-- LPDDR_READ and LPDDR_WRITE_BACK serve or stop at an absent address; OSC_TRACKING, refresh and sampling act. It rests
on the model's own choices or readings of log entries 6, 18, 36, 52, 61. -/
def Obligations.MemoryInterfacesServe : Prop :=
  (∀ s n ecc t a at_ pa, let u := s.upTo t
    getAccess u n = some a → a.stage = .filling at_ → a.home = .device pa → lineWrites u pa = false →
    exec (.lpddrRead (.access n) ecc t) s = .next (readAccess u n a pa at_ ecc)) ∧
  (∀ s pa ecc t, let u := s.upTo t
    (pa < usableBytes u → exec (.lpddrRead (.table pa) ecc t) s =
        .next (readStructure u pa true ecc) ∧
      exec (.lpddrRead (.structure_ pa) ecc t) s = .next (readStructure u pa false ecc)) ∧
    (usableBytes u ≤ pa → exec (.lpddrRead (.table pa) ecc t) s = .fault .noSuchAddress ∧
      exec (.lpddrRead (.structure_ pa) ecc t) s = .fault .noSuchAddress)) ∧
  (∀ s word n rest t, let u := s.upTo t
    word < poolBytes u / 2 ^ 20 → u.lpddr.inService = true →
    let pa := reservedBase u + 32 * word
    let who := (getAccess u n).bind Access.ctx
    let letters : List WinLetter := if who.isSome then [.t, .d] else [.d]
    let lost := fun (code : Nat) => loseZeroWord (detect (countUe u) (memRec u code letters who 0 pa)) word
    exec (.lpddrRead (.zeroWord word n) (.good :: rest) t) s = .next u ∧
    exec (.lpddrRead (.zeroWord word n) (.corrected :: rest) t) s = .next (countCe u pa) ∧
    exec (.lpddrRead (.zeroWord word n) (.linkUncorrectable :: rest) t) s = .next (lost 0x0311) ∧
    (u.lpddr.ecc = true → exec (.lpddrRead (.zeroWord word n) (.uncorrectable :: rest) t) s = .next (lost 0x0310))) ∧
  (∀ s k ecc vat t w, let u := s.upTo t
    writeBackDue u k = some w →
    (w.pa < usableBytes u → exec (.lpddrWriteBack k ecc vat t) s =
      .next (performWrite (ackWriteBack (checkSent u w vat).1 k) (checkSent u w vat).2 ecc)) ∧
    (usableBytes u ≤ w.pa → exec (.lpddrWriteBack k ecc vat t) s = .fault .noSuchAddress)) ∧
  (∀ s ch t, let u := s.upTo t
    isOpen u = true → timed u = true → u.lpddr.inService = true → ch < channels u → t % 100000000 = 0 → u.stamp = t →
    exec (.oscTracking ch true t) s =
      .next { u with lpddr := { u.lpddr with trackFail := u.lpddr.trackFail &&& ~~~(BitVec.ofNat 16 (2 ^ ch)) } } ∧
    let v : State := { u with lpddr := { u.lpddr with trackFail := u.lpddr.trackFail ||| BitVec.ofNat 16 (2 ^ ch) } }
    exec (.oscTracking ch false t) s = .next (pushRecord v { deviceRec v 0x0313 0 [.d] with
      loc := { unit := .lpddr, index := ch }, detail := detailOf (ch * 256) 0 0 0 })) ∧
  (∀ s ch rfm t, exec (.lpddrRefresh ch rfm t) s = .next (s.upTo t)) ∧
  (∀ s t, let u := s.upTo t
    mordantServes u = true → timed u = true → t % 1000000 = 0 → u.stamp = t →
    ∃ v, exec (.linesResidentSample t) s = .next v ∧ v = { u with ctxs := v.ctxs } ∧
      v.ctxs = u.ctxs.map fun e => (e.1, { e.2 with linesResident := ownerCount u (ownerCode e.1), linesStamp := t }))

/-- VAT_LOAD, VAT_STORE, VAT_ATOMIC and VAT_FILL_RETURN perform an access at its home slice; PATROL_SCRUB checks. It rests
on the model's own choices or readings of log entries 14, 19, 39, 52. -/
def Obligations.SlicesPerformAccesses : Prop :=
  (∀ s n lru ecc tags t a pa, let u := s.upTo t
    atHome u n = some a → a.home = .device pa →
    let r := checkedLine u a.pri pa (usedSectors a pa) ecc tags
    (a.kind = .read →
      (∀ ln, r.2 = some ln → ((usedSectors a pa).all fun k => (lineSector ln k).sv) = true →
        exec (.vatLoad n lru ecc tags t) s = .next (answerRead (touchLine r.1 ln) n a pa [])) ∧
      (r.2 = none → exec (.vatLoad n lru ecc tags t) s = .next (miss r.1 n pa (lineOrRoom r.1 a pa lru)))) ∧
    (∀ op wide words, a.kind = .atomic op wide words →
      (∀ ln, r.2 = some ln → ((usedSectors a pa).all fun k => (lineSector ln k).sv) = true →
        exec (.vatAtomic n lru ecc tags t) s = .next (answerAtomic r.1 n a op wide words lru false)) ∧
      (r.2 = none → exec (.vatAtomic n lru ecc tags t) s = .next (miss r.1 n pa (lineOrRoom r.1 a pa lru))))) ∧
  (∀ s n lru ecc tags t a pa bytes poison ln, let u := s.upTo t
    atHome u n = some a → a.kind = .write bytes poison → a.home = .device pa →
    let r := checkedLine u a.pri pa (partialSectors pa bytes) ecc tags
    let j := judgeStore r.1 (detectorOf r.1 a) a.ctx a.va (pa % 128 == 0 && coversLine bytes)
    r.2 = some ln → ((partialSectors pa bytes).all fun k => (lineSector ln k).sv) = true →
    exec (.vatStore n lru ecc tags t) s = .next (performStore j.2 n a bytes poison j.1 lru)) ∧
  (∀ s n lru ecc tags t a x, let u := s.upTo t
    atHome u n = some a → a.home = .scratch x →
    (a.kind = .read → exec (.vatLoad n lru ecc tags t) s =
      .next (answerRead (checkSeg u x (usedSectors a x) ecc) n a x [])) ∧
    (∀ bytes poison, a.kind = .write bytes poison → exec (.vatStore n lru ecc tags t) s =
      .next (performStore (checkSeg u x (partialSectors x bytes) ecc) n a bytes poison false lru)) ∧
    (∀ op wide words, a.kind = .atomic op wide words → exec (.vatAtomic n lru ecc tags t) s =
      .next (answerAtomic (checkSeg u x (usedSectors a x) ecc) n a op wide words lru false))) ∧
  (∀ s n lru t a at_ pa, let u := s.upTo t
    getAccess u n = some a → a.stage = .filled at_ → a.home = .device pa →
    let v := installFill (chargeUngated u a.part a.fills.length) a pa lru a.fills
    (fillServes v a pa = false →
      exec (.vatFillReturn n lru t) s = .next (modAccess v n fun a => { a with stage := .admitted v.stamp })) ∧
    (fillServes v a pa = true →
      (a.kind = .read → exec (.vatFillReturn n lru t) s = .next (answerRead v n a pa (fillBad v a pa))) ∧
      (∀ bytes poison, a.kind = .write bytes poison → exec (.vatFillReturn n lru t) s =
        .next (performStore v n a bytes poison (findLine v pa).isNone lru)) ∧
      (∀ op wide words, a.kind = .atomic op wide words → exec (.vatFillReturn n lru t) s =
        .next (answerAtomic v n a op wide words lru ((usedSectors a pa).any fun k => (fillBad v a pa).getD k false))))) ∧
  (∀ s slice set way ecc tags t, let u := s.upTo t
    isOpen u = true → timed u = true → slice < 48 → set < 1024 → way < 16 → sliceOn u slice = true →
    (patrolDone u).contains (slice, set, way) = false →
    let w := patrolRead u (slice, set, way)
    (u.vat.convMask.getLsbD way = true → exec (.patrolScrub slice set way ecc tags t) s = .next (checkSeg w
      ((24 * way + (set * 48 + slice) / 2048) * segBytes + (set * 48 + slice) % 2048 * 128) (List.range 4) ecc)) ∧
    (∀ ln ln' v, u.vat.convMask.getLsbD way = false →
      (u.vat.lines.find? fun l => l.slice == slice && l.set == set && l.way == way) = some ln →
      checkTags w ln tags = (v, some ln') →
      exec (.patrolScrub slice set way ecc tags t) s = .next (checkLine v 0 ln' (List.range 4) ecc).1))

/-- Admission, window boundaries, router arrival, fabric timeouts, parity and acknowledgements act by their rules. It
rests on the model's own choices or readings of log entry 19. -/
def Obligations.FabricCommandsAct : Prop :=
  (∀ s n t a p, let u := s.upTo t
    getAccess u n = some a → a.part = some p → a.stage = .atNi → (nextQueued u a.ni p).map Prod.fst = some n →
    inPartWindow u p = true →
    let v := (tryAdmit u n a p).2
    exec (.admissionAttempt n t) s = .next (match a.writeBeat with | some ch => beatServed v ch true | none => v)) ∧
  (∀ s ni part t, let u := s.upTo t
    timed u = true → inPartWindow u part = true →
    exec (.heldReattempt ni part t) s = .next (reattempt u ni part (queued u ni part).length)) ∧
  (∀ s part t b, let u := s.upTo t
    timed u = true → part < 16 → nextBoundary (getPart u.fabric part) = some b → b ≤ u.stamp →
    exec (.windowBoundary part t) s = .next { u with fabric := modPart u.fabric part fun p => p.boundary b }) ∧
  (∀ s k f, s.fabric.flits[k]? = some f →
    ∃ v, exec (.flitAged k) s = .next v ∧ v = { s with fabric := { s.fabric with flits := v.fabric.flits } } ∧
      v.fabric.flits[k]? = some (if 1024 ≤ f.steps then { f with aged := true } else f) ∧
      ∀ j, j ≠ k → v.fabric.flits[j]? = s.fabric.flits[j]?) ∧
  (∀ s n router flit ecc grants upset t y p e, let u := s.upTo t
    inFlight u n = some (y, p) → p.path.find? (fun e => e.1 == router) = some e → flit < 3 →
    let u := routeHeader u n router flit upset
    let v : State := { u with fabric := routerSteps u.fabric router (grants % 4096) }
    let v := if flit = 0 then traceHeader v router (headerOf v p) else v
    let r := checkFlit v n y p router flit ecc
    let f : WaitingFlit :=
      { router := router, out := e.2.2, inp := e.2.1, response := p.response, yx := p.yx, pri := p.pri, spine := p.spine }
    inFlight u n = some (y, p) →
    exec (.routerFlitArrive n router flit ecc grants upset t) s = .next (if r.2 then
      { r.1 with fabric := { r.1.fabric with flits := r.1.fabric.flits ++ [f] } } else r.1)) ∧
  (∀ s n t a, let u := s.upTo t
    getAccess u n = some a → awaitsFabric a = true → timed u = true → a.stamp + fabricLimit u a.home ≤ u.stamp →
    let v := timeoutRec u a.ctx a.ni
    (∀ at_, a.stage = .lost at_ → exec (.fabricTimeout n t) s =
      .next (answerPoison (modAccess v n fun y => { y with ended := some 0x0411 }) n)) ∧
    ((∀ at_, a.stage ≠ .lost at_) → a.dropped = false → exec (.fabricTimeout n t) s =
      .next (deliver (addAccess (modAccess v n fun y => { y with dropped := true, lateFor := accessQueue v a.client }) { a with
        stage := .answered, bytes := List.replicate a.len 0#8, poison := true, fillPoison := List.replicate 4 true,
        stamp := v.stamp, ended := some 0x0411 }) a.client))) ∧
  (∀ s upset t, let u := s.upTo t
    mordantServes u = true → timed u = true → u.fabric.patrolled ≠ some (u.stamp / 10000000) →
    exec (.routeTablePatrol upset t) s = .next (((List.range 96).filter niExists).foldl (fun v ni => patrolNi v upset ni)
      { u with fabric := { u.fabric with patrolled := some (u.stamp / 10000000) } })) ∧
  (∀ s t, let v := settleParity (s.upTo t)
    16 < v.fabric.parityWin → mayEnter v 0x0413 = true →
    exec (.routeParityStorm t) s = .next (decideSepia (pushRecord v (deviceRec v 0x0413 6 [.b])) 0x0413 none)) ∧
  (∀ s n t a, let u := s.upTo t
    getAccess u n = some a → a.kind.isWrite = true → a.stage = .answered → a.client.keepsWrite = false →
    exec (.writeAcknowledge n t) s = .next (afterWrite (removeAccess u n) a.client))

/-- FRAME_BEGIN opens a frame, ATTACH attaches, DRAW and DRAW_INDIRECT form batches, FRAME_END lets the tiles render. It
rests on the model's own choices or readings of log entries 12, 13, 25. -/
def Obligations.GraphicsPacketsAct : Prop :=
  (∀ s q t x e, starting s q t 0x10 anyBytes (gfxHold q (beginHold q)) = some x →
    frameBad (frameOf x.bytes) = false → getFrame x.s q = none → tileEdge (frameOf x.bytes) = some e →
    exec (.frameBegin q t) s = .next (useReads (openFrame x.s q x.p { frameOf x.bytes with edge := e }) (.queue q))) ∧
  (∀ s q t x f, starting s q t 0x14 anyBytes (gfxHold q anyTime) = some x →
    let slot := fieldAt x.bytes 8 1
    slot ≤ 8 → (attachOf x.bytes).load ≠ 3 → getFrame x.s q = some f → f.drawn = false →
    attachBad x.s q f slot (attachOf x.bytes) = false →
    exec (.attach q t) s = .next (useReads (completePkt
      (modFrame x.s q fun f => { f with attach := tblSet f.attach slot (attachOf x.bytes) }) q x.p.num) (.queue q))) ∧
  (∀ s q t x f data ix,
    starting s q t 0x11 anyBytes (gfxHold q fun s bs => if drawBad bs || (getFrame s q).isNone then none else drawHold s q bs (drawArgs bs))
      = some x → drawBad x.bytes = false →
    let n := drawArgs x.bytes
    getFrame x.s q = some f → (f.drawn || attachMatch f) = true →
    readState x.s q x.bytes = .ready data →
    let state := (cleanBytes data).getD (List.replicate 256 0#8)
    let v := geomUsed (if (cleanBytes data).isSome then x.s else geomPoison x.s q (vaAt x.bytes 16)) q
    let restart := bitNat (fieldAt state 0x20 4) 4 && [2, 4, 5].contains (fieldAt x.bytes 52 1 % 8) && indexSize x.bytes != 0
    stateOk state = true → readIndices x.s q x.bytes n = .ready ix →
    exec (.draw q t) s = .next (useReads (enterDraw v q x.p x.bytes n state (vertexSequence x.bytes n restart ix)) (.queue q))) ∧
  (∀ s q t x f cmd data ix,
    starting s q t 0x12 anyBytes (gfxHold q (indirectHold q)) = some x → drawIndirectBad x.bytes = false →
    getFrame x.s q ≠ none → readCommand x.s q x.bytes = .ready cmd →
    let y := if (cleanBytes cmd).isSome then x.s else geomPoison x.s q (vaAt x.bytes 32)
    let n := commandArgs x.bytes cmd
    getFrame y q = some f → (f.drawn || attachMatch f) = true →
    readState y q x.bytes = .ready data →
    let state := (cleanBytes data).getD (List.replicate 256 0#8)
    let v := geomUsed (if (cleanBytes data).isSome then y else geomPoison y q (vaAt x.bytes 16)) q
    let restart := bitNat (fieldAt state 0x20 4) 4 && [2, 4, 5].contains (fieldAt x.bytes 52 1 % 8) && indexSize x.bytes != 0
    stateOk state = true → readIndices y q x.bytes n = .ready ix →
    exec (.drawIndirect q t) s = .next (useReads (enterDraw v q x.p x.bytes n state (vertexSequence x.bytes n restart ix)) (.queue q))) ∧
  (∀ s q t x f, starting s q t 0x13 anyBytes (gfxHold q anyTime) = some x →
    getFrame x.s q = some f → (f.drawn || attachMatch f) = true →
    exec (.frameEnd q t) s = .next (useReads (modFrame x.s q fun f => { f with endPkt := some x.p.num }) (.queue q)))

/-- Vertex groups launch, batches are binned, stalls end or flush, flushes rewind, and the Binner yields. It rests on the
model's own choices or readings of log entries 25, 26. -/
def Obligations.BinnerCommandsAct : Prop :=
  (∀ s q core t v d, bindFrame (s.upTo t) q = some v → (getFrame v q).bind launchingDraw = some d →
    mayLaunchBatch v q d = true → hasSaved v q.ctx = false → vertexCore v q (graphicsNeed q d.vregs) = some core →
    (∀ w, readArgs v q core d.argVa = .wait w → exec (.vertexGroupLaunch q core t) s = .next w) ∧
    (∀ bs, readArgs v q core d.argVa = .ready bs → bs.any Prod.snd = false →
      exec (.vertexGroupLaunch q core t) s = .next (useReads (launchBatch v q d core (bs.map Prod.fst)) (.args q core)))) ∧
  (∀ s q t v f d slot g w, bindFrame (s.upTo t) q = some v → getFrame v q = some f → f.flushing = false → f.stall = none →
    batchDone v f = some (d, slot, g) →
    let r := binBatch f d (d.batchAt d.binned).2 ((d.firstInstance + (d.batchAt d.binned).1) % 2 ^ 32) g.outs
    r.1.ordinal < 4096 → takePages v q d.pkt (r.1.ordinal + 1) 4096 = .ready w →
    let d' := { d with binned := d.binned + 1, slots := d.slots.drop 1 }
    let f' := { r.1 with pages := ((getFrame w q).map Frame.pages).getD [] }
    exec (.batchBin q t) s = .next (finishDraw (putBins (dropGroup (modFrame w q fun f =>
      setDraw { f' with taken := f.taken, low := f.low, partial_ := f.partial_ } d') slot) q f' g.core r.2) q d')) ∧
  (∀ s q t v f e g w free, bindFrame (s.upTo t) q = some v → getFrame v q = some f → f.stall = some (e, g) →
    freeCount v q f = .count w free → free ≠ 0 → (f.resumed = true ∨ (geomUsed w q).stamp < e + g) →
    exec (.publishedReadReturn q t) s = .next (writePool (modFrame
      (modFrame (geomUsed w q) q fun f => { f with resumed := false }) q fun f => { f with stall := none }) q true)) ∧
  (∀ s q t f e g, let u := s.upTo t
    u.gfx.bound = some q → timed u = true → getFrame u q = some f → f.stall = some (e, g) → e + g ≤ u.stamp →
    f.resumed = false → exec (.binGraceExpire q t) s = .next (startFlush u q)) ∧
  (∀ s q t f, let u := s.upTo t
    getFrame u q = some f → f.flushing = true → f.todo = [] → noTiles u q = true →
    exec (.partialFlushRewind q t) s = .next (writePool (modFrame (raiseTag (discardBins u q f) q) q fun f =>
      { f with flushing := false, ordinal := 0, unit := 0, prims := [], bins := [], blocks := [], kept := [] }) q true)) ∧
  (∀ s q t f, let u := s.upTo t
    getFrame u q = some f → u.gfx.bound = some q → atBatchBoundary f = true → f.flushing = false → yieldDue u q f = true →
    let v := binWrite { u with free := u.free + 1 } q (f.pool + 0x40) (leBytes 64 (Config.freeNat u.free))
    exec (.binnerYield q t) s =
      .next { v with gfx := { v.gfx with bound := if v.gfx.bound = some q then none else v.gfx.bound } })

/-- Tiles are assigned, fragment groups launch, flushed tiles finish, and FRAME_END completes. It rests on the model's own
choices or readings of log entries 25, 27, 28, 54. -/
def Obligations.TileCommandsAct : Prop :=
  (∀ s q core t tile f, let u := s.upTo t
    mayTile u q = true → tileAllowed u core q.ctx = true →
    (u.gfx.frames.any fun e => e.1 != q && mayTile u e.1 && tileAllowed u core e.1.ctx && lexLt (queueKey u e.1) (queueKey u q))
      = false →
    domOn u (65 + core / 4) = true → domOn u core = true → getTile u core = none →
    localUsed u core (fun _ => false) ≤ 0x20000 → (getFrame u q).bind popTile = some (tile, f) →
    let v := useLocal { u with free := u.free + freePerIssue } core 0x10000
    let tl : Tile := { queue := q, tile := tile, part := f.flushing, samples := initialSamples f tile u.free
                       todo := tilePrims f tile, pass := passNumber f }
    exec (.tileAssign q core t) s =
      .next (startBins (startLoad (putTile (modFrame v q fun _ => f) core tl) core q f tile) core q f tile)) ∧
  (∀ s core t tl f k x rest d, let u := tileAdvance (s.upTo t) core
    getTile u core = some tl → getFrame u tl.queue = some f → tl.quads = (k, x) :: rest → drawAt f k = some d →
    placeable u tl.queue = true → domOn u core = true →
    fits u core (graphicsNeed tl.queue (fieldAt d.state 0x90 1)) = true →
    let va := fieldAt d.state 0x88 6
    (∀ w, readArgs u tl.queue core va = .wait w → exec (.fragmentGroupLaunch core t) s = .next w) ∧
    (∀ bs, readArgs u tl.queue core va = .ready bs → bs.any Prod.snd = false → exec (.fragmentGroupLaunch core t) s =
      .next (useReads (launchQuads u core f tl d (nextQuads tl) (bs.map Prod.fst)) (.args tl.queue core)))) ∧
  (∀ s core t tl f, let u := tileAdvance (s.upTo t) core
    getTile u core = some tl → getFrame u tl.queue = some f → tl.listDone = false → tl.phase = .flush →
    tileAccesses u core = [] → exec (.tileFlushDone core t) s = .next (finishTile u core f tl)) ∧
  (∀ s q t f num, let u := s.upTo t
    getFrame u q = some f → f.endPkt = some num → f.rendering = true → f.flushing = false → f.todo = [] →
    noTiles u q = true →
    let v := binWrite (discardBins u q f) q f.statusVa (statusRecord f)
    let v := writePool (binWrite v q (f.pool + 0x14) (leBytes 4 f.taken)) q false
    (f.closing = false → exec (.frameEndComplete q t) s = .next (modFrame v q fun f => { f with closing := true })) ∧
    (f.closing = true → geomPending u q = [] →
      exec (.frameEndComplete q t) s = .next (completePkt { u with gfx := { u.gfx with
        frames := tblErase u.gfx.frames q, bound := if u.gfx.bound = some q then none else u.gfx.bound } } q num)))

/-- Transfer packets wait for their channel; reads return to the staging buffer; the completion pulse completes. It rests
on the model's own choices or readings of log entry 24. -/
def Obligations.TransfersAct : Prop :=
  (∀ row ty, (row, ty) ∈ [(Instr.xferCopy, 0x80), (Instr.xferCopy2d, 0x81), (Instr.xferFill, 0x82)] →
    ∀ s q t x, starting s q t ty anyBytes anyTime = some x →
    let o := xferOf x.s q x.p x.bytes
    xferBad o = false → xferRefused x.s o = none →
    let v := requestWake x.s 71
    exec (row q t) s = .next (useReads { v with xfer := { v.xfer with waiting := v.xfer.waiting ++ [o] } } (.queue q))) ∧
  (∀ s ch t, isOpen (s.upTo t) = true → timed (s.upTo t) = true →
    exec (.channelAcquire ch t) s = .next (takeChannel (s.upTo t) ch)) ∧
  (∀ s n bad t a line ch off o, let u := s.upTo t
    getAccess u n = some a → a.client = .xferRead line ch off → tblGet u.xfer.active ch = some o → u.lock.mode ≠ .halted →
    a.stage = .answered → servedChannel u (ch / 16) = some ch →
    let o : XferOp := { o with pieces := o.pieces ++ [(off, spoil bad (pieceOf o off a))] }
    let v := putXfer (removeAccess u n) (absorbPieces o o.pieces.length)
    exec (.xferReadReturn n bad t) s = .next (pumpXfer (beatServed v ch false) ch)) ∧
  (∀ s ch t o, let u := s.upTo t
    tblGet u.xfer.active ch = some o → u.lock.mode ≠ .halted → writesAtNi u ch = false → o.total ≤ o.written →
    exec (.xferCompletionPulse ch t) s =
      .next (completePkt { u with xfer := { u.xfer with active := tblErase u.xfer.active ch } } o.queue o.pkt))

/-- ERROR_RECORD_STORE stores the oldest detected record, ERR_ACK consumes, ERR_SEL moves the view. It rests on the
model's own choices or readings of log entries 18, 37, 49. -/
def Obligations.ErrorQueueCommandsAct : Prop :=
  (∀ s t r rest, let u := s.upTo t
    u.lock.mode ≠ .halted → u.err.detected = r :: rest →
    exec (.errorRecordStore t) s = .next (storeRecord (mordantOutput { u with err := { u.err with detected := rest } } 2) r)) ∧
  (∀ s fn value t, let u := s.upTo t
    barAnswers u fn = true → ((windowOf u fn).any fun r => r.seq == value.toNat) = true →
    let v : State := { u with err := { u.err with stored := consumeUpTo u fn value.toNat, sel := tblSet u.err.sel fn 0 } }
    exec (.errAck fn value t) s = .next ((turnedNow v).foldl (fun w e => retake w fn e) v) ∧
    (sameStep u u.err.turnedAt = false → exec (.errAck fn value t) s = .next v)) ∧
  (∀ s fn q e, e.1 = fn → (windowOf s fn).length < windowCap fn →
    let w : State := { s with err := { undrop s.err fn with turned := s.err.turned.erase e } }
    ((e.2.1.filter fun q => w.err.stored.any fun r => r.seq == q) = some q → retake s fn e = vectorEvent { w with err :=
      { w.err with stored := w.err.stored.map fun r => if r.seq = q then addWindow fn r else r } } fn 0) ∧
    ((e.2.1.filter fun q => w.err.stored.any fun r => r.seq == q) = none → retake s fn e = storeRecord w { e.2.2 with dest :=
      { t := e.2.2.dest.t && e.2.2.tenant == some fn, a := e.2.2.dest.a && fn == 0, b := e.2.2.dest.b && fn == 96 } })) ∧
  (∀ s fn value t, let u := s.upTo t
    barAnswers u fn = true →
    let v : State := { u with err := { u.err with sel := tblSet u.err.sel fn (fieldNat value 9 0) } }
    exec (.errSel fn value false t) s = .next v ∧
    (viewed v fn = none → exec (.errSel fn value true t) s = .next v) ∧
    ∀ r, viewed v fn = some r → exec (.errSel fn value true t) s = .next (damageRecord v r.seq))

/-- Self-test, alarm, mismatch, replay, checkpoint, Sepia entry completion and the watchdog act. It rests on the model's
own choices or readings of log entries 18, 51. -/
def Obligations.LockstepEventsAct : Prop :=
  (∀ s t, let u := s.upTo t
    pairRuns u = true → timed u = true → u.lock.replaying = false → selfTestDue u = true →
    exec (.comparatorSelftest true t) s = .next { u with lock := { u.lock with
      testToken := some (testToken u), selfPending := some u.stamp, selfLast := some u.stamp, selfCount := u.lock.selfCount + 1 } } ∧
    exec (.comparatorSelftest false t) s = .next (integrityFault u 0x000B)) ∧
  (∀ s t ti, let u := s.upTo t
    u.lock.selfPending = some ti →
    (u.stamp < ti + 20000 → exec (.selftestAlarm t) s = .next { u with lock := { u.lock with
      testToken := none, selfPending := none, selfPass := satAdd 32 u.lock.selfPass 1, lastAlarm := min (u.stamp - ti) 0xFFFF } }) ∧
    (timed u = true → ti + 20000 ≤ u.stamp → exec (.comparatorUnverified t) s =
      .next (integrityFault { u with lock := { u.lock with testToken := none, selfPending := none } } 0x000A))) ∧
  (∀ s iface a b t, let u := s.upTo t
    pairRuns u = true → iface < 6 → a ≠ b →
    (tokenGood a = true → tokenGood b = true →
      (u.lock.sinceReplay = false → exec (.lockstepMismatch (.tokens iface a b) t) s =
        .next (let v := pushRecord u (mordantRec u 0x0009 0)
          let clear := fun (y : TokenIface) => { y with outRegs := none :: y.outRegs.drop 1 }
          { v with lock := { v.lock with
            ifaces := v.lock.ifaces.modify iface clear
            withheld := (u.lock.ifaces.getD iface {}).outRegs.head?.join.toList
            replaying := true, sinceReplay := true, replays := satAdd 16 v.lock.replays 1 } })) ∧
      (u.lock.sinceReplay = true → exec (.lockstepMismatch (.tokens iface a b) t) s =
        .next (integrityFault { u with lock := { u.lock with replaying := false } } 0x0009))) ∧
    ((tokenGood a && tokenGood b) = false →
      exec (.lockstepMismatch (.tokens iface a b) t) s = .next (integrityFault u 0x000B))) ∧
  (∀ s t, let u := s.upTo t
    pairRuns u = true →
    exec (.lockstepMismatch .delayParity t) s = .next (integrityFault u 0x000B) ∧
    (u.lock.replaying = true →
      let v := integrityFault { u with lock := { u.lock with replaying := false } } 0x0009
      (∀ entry token, u.lock.log[entry]? = some token → exec (.lockstepMismatch (.replayDiffers entry token) t) s = .next u) ∧
      (∀ entry token y, u.lock.log[entry]? = some y → y ≠ token →
        exec (.lockstepMismatch (.replayDiffers entry token) t) s = .next v) ∧
      exec (.lockstepMismatch .checkpointLost t) s = .next v)) ∧
  (∀ s t, let u := s.upTo t
    exec (.replayComplete t) s = .next { u with
      lock := u.lock.withheld.foldl Lockstep.release { u.lock with replaying := false, withheld := [] } } ∧
    (u.lock.replaying = false → u.lock.mode ≠ .halted →
      exec (.mordantCheckpoint t) s = .next { u with lock := u.lock.checkpoint })) ∧
  (∀ s t e, let u := s.upTo t
    u.lock.entry = some e → u.forfeits = [] → inWarm u = false →
    exec (.sepiaEntryComplete t) s = .next (completeSepia u e)) ∧
  (∀ s t, let u := s.upTo t
    u.lock.mode = .aAlone → timed u = true →
    (t % 100000 = 0 → u.stamp = t →
      exec (.watchdogHeartbeat t) s = .next { u with lock := { u.lock with heartbeat := t } }) ∧
    (heldMoreThan (missedBeat u) u.stamp 1000000 = true →
      exec (.watchdogExpire t) s = .next { u with lock := { u.lock with mode := .halted } }))

/-- Private transfers, the IBI and the common command codes act on the I3C target alone. It rests on the model's own
choices or readings of log entries 33, 49. -/
def Obligations.I3cTransfersAct : Prop :=
  (∀ s p bs t, i3cAnswers (s.upTo t) = true → exec (.i3cPrivateWrite (p :: bs) t) s =
    .next (i3cPuts (modI3c (s.upTo t) fun i => { i with pointer := p }) none bs)) ∧
  (∀ s, i3cAnswers s = true →
    (∀ value, exec (.tempAlertWrite value) s = .next (modI3c s fun i =>
      { i with pointer := 0x86#8, tempAlert := value.toNat, tempArmed := true }))) ∧
  (∀ s value t, i3cAnswers (s.upTo t) = true → exec (.ibiPendClear value t) s = .next (modI3c
    (clearPend (modI3c (s.upTo t) fun i => { i with pointer := 0x82#8 }) value) fun i => { i with pointer := i.pointer + 1#8 })) ∧
  (∀ s value t, i3cAnswers (s.upTo t) = true → exec (.i3cWarmResetOrder value t) s = .next (modI3c
    (warmOrder (modI3c (s.upTo t) fun i => { i with pointer := 0x80#8 }) value) fun i => { i with pointer := i.pointer + 1#8 })) ∧
  (∀ s len t, let u := s.upTo t
    i3cAnswers u = true → exec (.i3cPrivateRead len t) s = .next (emit
      (modI3c u fun i => { i with pointer := i.pointer + BitVec.ofNat 8 len })
      (.i3c ((List.range len).map fun k => i3cByte u ((u.i3c.pointer.toNat + k) % 256))))) ∧
  (∀ s b, s.i3c.request = some b → exec .ibiAccept s =
    .next (emit (modI3c s fun i => { i with request := none, accepted := some b }) (.i3c [b]))) ∧
  (∀ s, s.i3c.serving = true →
    exec .enec s = .next (ibiRequest (modI3c s fun i => { i with eventsEnabled := true })) ∧
    exec .disec s = .next (ibiRequest (modI3c s fun i => { i with eventsEnabled := false })) ∧
    exec .rstdaa s = .next (ibiRequest (modI3c s fun i => { i with dynAddr := none })) ∧
    (s.i3c.dynAddr = none → ∀ addr,
      exec (.entdaa addr) s = .next (emit (takeAddress s addr) (.i3c (pidBytes ++ [bcrByte, dcrByte]))) ∧
      exec (.setdasa addr) s = .next (takeAddress s addr))) ∧
  (∀ s, i3cAnswers s = true →
    exec .getpid s = .next (emit s (.i3c [0x06#8, 0x96#8, 0x48#8, 0x60#8, 0x00#8, 0x00#8])) ∧
    exec .getbcr s = .next (emit s (.i3c [0x06#8])) ∧ exec .getdcr s = .next (emit s (.i3c [0x00#8])) ∧
    ∃ v bytes, exec .getstatus s = .next v ∧ bytes.length = 2 ∧ v = { emit s (.i3c bytes) with free := s.free + 1 })

/-- The boundary-scan instructions, the trace buffer and the fuses act; JTAG_LOCK makes the private ones BYPASS. It rests
on the model's own choices or readings of log entry 34. -/
def Obligations.TapCommandsAct : Prop :=
  (∀ s captured levels,
    (s.life.pins.resetN = false → exec (.extest captured levels) s =
      .next (modTap (scanOut (selectInstr s .extest .boundary) captured) fun j => { j with boundary := levels })) ∧
    (s.life.pins.resetN = true → exec (.extest captured levels) s = .next (bypassScan (selectInstr s .extest .system))) ∧
    exec (.samplePreload captured levels) s =
      .next (modTap (scanOut (selectInstr s .samplePreload .system) captured) fun j => { j with boundary := levels })) ∧
  (∀ s, exec .idcode s = .next (scanOut (selectInstr s .idcode .system) (scanBits 32 Config.idcode.toNat)) ∧
    exec .bypass s = .next (bypassScan (selectInstr s .bypass .system)) ∧
    exec .clamp s =
      .next (bypassScan (selectInstr s .clamp (if s.life.pins.resetN then .system else .boundary))) ∧
    exec .highz s = .next (bypassScan (selectInstr s .highz (if s.life.pins.resetN then .system else .highz))) ∧
    exec .tapReset s = .next (modTap (selectInstr s .idcode .system) fun j => { j with dapCtrl := 0#16 })) ∧
  (∀ s, s.fuses.jtagLock = false →
    (s.jtag.trace = [] → exec .dapAccess s = .next (scanOut (selectInstr s .dapAccess .system) (scanBits 128 0))) ∧
    (∀ r rest, s.jtag.trace = r :: rest → exec .dapAccess s = .next (scanOut
      (modTap (selectInstr s .dapAccess .system) fun j => { j with trace := rest }) (traceBits r))) ∧
    (∀ value, exec (.dapCtrl value) s = .next (modTap
      (scanOut (selectInstr s .dapCtrl .system) (scanBits 16 s.jtag.dapCtrl.toNat)) fun j =>
        { j with dapCtrl := value, trace := if value.getLsbD 9 then [] else j.trace })) ∧
    (∀ value, s.life.pins.resetN = false → s.fuses.blowing = none → (value.getLsbD 0 || value.getLsbD 1) = true →
      exec (.fuseProg value true) s = .next (let v := selectInstr s .fuseProg .system
        { v with fuses := { v.fuses with blowing := some (value.getLsbD 0, value.getLsbD 1) } }))) ∧
  (∀ s value vpp, s.fuses.jtagLock = true →
    exec .dapAccess s = .next (bypassScan (selectInstr s .dapAccess .system)) ∧
    exec (.dapCtrl value) s = .next (bypassScan (selectInstr s .dapCtrl .system)) ∧
    ∀ w, exec (.fuseProg w vpp) s = .next (bypassScan (selectInstr s .fuseProg .system))) ∧
  (∀ s verified ecc lock, s.fuses.blowing = some (ecc, lock) →
    exec (.fuseBlowDone verified) s = .next { s with fuses := {
      inlineEcc := s.fuses.inlineEcc || (ecc && verified.getLsbD 0)
      jtagLock := s.fuses.jtagLock || (lock && verified.getLsbD 1)
      progFail := (ecc && !(verified.getLsbD 0 || s.fuses.inlineEcc)) || (lock && !(verified.getLsbD 1 || s.fuses.jtagLock))
      blowing := none } }) ∧
  (∀ s vpp, exec (.fuseRead vpp) s = .next (scanOut (selectInstr s .fuseRead .system)
    [s.fuses.inlineEcc, s.fuses.jtagLock, vpp, s.fuses.progFail, false, false, false, false]))
end

