-- ==== Sys2Proof/Laws/Commands.lean ====
section
/-!
SUPPORT. What serving a mailbox command does, said once: it starts, is refused, or goes on.
-/

namespace Sys2Proof.Laws

open Machine

/-- A command that starts runs its row's body from the started state. -/
theorem mbxRow_of_serving {u : State} {k : SlotId} {code : Nat} {mine : List Word → Bool}
    {causes : State → SlotId → List Word → List Nat} (h : serving u k code mine causes = true)
    (run resume : State → SlotId → List Word → State) :
    mbxRow u k code mine causes run resume = run (markStarted u k) k (getSlot u k).cmd := by
  unfold serving at h
  unfold mbxRow
  grind

/-- A command in progress goes on. -/
theorem mbxRow_of_started {u : State} {k : SlotId} {code : Nat} {mine : List Word → Bool}
    (h1 : (getSlot u k).st = .busy) (h2 : cmdCode (getSlot u k).cmd = code) (h3 : mine (getSlot u k).cmd = true)
    (h4 : takesCommands u = true) (h5 : (getSlot u k).started = true)
    (causes : State → SlotId → List Word → List Nat) (run resume : State → SlotId → List Word → State) :
    mbxRow u k code mine causes run resume = resume u k (getSlot u k).cmd := by
  simp [mbxRow, h1, h2, h3, h4, h5]

/-- A command that a cause refuses changes its slot alone, with the lowest cause. -/
theorem mbxRow_of_cause {u : State} {k : SlotId} {code c : Nat} {mine : List Word → Bool}
    {causes : State → SlotId → List Word → List Nat}
    (h1 : (getSlot u k).st = .busy) (h2 : cmdCode (getSlot u k).cmd = code) (h3 : mine (getSlot u k).cmd = true)
    (h4 : takesCommands u = true) (h5 : (getSlot u k).started = false) (h6 : startable u k = true)
    (h7 : leastNat (commonCauses u k (getSlot u k).cmd ++ causes u k (getSlot u k).cmd) = some c)
    (run resume : State → SlotId → List Word → State) : mbxRow u k code mine causes run resume = slotRefuse u k c := by
  simp [mbxRow, h1, h2, h3, h4, h5, h6, h7]

end Sys2Proof.Laws
end

