-- ==== Sys2Proof/Laws/Issue.lean ====
section
/-!
SUPPORT. What issuing an instruction does, said once: the laws that statements about shader and Madder instructions cite.
-/

namespace Sys2Proof.Laws

open Machine

/-- An instruction that issues runs its body from the issued state. -/
theorem issue_of_issuing {s : State} {slot : Nat} {w : Insn} {t : Stamp} {mine : Nat → Bool} {x : Issued}
    (h : issuing s slot w t mine = some x) (body : Body) (bad : State → Nat → Group → IWord → Option Nat)
    (hb : ∀ g, getGroup (s.upTo t) slot = some g → bad (s.upTo t) slot g (iword w) = none) :
    issue slot w t s mine body bad = .next (body x.s slot x.g x.iw x.pc x.active x.fr) := by
  cases hg : getGroup (s.upTo t) slot with
  | none => simp [issuing, hg] at h
  | some g =>
    cases hp : groupPc g with
    | none => simp [issuing, hg, hp] at h
    | some pc =>
      have hn := hb g hg
      simp only [issuing, issue, hg, hp] at h ⊢
      grind [runBody]

/-- A row that only changes registers answers the group that its function gives. -/
theorem groupRow_of_issuing {s : State} {slot : Nat} {w : Insn} {t : Stamp} {op : Nat} {x : Issued}
    (h : issuing s slot w t (· == op) = some x) (f : Group → IWord → List Nat → Nat → Group) :
    groupRow slot w t s op f = .next (x.next slot (f x.g x.iw x.lanes x.fr)) :=
  issue_of_issuing h _ _ (by intros; rfl)

/-- A global access that reaches the fabric sends its requests and changes the group. -/
theorem globalAccess_of_reaches {x : Issued} {slot : Nat} {need : AccessNeed} {width : Nat} {lanes : List (Nat × Nat)}
    (h : x.reaches slot need width lanes = true) (w : Insn) (fr : Nat) (client : Client)
    (mk : Home → Nat → List (Nat × Nat) → List AccKind) (after : Group → Group) :
    globalAccess x.s slot x.g w x.pc x.active fr client need width lanes mk after =
      putGroup ((orderedAfter x.s.traffic.nextAccess (earlierOf x.s slot x.g ((iword w).op == 0x52) width · lanes)
        (requests x.s x.g client need width lanes mk)).foldl enterFabric x.s) slot (after x.fenced) := by
  unfold Issued.reaches at h
  unfold globalAccess Issued.fenced
  grind

end Sys2Proof.Laws
end

