-- ==== Sys2Proof/Laws/Kept.lean ====
section
/-!
SUPPORT. What it means that an operation keeps the queue of commands, the fuses and the LPDDR cells, and how that follows
through conditionals, folds and optional answers. Only LPDDR_WRITE_BACK and a power-on reset change the cells, and only
FUSE_PROG and FUSE_BLOW_DONE the fuses.
-/

namespace Sys2Proof.Laws

open Machine

/-- An operation leaves the queue of commands, the fuses and the LPDDR cells as they were. -/
structure Kept (s s' : State) : Prop where
  pending : s'.pending = s.pending
  fuses : s'.fuses = s.fuses
  cells : s'.lpddr.cells = s.lpddr.cells

theorem Kept.refl (s : State) : Kept s s := ⟨rfl, rfl, rfl⟩

theorem Kept.trans {a b c : State} (h : Kept a b) (k : Kept b c) : Kept a c :=
  ⟨k.1.trans h.1, k.2.trans h.2, k.3.trans h.3⟩

theorem foldl_kept {α : Type} {g : State → α → State} {s0 : State} (h : ∀ s a, Kept s0 s → Kept s0 (g s a)) (l :
    List α) (s : State)
    (h0 : Kept s0 s) : Kept s0 (l.foldl g s) := by
  induction l generalizing s with
  | nil => exact h0
  | cons a l ih => exact ih _ (h s a h0)

theorem foldl_kept1 {α β : Type} {g : State × β → α → State × β} {s0 : State} (h : ∀ s a, Kept s0 s.1 → Kept s0
    (g s a).1)
    (l : List α) (s : State × β) (h0 : Kept s0 s.1) : Kept s0 (l.foldl g s).1 := by
  induction l generalizing s with
  | nil => exact h0
  | cons a l ih => exact ih _ (h s a h0)

/-- The three kept fields, taken apart. -/
def Parts (s : State) (p : List Instr) (f : Fuses) (c : List Host.Cell) :
    Prop := p = s.pending ∧ f = s.fuses ∧ c = s.lpddr.cells

theorem kept_mk {s : State} {x_pending : List Instr} {x_fuses : Fuses} {x_life : Life} {x_metro : Metro} {x_gov : Gov}
    {x_power : Power} {x_portA : Port} {x_portB : Port} {x_fns : List (Nat × Fn)} {x_slots : List (SlotId × Slot)}
    {x_alloc : Alloc} {x_ctxs : List (CtxId × Ctx)} {x_queues : List (QueueId × Queue)} {x_lpddr : Lpddr} {x_vat :
    Vat} {x_fabric : Fabric} {x_traffic : Traffic} {x_err : ErrQueue} {x_forfeits : List Forfeit} {x_lock : Lockstep}
    {x_cores : Cores} {x_madders : Madders} {x_gfx : Gfx} {x_xfer : Xfer} {x_compose : Option ComposeOp} {x_sensors :
    Sensors} {x_i3c : I3c} {x_jtag : Jtag} {x_out : List OutEvent} {x_free : Nat} :
    Kept s (State.mk x_pending x_life x_metro x_gov x_power x_portA x_portB x_fns x_slots x_alloc x_ctxs x_queues
    x_lpddr x_vat x_fabric x_traffic x_err x_forfeits x_lock x_cores x_madders x_gfx x_xfer x_compose x_sensors x_i3c
    x_jtag x_fuses x_out x_free) ↔ Parts s x_pending x_fuses x_lpddr.cells :=
  ⟨fun h => ⟨h.1, h.2, h.3⟩, fun h => ⟨h.1, h.2.1, h.2.2⟩⟩

theorem Kept.conj {s x : State} (h : Kept s x) :
    Parts s x.pending x.fuses x.lpddr.cells := ⟨h.1, h.2, h.3⟩

/-- Whatever next state a command answers, the three fields are kept. -/
def KeptOut (s : State) (o : Host.Outcome State Fault Refusal) : Prop := ∀ v, o = .next v → Kept s v

theorem KeptOut.next {s v : State} (h : Kept s v) : KeptOut s (.next v) := fun w e => by cases e; exact h

theorem KeptOut.fault {s : State} {f} : KeptOut s (.fault f) := fun w e => by cases e

/-- Whatever state an optional answer holds, the three fields are kept. -/
def KeptOpt (s : State) (o : Option State) : Prop := ∀ v, o = some v → Kept s v

theorem KeptOpt.some {s v : State} (h : Kept s v) : KeptOpt s (some v) := fun w e => by cases e; exact h

theorem KeptOpt.get {s v : State} {o : Option State} (h : KeptOpt s o) (e : o = Option.some v) : Kept s v := h v e

theorem KeptOpt.none {s : State} : KeptOpt s none := fun w e => by cases e

/-- The same of an optional state with a result. -/
def KeptOpt1 {α : Type} (s : State) (o : Option (State × α)) : Prop := ∀ v a, o = some (v, a) → Kept s v

theorem KeptOpt1.some {α : Type} {s v : State} {a : α} (h : Kept s v) : KeptOpt1 s (some
    (v, a)) := fun w b e => by cases e; exact h

theorem KeptOpt1.none {α : Type} {s : State} : KeptOpt1 (α := α) s none := fun w b e => by cases e

/-- The same of an optional result with a state. -/
def KeptOpt2 {α : Type} (s : State) (o : Option (α × State)) : Prop := ∀ v a, o = some (a, v) → Kept s v

theorem KeptOpt2.some {α : Type} {s v : State} {a : α} (h : Kept s v) : KeptOpt2 s (some
    (a, v)) := fun w b e => by cases e; exact h

theorem KeptOpt2.none {α : Type} {s : State} : KeptOpt2 (α := α) s none := fun w b e => by cases e

theorem Kept.ite {s a b : State} {c : Prop} [Decidable c] (h : Kept s a) (k : Kept s b) : Kept s
    (if c then a else b) := by
  split <;> assumption

theorem KeptOut.ite {s : State} {a b : Host.Outcome State Fault Refusal} {c : Prop} [Decidable c] (h : KeptOut s a)
    (k : KeptOut s b) :
    KeptOut s (if c then a else b) := by
  split <;> assumption

theorem KeptOpt.map {α : Type} {s : State} {g : α → State} {o : Option α} (h : ∀ a, Kept s (g a)) : KeptOpt s
    (o.map g) := by
  intro v e; cases o <;> simp at e; exact e ▸ h _

theorem KeptOpt1.map {α β : Type} {s : State} {g : α → State × β} {o : Option α} (h : ∀ a, Kept s (g a).1) :
    KeptOpt1 s (o.map g) := by
  intro v b e; cases o <;> simp at e; have k := h (by assumption); rw [e] at k; exact k

theorem KeptOpt2.map {α β : Type} {s : State} {g : α → β × State} {o : Option α} (h : ∀ a, Kept s (g a).2) :
    KeptOpt2 s (o.map g) := by
  intro v b e; cases o <;> simp at e; have k := h (by assumption); rw [e] at k; exact k

end Sys2Proof.Laws
end

