-- ==== Sys2Proof/Laws/KeptOps.lean ====
section
/-!
SUPPORT. Every operation of the shared operations keeps the queue of commands, the fuses and the LPDDR cells, each lemma
for a state that another state leads to.
-/

namespace Sys2Proof.Laws

open Machine

theorem setFn_kept (s : State) (fn : Nat) (f : Fn) {s0 : State} (h0 : Kept s0 s) :
    Kept s0 (setFn s fn f) := by
  unfold setFn
  repeat' first | with_reducible assumption | (simp only [kept_mk]; with_reducible apply Kept.conj)

theorem modFn_kept (s : State) (fn : Nat) (g : Fn → Fn) {s0 : State} (h0 : Kept s0 s) :
    Kept s0 (modFn s fn g) := by
  unfold modFn
  repeat' first | with_reducible assumption | with_reducible apply setFn_kept

theorem setPort_kept (s : State) (x0 : PortId) (x1 : Port) {s0 : State} (h0 : Kept s0 s) :
    Kept s0 (setPort s x0 x1) := by
  unfold setPort
  repeat' first | with_reducible assumption | (simp only [kept_mk]; with_reducible apply Kept.conj) | split

theorem modPort_kept (s : State) (p : PortId) (g : Port → Port) {s0 : State} (h0 : Kept s0 s) :
    Kept s0 (modPort s p g) := by
  unfold modPort
  repeat' first | with_reducible assumption | with_reducible apply setPort_kept

theorem State_upTo_kept (s : State) (t : Stamp) {s0 : State} (h0 : Kept s0 s) :
    Kept s0 (State.upTo s t) := by
  unfold State.upTo
  repeat' first | with_reducible assumption | (simp only [kept_mk]; with_reducible apply Kept.conj)

theorem countExtra_kept (s : State) (k : Nat) {s0 : State} (h0 : Kept s0 s) :
    Kept s0 (countExtra s k) := by
  unfold countExtra
  repeat' first | with_reducible assumption | (simp only [kept_mk]; with_reducible apply Kept.conj)

theorem mordantInput_kept (s : State) (iface : Nat) {s0 : State} (h0 : Kept s0 s) :
    Kept s0 (mordantInput s iface) := by
  unfold mordantInput
  repeat' first | with_reducible assumption | (simp only [kept_mk]; with_reducible apply Kept.conj)

theorem mordantOutput_kept (s : State) (iface : Nat) {s0 : State} (h0 : Kept s0 s) :
    Kept s0 (mordantOutput s iface) := by
  unfold mordantOutput
  repeat' first | with_reducible assumption | (simp only [kept_mk]; with_reducible apply Kept.conj)

theorem mordantIdle_kept (s : State) {s0 : State} (h0 : Kept s0 s) :
    Kept s0 (mordantIdle s) := by
  unfold mordantIdle
  repeat' first | with_reducible assumption | (simp only [kept_mk]; with_reducible apply Kept.conj)

theorem takeCheckpoint_kept (s : State) {s0 : State} (h0 : Kept s0 s) :
    Kept s0 (takeCheckpoint s) := by
  unfold takeCheckpoint
  repeat' first
    | with_reducible assumption | with_reducible apply Kept.ite
    | (simp only [kept_mk]; with_reducible apply Kept.conj)

theorem pushRecord_kept (s : State) (r : ErrRec) {s0 : State} (h0 : Kept s0 s) :
    Kept s0 (pushRecord s r) := by
  unfold pushRecord
  repeat' first
    | with_reducible assumption | with_reducible apply mordantInput_kept
    | (simp only [kept_mk]; with_reducible apply Kept.conj)

theorem detect_kept (s : State) (r : ErrRec) {s0 : State} (h0 : Kept s0 s) :
    Kept s0 (detect s r) := by
  unfold detect
  repeat' first
    | with_reducible assumption | with_reducible apply countExtra_kept | with_reducible apply pushRecord_kept
    | split

theorem emit_kept (s : State) (e : OutEvent) {s0 : State} (h0 : Kept s0 s) :
    Kept s0 (emit s e) := by
  unfold emit
  repeat' first | with_reducible assumption | (simp only [kept_mk]; with_reducible apply Kept.conj)

theorem aer_kept (s : State) (fn : Nat) (k : AerKind) {s0 : State} (h0 : Kept s0 s) :
    Kept s0 (aer s fn k) := by
  unfold aer
  repeat' first
    | with_reducible assumption | with_reducible apply emit_kept | with_reducible apply modFn_kept | split
    | dsimp only

theorem sendVector_kept (s : State) (fn v : Nat) {s0 : State} (h0 : Kept s0 s) :
    Kept s0 (sendVector s fn v) := by
  unfold sendVector
  repeat' first | with_reducible assumption | with_reducible apply emit_kept

theorem vectorEvent_kept (s : State) (fn v : Nat) {s0 : State} (h0 : Kept s0 s) :
    Kept s0 (vectorEvent s fn v) := by
  unfold vectorEvent
  repeat' first
    | with_reducible assumption | with_reducible apply Kept.ite | with_reducible apply sendVector_kept
    | with_reducible apply setFn_kept

theorem sendPending_kept (s : State) (fn : Nat) {s0 : State} (h0 : Kept s0 s) :
    Kept s0 (sendPending s fn) := by
  unfold sendPending
  repeat' first
    | with_reducible intro _ | with_reducible assumption | with_reducible apply Kept.ite
    | with_reducible apply sendVector_kept | with_reducible apply setFn_kept | with_reducible apply foldl_kept

theorem flushVectors_kept (s : State) {s0 : State} (h0 : Kept s0 s) :
    Kept s0 (flushVectors s) := by
  unfold flushVectors
  repeat' first
    | with_reducible intro _ | with_reducible assumption | with_reducible apply sendPending_kept
    | with_reducible apply foldl_kept

theorem ibiRequest_kept (s : State) {s0 : State} (h0 : Kept s0 s) :
    Kept s0 (ibiRequest s) := by
  unfold ibiRequest
  repeat' first
    | with_reducible assumption | with_reducible apply Kept.ite
    | (simp only [kept_mk]; with_reducible apply Kept.conj) | split

theorem ibiCause_kept (s : State) (bit : Nat) {s0 : State} (h0 : Kept s0 s) :
    Kept s0 (ibiCause s bit) := by
  unfold ibiCause
  repeat' first
    | with_reducible assumption | with_reducible apply ibiRequest_kept
    | (simp only [kept_mk]; with_reducible apply Kept.conj)

theorem faultEdge_kept (before after : State) {s0 : State} (h0 : Kept s0 after) :
    Kept s0 (faultEdge before after) := by
  unfold faultEdge
  repeat' first | with_reducible assumption | with_reducible apply Kept.ite | with_reducible apply ibiCause_kept

theorem setSlot_kept (s : State) (k : SlotId) (v : Slot) {s0 : State} (h0 : Kept s0 s) :
    Kept s0 (setSlot s k v) := by
  unfold setSlot
  repeat' first | with_reducible assumption | (simp only [kept_mk]; with_reducible apply Kept.conj)

theorem slotNotify_kept (s : State) (k : SlotId) {s0 : State} (h0 : Kept s0 s) :
    Kept s0 (slotNotify s k) := by
  unfold slotNotify
  repeat' first | with_reducible assumption | with_reducible apply Kept.ite | with_reducible apply vectorEvent_kept

theorem slotOutput_kept (s : State) {s0 : State} (h0 : Kept s0 s) :
    Kept s0 (slotOutput s) := by
  unfold slotOutput
  repeat' first
    | with_reducible assumption | with_reducible apply mordantOutput_kept | with_reducible apply takeCheckpoint_kept

theorem slotDone_kept (s : State) (k : SlotId) (res : List Word) {s0 : State} (h0 : Kept s0 s) :
    Kept s0 (slotDone s k res) := by
  unfold slotDone
  repeat' first
    | with_reducible assumption | with_reducible apply Kept.ite | with_reducible apply slotNotify_kept
    | with_reducible apply slotOutput_kept | with_reducible apply setSlot_kept

theorem slotRefuse_kept (s : State) (k : SlotId) (cause : Nat) {s0 : State} (h0 : Kept s0 s) :
    Kept s0 (slotRefuse s k cause) := by
  unfold slotRefuse
  repeat' first
    | with_reducible assumption | with_reducible apply Kept.ite | with_reducible apply slotNotify_kept
    | with_reducible apply slotOutput_kept | with_reducible apply setSlot_kept

theorem slotFinish_kept (s : State) (k : SlotId) (seq : Word) (res : List Word) {s0 : State} (h0 : Kept s0 s) :
    Kept s0 (slotFinish s k seq res) := by
  unfold slotFinish
  repeat' first | with_reducible assumption | with_reducible apply Kept.ite | with_reducible apply slotDone_kept

theorem modCtx_kept (s : State) (c : CtxId) (g : Ctx → Ctx) {s0 : State} (h0 : Kept s0 s) :
    Kept s0 (modCtx s c g) := by
  unfold modCtx
  repeat' first | with_reducible assumption | (simp only [kept_mk]; with_reducible apply Kept.conj)

theorem modQueue_kept (s : State) (q : QueueId) (g : Queue → Queue) {s0 : State} (h0 : Kept s0 s) :
    Kept s0 (modQueue s q g) := by
  unfold modQueue
  repeat' first | with_reducible assumption | (simp only [kept_mk]; with_reducible apply Kept.conj)

theorem modDom_kept (s : State) (d : Nat) (g : Domain → Domain) {s0 : State} (h0 : Kept s0 s) :
    Kept s0 (modDom s d g) := by
  unfold modDom
  repeat' first | with_reducible assumption | (simp only [kept_mk]; with_reducible apply Kept.conj)

theorem requestWake_kept (s : State) (d : Nat) {s0 : State} (h0 : Kept s0 s) :
    Kept s0 (requestWake s d) := by
  unfold requestWake
  repeat' first | with_reducible assumption | with_reducible apply Kept.ite | with_reducible apply modDom_kept

theorem sendWriteBack_kept (s : State) (w : WriteBack) {s0 : State} (h0 : Kept s0 s) :
    Kept s0 (sendWriteBack s w) := by
  unfold sendWriteBack
  repeat' first | with_reducible assumption | (simp only [kept_mk]; with_reducible apply Kept.conj)

theorem setLine_kept (s : State) (ln : Line) {s0 : State} (h0 : Kept s0 s) :
    Kept s0 (setLine s ln) := by
  unfold setLine
  repeat' first | with_reducible assumption | (simp only [kept_mk]; with_reducible apply Kept.conj)

theorem dropLine_kept (s : State) (ln : Line) {s0 : State} (h0 : Kept s0 s) :
    Kept s0 (dropLine s ln) := by
  unfold dropLine
  repeat' first | with_reducible assumption | (simp only [kept_mk]; with_reducible apply Kept.conj)

theorem writeBackLine_kept (s : State) (ln : Line) (pri : Nat) {s0 : State} (h0 : Kept s0 s) :
    Kept s0 (writeBackLine s ln pri) := by
  unfold writeBackLine
  repeat' first
    | with_reducible intro _ | with_reducible assumption | with_reducible apply Kept.ite
    | with_reducible apply sendWriteBack_kept | with_reducible apply foldl_kept

theorem evictLine_kept (s : State) (ln : Line) (pri : Nat) {s0 : State} (h0 : Kept s0 s) :
    Kept s0 (evictLine s ln pri) := by
  unfold evictLine
  repeat' first
    | with_reducible assumption | with_reducible apply dropLine_kept | with_reducible apply writeBackLine_kept

theorem touchLine_kept (s : State) (ln : Line) {s0 : State} (h0 : Kept s0 s) :
    Kept s0 (touchLine s ln) := by
  unfold touchLine
  repeat' first | with_reducible assumption | (simp only [kept_mk]; with_reducible apply Kept.conj)

theorem allocLine_kept (s : State) (pa : Nat) (k : Asker) {s0 : State} (h0 : Kept s0 s) :
    KeptOpt1 s0 (allocLine s pa k) := by
  unfold allocLine
  repeat' first
    | with_reducible intro _ | with_reducible assumption | with_reducible apply evictLine_kept
    | with_reducible apply touchLine_kept | (simp only [kept_mk]; with_reducible apply Kept.conj)
    | with_reducible apply KeptOpt1.map | split

theorem allocLine_kept_eq {s : State} {pa : Nat} {k : Asker} {s0 sv : State} {r : Line} (hEq : allocLine s pa k = some
    (sv, r)) (h0 : Kept s0 s) : Kept s0 sv :=
  allocLine_kept s pa k h0 _ _ hEq

theorem storeLine_kept (s : State) (pa : Nat) (asker : Asker) (bytes : List (Nat × Byte)) (poison stream : Bool) {s0 :
    State} (h0 : Kept s0 s) :
    Kept s0 (storeLine s pa asker bytes poison stream) := by
  unfold storeLine
  repeat' first
    | with_reducible intro _ | with_reducible assumption | with_reducible apply Kept.ite
    | (rename_i hEq; split at hEq) | (rename_i hEq; cases hEq; done) | with_reducible apply setLine_kept
    | with_reducible apply sendWriteBack_kept | with_reducible apply touchLine_kept
    | with_reducible refine allocLine_kept_eq (by assumption) ?_ | with_reducible apply foldl_kept | split

theorem segWrite_kept (s : State) (addr : Nat) (d : Sector) (mask : BitVec 32) (poison : Bool) {s0 : State} (h0 :
    Kept s0 s) :
    Kept s0 (segWrite s addr d mask poison) := by
  unfold segWrite
  repeat' first | with_reducible assumption | (simp only [kept_mk]; with_reducible apply Kept.conj)

theorem storeSeg_kept (s : State) (addr : Nat) (bytes : List (Nat × Byte)) (poison : Bool) {s0 : State} (h0 :
    Kept s0 s) :
    Kept s0 (storeSeg s addr bytes poison) := by
  unfold storeSeg
  repeat' first
    | with_reducible intro _ | with_reducible assumption | with_reducible apply Kept.ite
    | with_reducible apply segWrite_kept | with_reducible apply foldl_kept

theorem noteOld_kept (s : State) (h : Home) (owner : Nat) (bytes : List (Nat × Byte)) {s0 : State} (h0 : Kept s0 s) :
    Kept s0 (noteOld s h owner bytes) := by
  unfold noteOld
  repeat' first | with_reducible assumption | (simp only [kept_mk]; with_reducible apply Kept.conj)

theorem freeLru_kept (s : State) {s0 : State} (h0 : Kept s0 s) :
    Kept s0 (freeLru s).2 := by
  unfold freeLru
  repeat' first | with_reducible assumption | (simp only [kept_mk]; with_reducible apply Kept.conj)

theorem freeLru_kept_eq {s : State} {s0 sv : State} {r : Nat} (hEq : freeLru s = (r, sv)) (h0 : Kept s0 s) :
    Kept s0 sv := by
  have k := freeLru_kept s h0
  rw [hEq] at k
  exact k

theorem wipeTable_kept (s : State) (page : Nat) {s0 : State} (h0 : Kept s0 s) :
    Kept s0 (wipeTable s page) := by
  unfold wipeTable
  repeat' first | with_reducible assumption | (simp only [kept_mk]; with_reducible apply Kept.conj)

theorem addTable_kept (s : State) (c : CtxId) (key : Nat × Nat) {s0 : State} (h0 : Kept s0 s) :
    Kept s0 (addTable s c key) := by
  unfold addTable
  repeat' first
    | with_reducible assumption | with_reducible apply Kept.ite | with_reducible apply wipeTable_kept
    | with_reducible apply modCtx_kept

theorem noteWaits_kept (s : State) (h : Home) (bytes : List (Nat × Byte)) {s0 : State} (h0 : Kept s0 s) :
    Kept s0 (noteWaits s h bytes) := by
  unfold noteWaits
  repeat' first | with_reducible assumption | (simp only [kept_mk]; with_reducible apply Kept.conj)

theorem noteWrite_kept (s : State) (h : Home) (owner : Nat) (bytes : List (Nat × Byte)) {s0 : State} (h0 : Kept s0 s) :
    Kept s0 (noteWrite s h owner bytes) := by
  unfold noteWrite
  repeat' first
    | with_reducible assumption | with_reducible apply noteOld_kept | with_reducible apply noteWaits_kept

theorem homeWrite_kept (s : State) (h : Home) (k : Asker) (bytes : List (Nat × Byte)) (poison : Bool) {s0 : State}
    (h0 : Kept s0 s) :
    Kept s0 (homeWrite s h k bytes poison) := by
  unfold homeWrite
  repeat' first
    | with_reducible assumption | with_reducible apply storeLine_kept | with_reducible apply noteWrite_kept
    | with_reducible apply storeSeg_kept | split

theorem countBytes_kept (s : State) (c : CtxId) (h : Home) (shared write : Bool) (sectors : Nat) {s0 : State} (h0 :
    Kept s0 s) :
    Kept s0 (countBytes s c h shared write sectors) := by
  unfold countBytes
  repeat' first | with_reducible assumption | with_reducible apply modCtx_kept

theorem chargeUngated_kept (s : State) (part : Option Nat) (k : Nat) {s0 : State} (h0 : Kept s0 s) :
    Kept s0 (chargeUngated s part k) := by
  unfold chargeUngated
  repeat' first
    | with_reducible assumption | with_reducible apply Kept.ite
    | (simp only [kept_mk]; with_reducible apply Kept.conj) | split

theorem stopAccesses_kept (s : State) (p : Access → Bool) {s0 : State} (h0 : Kept s0 s) :
    Kept s0 (stopAccesses s p) := by
  unfold stopAccesses
  repeat' first | with_reducible assumption | (simp only [kept_mk]; with_reducible apply Kept.conj)

theorem dropWait_kept (s : State) (q : QueueId) {s0 : State} (h0 : Kept s0 s) :
    Kept s0 (dropWait s q) := by
  unfold dropWait
  repeat' first | with_reducible assumption | with_reducible apply stopAccesses_kept

theorem afterWrites_kept (s : State) (fn v : Nat) {s0 : State} (h0 : Kept s0 s) :
    Kept s0 (afterWrites s fn v) := by
  unfold afterWrites
  repeat' first | with_reducible assumption | with_reducible apply Kept.ite | with_reducible apply modFn_kept

theorem queueEvent_kept (s : State) (q : QueueId) {s0 : State} (h0 : Kept s0 s) :
    Kept s0 (queueEvent s q) := by
  unfold queueEvent
  repeat' first
    | with_reducible assumption | with_reducible apply Kept.ite | with_reducible apply afterWrites_kept
    | with_reducible apply vectorEvent_kept | split

theorem countSubmission_kept (s : State) (q : QueueId) (met : Bool) {s0 : State} (h0 : Kept s0 s) :
    Kept s0 (countSubmission s q met) := by
  unfold countSubmission
  repeat' first | with_reducible assumption | with_reducible apply modCtx_kept

theorem declareMiss_kept (s : State) (q : QueueId) {s0 : State} (h0 : Kept s0 s) :
    Kept s0 (declareMiss s q) := by
  unfold declareMiss
  repeat' first
    | with_reducible assumption | with_reducible apply countSubmission_kept | with_reducible apply queueEvent_kept
    | with_reducible apply modQueue_kept

theorem closeSubmission_kept (s : State) (q : QueueId) {s0 : State} (h0 : Kept s0 s) :
    Kept s0 (closeSubmission s q) := by
  unfold closeSubmission
  repeat' first
    | with_reducible assumption | with_reducible apply Kept.ite | with_reducible apply queueEvent_kept
    | with_reducible apply countSubmission_kept | with_reducible apply modQueue_kept | split

theorem settleQueue_kept (s : State) (q : QueueId) {s0 : State} (h0 : Kept s0 s) :
    Kept s0 (settleQueue s q) := by
  unfold settleQueue
  repeat' first
    | with_reducible assumption | with_reducible apply modQueue_kept | with_reducible apply closeSubmission_kept

theorem enterError_kept (s : State) (q : QueueId) {s0 : State} (h0 : Kept s0 s) :
    Kept s0 (enterError s q) := by
  unfold enterError
  repeat' first
    | with_reducible assumption | with_reducible apply dropWait_kept | with_reducible apply modQueue_kept

theorem chainError_kept (s : State) (q : QueueId) (code addr : Nat) (tag : Word) {s0 : State} (h0 : Kept s0 s) :
    Kept s0 (chainError s q code addr tag) := by
  unfold chainError
  repeat' first
    | with_reducible assumption | with_reducible apply enterError_kept | with_reducible apply queueEvent_kept
    | with_reducible apply detect_kept | with_reducible apply modQueue_kept

theorem completePkt_kept (s : State) (q : QueueId) (num : Nat) {s0 : State} (h0 : Kept s0 s) :
    Kept s0 (completePkt s q num) := by
  unfold completePkt
  repeat' first
    | with_reducible assumption | with_reducible apply Kept.ite | with_reducible apply settleQueue_kept
    | with_reducible apply queueEvent_kept | with_reducible apply dropWait_kept | with_reducible apply modQueue_kept
    | split

theorem errorPkt_kept (s : State) (q : QueueId) (num code : Nat) (addr : RecAddr) (loc : Loc) (detail : BitVec 128)
    {s0 : State} (h0 : Kept s0 s) :
    Kept s0 (errorPkt s q num code addr loc detail) := by
  unfold errorPkt
  repeat' first
    | with_reducible assumption | with_reducible apply Kept.ite | with_reducible apply settleQueue_kept
    | with_reducible apply queueEvent_kept | with_reducible apply dropWait_kept
    | with_reducible apply enterError_kept | with_reducible apply detect_kept | with_reducible apply modQueue_kept
    | split

theorem freeUnitsSweep_kept (s : State) (units : List Nat) {s0 : State} (h0 : Kept s0 s) :
    Kept s0 (freeUnitsSweep s units) := by
  unfold freeUnitsSweep
  repeat' first | with_reducible assumption | (simp only [kept_mk]; with_reducible apply Kept.conj)

theorem freeObject_kept (s : State) (handle : Nat) {s0 : State} (h0 : Kept s0 s) :
    Kept s0 (freeObject s handle) := by
  unfold freeObject
  repeat' first
    | with_reducible assumption | with_reducible apply freeUnitsSweep_kept
    | (simp only [kept_mk]; with_reducible apply Kept.conj) | split

theorem reapObjects_kept (s : State) {s0 : State} (h0 : Kept s0 s) :
    Kept s0 (reapObjects s) := by
  unfold reapObjects
  repeat' first
    | with_reducible intro _ | with_reducible assumption | with_reducible apply freeObject_kept
    | with_reducible apply foldl_kept

theorem freeSegs_kept (s : State) (which : Segment → Bool) {s0 : State} (h0 : Kept s0 s) :
    Kept s0 (freeSegs s which) := by
  unfold freeSegs
  repeat' first | with_reducible assumption | (simp only [kept_mk]; with_reducible apply Kept.conj)

theorem zeroSegs_kept (s : State) (c : CtxId) {s0 : State} (h0 : Kept s0 s) :
    Kept s0 (zeroSegs s c) := by
  unfold zeroSegs
  repeat' first | with_reducible assumption | (simp only [kept_mk]; with_reducible apply Kept.conj)

theorem mapImporter_kept (s : State) (importer : Option Nat) (f : Ctx → Ctx) {s0 : State} (h0 : Kept s0 s) :
    Kept s0 (mapImporter s importer f) := by
  unfold mapImporter
  repeat' first | with_reducible assumption | (simp only [kept_mk]; with_reducible apply Kept.conj)

theorem recheckWaits_kept (s : State) {s0 : State} (h0 : Kept s0 s) :
    Kept s0 (recheckWaits s) := by
  unfold recheckWaits
  repeat' first
    | with_reducible intro _ | with_reducible assumption | with_reducible apply Kept.ite
    | with_reducible apply errorPkt_kept | with_reducible apply foldl_kept | split

theorem resetContext_kept (s : State) (c : CtxId) {s0 : State} (h0 : Kept s0 s) :
    Kept s0 (resetContext s c) := by
  unfold resetContext
  repeat' first
    | with_reducible assumption | with_reducible apply zeroSegs_kept | with_reducible apply modCtx_kept
    | (simp only [kept_mk]; with_reducible apply Kept.conj)

theorem destroyContext_kept (s : State) (c : CtxId) {s0 : State} (h0 : Kept s0 s) :
    Kept s0 (destroyContext s c) := by
  unfold destroyContext
  repeat' first
    | with_reducible assumption | with_reducible apply freeSegs_kept | with_reducible apply freeUnitsSweep_kept
    | (simp only [kept_mk]; with_reducible apply Kept.conj)

theorem stopQueues_kept (s : State) (qs : QueueId → Bool) (cs : CtxId → Bool) {s0 : State} (h0 : Kept s0 s) :
    Kept s0 (stopQueues s qs cs) := by
  unfold stopQueues
  repeat' first
    | with_reducible assumption | with_reducible apply flushVectors_kept | with_reducible apply stopAccesses_kept
    | (simp only [kept_mk]; with_reducible apply Kept.conj)

theorem stopWork_kept (s : State) (p : CtxId → Bool) {s0 : State} (h0 : Kept s0 s) :
    Kept s0 (stopWork s p) := by
  unfold stopWork
  repeat' first | with_reducible assumption | with_reducible apply stopQueues_kept

theorem startForfeit_kept (s : State) (parts : List ForfeitPart) (slots : List (SlotId × Word × List Word)) {s0 :
    State} (h0 : Kept s0 s) :
    Kept s0 (startForfeit s parts slots) := by
  unfold startForfeit
  repeat' first
    | with_reducible assumption | with_reducible apply stopWork_kept
    | (simp only [kept_mk]; with_reducible apply Kept.conj)

theorem forfeitSweep_kept (s : State) (p : CtxId → Bool) {s0 : State} (h0 : Kept s0 s) :
    Kept s0 (forfeitSweep s p) := by
  unfold forfeitSweep
  repeat' first | with_reducible assumption | (simp only [kept_mk]; with_reducible apply Kept.conj)

theorem orphanShare_kept (s : State) (id : Nat) (sh : Share) (gone : Nat → Bool) {s0 : State} (h0 : Kept s0 s) :
    Kept s0 (orphanShare s id sh gone) := by
  unfold orphanShare
  repeat' first
    | with_reducible assumption | with_reducible apply Kept.ite | with_reducible apply mapImporter_kept
    | with_reducible apply detect_kept | (simp only [kept_mk]; with_reducible apply Kept.conj) | split

theorem orphanShares_kept (s : State) (gone : Nat → Bool) {s0 : State} (h0 : Kept s0 s) :
    Kept s0 (orphanShares s gone) := by
  unfold orphanShares
  repeat' first
    | with_reducible intro _ | with_reducible assumption | with_reducible apply orphanShare_kept
    | with_reducible apply foldl_kept

theorem releaseObject_kept (s : State) (handle : Nat) {s0 : State} (h0 : Kept s0 s) :
    Kept s0 (releaseObject s handle) := by
  unfold releaseObject
  repeat' first
    | with_reducible assumption | with_reducible apply Kept.ite | with_reducible apply freeObject_kept
    | (simp only [kept_mk]; with_reducible apply Kept.conj)

theorem dropMordant_kept (s : State) (fn : Nat) {s0 : State} (h0 : Kept s0 s) :
    Kept s0 (dropMordant s fn) := by
  unfold dropMordant
  repeat' first | with_reducible assumption | (simp only [kept_mk]; with_reducible apply Kept.conj)

theorem clearTenant_kept (s : State) (fn : Nat) {s0 : State} (h0 : Kept s0 s) :
    Kept s0 (clearTenant s fn) := by
  unfold clearTenant
  repeat' first
    | with_reducible intro _ | with_reducible assumption | with_reducible apply releaseObject_kept
    | with_reducible apply dropMordant_kept | with_reducible apply destroyContext_kept
    | with_reducible apply reapObjects_kept | with_reducible apply modFn_kept | with_reducible apply foldl_kept
    | (simp only [kept_mk]; with_reducible apply Kept.conj)

theorem resetTenant_kept (s : State) (fn : Nat) {s0 : State} (h0 : Kept s0 s) :
    Kept s0 (resetTenant s fn) := by
  unfold resetTenant
  repeat' first
    | with_reducible assumption | with_reducible apply modFn_kept | with_reducible apply clearTenant_kept

theorem ceaseTenant_kept (s : State) (fn : Nat) {s0 : State} (h0 : Kept s0 s) :
    Kept s0 (ceaseTenant s fn) := by
  unfold ceaseTenant
  repeat' first
    | with_reducible assumption | with_reducible apply setFn_kept
    | (simp only [kept_mk]; with_reducible apply Kept.conj)

theorem killQueues_kept (s : State) (c : CtxId) (code : Nat) {s0 : State} (h0 : Kept s0 s) :
    Kept s0 (killQueues s c code) := by
  unfold killQueues
  repeat' first
    | with_reducible intro _ | with_reducible assumption | with_reducible apply queueEvent_kept
    | with_reducible apply modQueue_kept | with_reducible apply foldl_kept

theorem enableVfs_kept (s : State) (p : PortId) {s0 : State} (h0 : Kept s0 s) :
    Kept s0 (enableVfs s p) := by
  unfold enableVfs
  repeat' first
    | with_reducible intro _ | with_reducible assumption | with_reducible apply Kept.ite
    | with_reducible apply setFn_kept | with_reducible apply foldl_kept

theorem finishPart_kept (s : State) (x0 : ForfeitPart) {s0 : State} (h0 : Kept s0 s) :
    Kept s0 (finishPart s x0) := by
  unfold finishPart
  repeat' first
    | with_reducible intro _ | with_reducible assumption | with_reducible apply Kept.ite
    | with_reducible apply ceaseTenant_kept | with_reducible apply clearTenant_kept
    | with_reducible apply resetTenant_kept | with_reducible apply enableVfs_kept
    | with_reducible apply destroyContext_kept | with_reducible apply killQueues_kept
    | with_reducible apply resetContext_kept | with_reducible apply modFn_kept | with_reducible apply modPort_kept
    | with_reducible apply foldl_kept | (simp only [kept_mk]; with_reducible apply Kept.conj) | split

theorem setCauses_kept (s : State) (parts : List ForfeitPart) {s0 : State} (h0 : Kept s0 s) :
    Kept s0 (setCauses s parts) := by
  unfold setCauses
  repeat' first
    | with_reducible intro _ | with_reducible assumption | with_reducible apply Kept.ite
    | with_reducible apply modFn_kept | with_reducible apply foldl_kept | split

theorem dropHeld_kept (s : State) (f : Forfeit) {s0 : State} (h0 : Kept s0 s) :
    Kept s0 (dropHeld s f) := by
  unfold dropHeld
  repeat' first
    | with_reducible assumption | with_reducible apply flushVectors_kept
    | (simp only [kept_mk]; with_reducible apply Kept.conj)

theorem finishForfeit_kept (s : State) (k : Nat) {s0 : State} (h0 : Kept s0 s) :
    Kept s0 (finishForfeit s k) := by
  unfold finishForfeit
  repeat' first
    | with_reducible intro _ | with_reducible assumption | with_reducible apply pushRecord_kept
    | with_reducible apply slotFinish_kept | with_reducible apply reapObjects_kept
    | with_reducible apply orphanShares_kept | with_reducible apply setCauses_kept
    | with_reducible apply finishPart_kept | with_reducible apply recheckWaits_kept
    | with_reducible apply foldl_kept | (simp only [kept_mk]; with_reducible apply Kept.conj) | split

theorem fatal_kept (s : State) (code : Nat) {s0 : State} (h0 : Kept s0 s) :
    Kept s0 (fatal s code) := by
  unfold fatal
  repeat' first | with_reducible assumption | (simp only [kept_mk]; with_reducible apply Kept.conj)

theorem aAlone_kept (s : State) {s0 : State} (h0 : Kept s0 s) :
    Kept s0 (aAlone s) := by
  unfold aAlone
  repeat' first | with_reducible assumption | (simp only [kept_mk]; with_reducible apply Kept.conj)

theorem sepiaSlots_kept (s : State) (keep : Option SlotId) {s0 : State} (h0 : Kept s0 s) :
    Kept s0 (sepiaSlots s keep) := by
  unfold sepiaSlots
  repeat' first
    | with_reducible intro _ | with_reducible assumption | with_reducible apply Kept.ite
    | with_reducible apply slotRefuse_kept | with_reducible apply foldl_kept
    | (simp only [kept_mk]; with_reducible apply Kept.conj)

theorem enterSepia_kept (s : State) (cause : Nat) (slot : Option SlotId) {s0 : State} (h0 : Kept s0 s) :
    Kept s0 (enterSepia s cause slot) := by
  unfold enterSepia
  repeat' first
    | with_reducible intro _ | with_reducible assumption | with_reducible apply Kept.ite
    | with_reducible apply faultEdge_kept | with_reducible apply aAlone_kept
    | with_reducible apply startForfeit_kept | with_reducible apply ibiCause_kept
    | with_reducible apply sepiaSlots_kept | with_reducible apply modFn_kept | with_reducible apply foldl_kept
    | (simp only [kept_mk]; with_reducible apply Kept.conj)

theorem lowestCause_kept (s : State) (cause : Nat) {s0 : State} (h0 : Kept s0 s) :
    Kept s0 (lowestCause s cause) := by
  unfold lowestCause
  repeat' first
    | with_reducible assumption | with_reducible apply Kept.ite | with_reducible apply slotRefuse_kept
    | (simp only [kept_mk]; with_reducible apply Kept.conj) | split

theorem decideSepia_kept (s : State) (cause : Nat) (slot : Option SlotId) {s0 : State} (h0 : Kept s0 s) :
    Kept s0 (decideSepia s cause slot) := by
  unfold decideSepia
  repeat' first
    | with_reducible assumption | with_reducible apply Kept.ite | with_reducible apply aAlone_kept
    | with_reducible apply lowestCause_kept | with_reducible apply enterSepia_kept
    | (simp only [kept_mk]; with_reducible apply Kept.conj)

theorem resumeSepia_kept (s : State) {s0 : State} (h0 : Kept s0 s) :
    Kept s0 (resumeSepia s) := by
  unfold resumeSepia
  repeat' first
    | with_reducible assumption | with_reducible apply Kept.ite | with_reducible apply enterSepia_kept
    | (simp only [kept_mk]; with_reducible apply Kept.conj) | split

theorem dropAllSegments_kept (s : State) {s0 : State} (h0 : Kept s0 s) :
    Kept s0 (dropAllSegments s) := by
  unfold dropAllSegments
  repeat' first | with_reducible assumption | (simp only [kept_mk]; with_reducible apply Kept.conj)

theorem cleanBanks_kept (s : State) (lo : Nat) {s0 : State} (h0 : Kept s0 s) :
    Kept s0 (cleanBanks s lo) := by
  unfold cleanBanks
  repeat' first
    | with_reducible intro _ | with_reducible assumption | with_reducible apply evictLine_kept
    | with_reducible apply foldl_kept

theorem switchOffSepia_kept (s : State) {s0 : State} (h0 : Kept s0 s) :
    Kept s0 (switchOffSepia s) := by
  unfold switchOffSepia
  repeat' first | with_reducible assumption | (simp only [kept_mk]; with_reducible apply Kept.conj)

theorem sepiaGovernor_kept (s : State) {s0 : State} (h0 : Kept s0 s) :
    Kept s0 (sepiaGovernor s) := by
  unfold sepiaGovernor
  repeat' first | with_reducible assumption | (simp only [kept_mk]; with_reducible apply Kept.conj)

theorem completeSepia_kept (s : State) (e : SepiaEntry) {s0 : State} (h0 : Kept s0 s) :
    Kept s0 (completeSepia s e) := by
  unfold completeSepia
  repeat' first
    | with_reducible assumption | with_reducible apply cleanBanks_kept | with_reducible apply pushRecord_kept
    | with_reducible apply slotFinish_kept | with_reducible apply switchOffSepia_kept
    | with_reducible apply dropAllSegments_kept | with_reducible apply sepiaGovernor_kept
    | (simp only [kept_mk]; with_reducible apply Kept.conj) | split

theorem modAccess_kept (s : State) (n : Nat) (g : Access → Access) {s0 : State} (h0 : Kept s0 s) :
    Kept s0 (modAccess s n g) := by
  unfold modAccess
  repeat' first | with_reducible assumption | (simp only [kept_mk]; with_reducible apply Kept.conj)

theorem removeAccess_kept (s : State) (n : Nat) {s0 : State} (h0 : Kept s0 s) :
    Kept s0 (removeAccess s n) := by
  unfold removeAccess
  repeat' first | with_reducible assumption | (simp only [kept_mk]; with_reducible apply Kept.conj)

theorem addAccess_kept (s : State) (a : Access) {s0 : State} (h0 : Kept s0 s) :
    Kept s0 (addAccess s a) := by
  unfold addAccess
  repeat' first | with_reducible assumption | (simp only [kept_mk]; with_reducible apply Kept.conj)

theorem beatServed_kept (s : State) (ch : Nat) (write : Bool) {s0 : State} (h0 : Kept s0 s) :
    Kept s0 (beatServed s ch write) := by
  unfold beatServed
  repeat' first | with_reducible assumption | (simp only [kept_mk]; with_reducible apply Kept.conj)

theorem completeHostReq_kept (s : State) (id : Nat) {s0 : State} (h0 : Kept s0 s) :
    Kept s0 (completeHostReq s id) := by
  unfold completeHostReq
  repeat' first
    | with_reducible assumption | with_reducible apply Kept.ite | with_reducible apply emit_kept
    | (simp only [kept_mk]; with_reducible apply Kept.conj) | split

theorem takeFetches_kept (s : State) (slot : Nat) {s0 : State} (h0 : Kept s0 s) :
    Kept s0 (takeFetches s slot) := by
  unfold takeFetches
  repeat' first | with_reducible assumption | (simp only [kept_mk]; with_reducible apply Kept.conj)

theorem deliver_kept (s : State) (x0 : Client) {s0 : State} (h0 : Kept s0 s) :
    Kept s0 (deliver s x0) := by
  unfold deliver
  repeat' first
    | with_reducible assumption | with_reducible apply completeHostReq_kept | with_reducible apply takeFetches_kept
    | split

theorem answerAccess_kept (s : State) (n : Nat) (bytes : List Byte) (poison : Bool) {s0 : State} (h0 : Kept s0 s) :
    Kept s0 (answerAccess s n bytes poison) := by
  unfold answerAccess
  repeat' first
    | with_reducible assumption | with_reducible apply Kept.ite | with_reducible apply deliver_kept
    | with_reducible apply removeAccess_kept | with_reducible apply modAccess_kept | split

theorem answerPoison_kept (s : State) (n : Nat) {s0 : State} (h0 : Kept s0 s) :
    Kept s0 (answerPoison s n) := by
  unfold answerPoison
  repeat' first
    | with_reducible assumption | with_reducible apply modAccess_kept | with_reducible apply answerAccess_kept

theorem endRequest_kept (s : State) (n : Nat) (a : Access) {s0 : State} (h0 : Kept s0 s) :
    Kept s0 (endRequest s n a) := by
  unfold endRequest
  repeat' first
    | with_reducible assumption | with_reducible apply answerAccess_kept | with_reducible apply modAccess_kept

theorem takeCompletion_kept (s : State) (n : Nat) (a : Access) (bytes : List Byte) (poison : Bool) {s0 : State} (h0 :
    Kept s0 s) :
    Kept s0 (takeCompletion s n a bytes poison) := by
  unfold takeCompletion
  repeat' first
    | with_reducible assumption | with_reducible apply Kept.ite | with_reducible apply endRequest_kept
    | with_reducible apply modAccess_kept

theorem quarantineTag_kept (s : State) (p : PortId) (fn tag since : Nat) {s0 : State} (h0 : Kept s0 s) :
    Kept s0 (quarantineTag s p fn tag since) := by
  unfold quarantineTag
  repeat' first | with_reducible assumption | (simp only [kept_mk]; with_reducible apply Kept.conj)

theorem incompleteRead_kept (s : State) (n : Nat) (a : Access) {s0 : State} (h0 : Kept s0 s) :
    KeptOpt2 s0 (incompleteRead s n a) := by
  unfold incompleteRead
  repeat' first
    | with_reducible assumption | with_reducible apply modQueue_kept | with_reducible apply removeAccess_kept
    | (simp only [kept_mk]; with_reducible apply Kept.conj) | with_reducible apply KeptOpt2.some
    | with_reducible apply KeptOpt2.none | split | dsimp only

theorem incompleteRead_kept_eq {s : State} {n : Nat} {a : Access} {s0 sv : State} {r : QueueId} (hEq :
    incompleteRead s n a = some (r, sv)) (h0 : Kept s0 s) : Kept s0 sv :=
  incompleteRead_kept s n a h0 _ _ hEq

theorem timeoutAccess_kept (s : State) (n : Nat) {s0 : State} (h0 : Kept s0 s) :
    Kept s0 (timeoutAccess s n) := by
  unfold timeoutAccess
  repeat' first
    | with_reducible assumption | with_reducible refine incompleteRead_kept_eq (by assumption) ?_
    | with_reducible apply endRequest_kept | with_reducible apply pushRecord_kept
    | with_reducible apply quarantineTag_kept | with_reducible apply aer_kept | with_reducible apply detect_kept
    | with_reducible apply modQueue_kept | with_reducible apply modAccess_kept | split | dsimp only

theorem quarantineAll_kept (s : State) (p : PortId → Nat → Bool) {s0 : State} (h0 : Kept s0 s) :
    Kept s0 (quarantineAll s p) := by
  unfold quarantineAll
  repeat' first
    | with_reducible intro _ | with_reducible assumption | with_reducible apply quarantineTag_kept
    | with_reducible apply answerPoison_kept | with_reducible apply foldl_kept | split

theorem poisonWaiting_kept (s : State) (p : PortId) {s0 : State} (h0 : Kept s0 s) :
    Kept s0 (poisonWaiting s p) := by
  unfold poisonWaiting
  repeat' first
    | with_reducible intro _ | with_reducible assumption | with_reducible apply answerPoison_kept
    | with_reducible apply foldl_kept

end Sys2Proof.Laws
end

