-- ==== Sys2Proof/Laws/KeptShader.lean ====
section
/-!
SUPPORT. Every operation of engine reads, the issue of instructions and the shader instructions keeps the queue of commands, the fuses and the LPDDR cells, each lemma
for a state that another state leads to.
-/

namespace Sys2Proof.Laws

open Machine

theorem putGroup_kept (s : State) (slot : Nat) (g : Group) {s0 : State} (h0 : Kept s0 s) :
    Kept s0 (putGroup s slot g) := by
  unfold putGroup
  repeat' first | with_reducible assumption | (simp only [kept_mk]; with_reducible apply Kept.conj)

theorem modGroup_kept (s : State) (slot : Nat) (f : Group → Group) {s0 : State} (h0 : Kept s0 s) :
    Kept s0 (modGroup s slot f) := by
  unfold modGroup
  repeat' first | with_reducible assumption | (simp only [kept_mk]; with_reducible apply Kept.conj)

theorem killContext_kept (s : State) (c : CtxId) (r : ErrRec) {s0 : State} (h0 : Kept s0 s) :
    Kept s0 (killContext s c r) := by
  unfold killContext
  repeat' first
    | with_reducible assumption | with_reducible apply countExtra_kept | with_reducible apply startForfeit_kept
    | split

theorem groupFault_kept (s : State) (slot : Nat) (g : Group) (code : Nat) (addr : RecAddr) (pc : Nat) (lanes : Word)
    (w : Insn) (low : Nat) {s0 : State} (h0 : Kept s0 s) :
    Kept s0 (groupFault s slot g code addr pc lanes w low) := by
  unfold groupFault
  repeat' first | with_reducible assumption | with_reducible apply killContext_kept

theorem countAccess_kept (s : State) (a : Access) {s0 : State} (h0 : Kept s0 s) :
    Kept s0 (countAccess s a) := by
  unfold countAccess
  repeat' first | with_reducible assumption | with_reducible apply countBytes_kept | split

theorem admitted_kept (s : State) (a : Access) {s0 : State} (h0 : Kept s0 s) :
    Kept s0 (admitted s a).1 := by
  unfold admitted
  repeat' first | with_reducible assumption | with_reducible apply countAccess_kept

theorem admitted_kept_eq {s : State} {a : Access} {s0 sv : State} {r : Access} (hEq : admitted s a = (sv, r)) (h0 :
    Kept s0 s) : Kept s0 sv := by
  have k := admitted_kept s a h0
  rw [hEq] at k
  exact k

theorem enterFabric_kept (s : State) (a : Access) {s0 : State} (h0 : Kept s0 s) :
    Kept s0 (enterFabric s a) := by
  unfold enterFabric
  repeat' first
    | with_reducible assumption | with_reducible apply Kept.ite | with_reducible apply admitted_kept
    | with_reducible apply deliver_kept | with_reducible apply addAccess_kept | split

theorem dropFetches_kept (s : State) (slot : Nat) {s0 : State} (h0 : Kept s0 s) :
    Kept s0 (dropFetches s slot) := by
  unfold dropFetches
  repeat' first | with_reducible assumption | with_reducible apply stopAccesses_kept

theorem leaveSlot_kept (s : State) (slot : Nat) {s0 : State} (h0 : Kept s0 s) :
    Kept s0 (leaveSlot s slot) := by
  unfold leaveSlot
  repeat' first
    | with_reducible assumption | with_reducible apply dropFetches_kept
    | (simp only [kept_mk]; with_reducible apply Kept.conj)

theorem finishDispatch_kept (s : State) (d : Nat) {s0 : State} (h0 : Kept s0 s) :
    Kept s0 (finishDispatch s d) := by
  unfold finishDispatch
  repeat' first
    | with_reducible assumption | with_reducible apply Kept.ite | with_reducible apply completePkt_kept
    | (simp only [kept_mk]; with_reducible apply Kept.conj) | split

theorem finishWg_kept (s : State) (wg : Nat) {s0 : State} (h0 : Kept s0 s) :
    Kept s0 (finishWg s wg) := by
  unfold finishWg
  repeat' first
    | with_reducible assumption | with_reducible apply Kept.ite | with_reducible apply finishDispatch_kept
    | (simp only [kept_mk]; with_reducible apply Kept.conj) | split

theorem reapGroup_kept (s : State) (slot : Nat) {s0 : State} (h0 : Kept s0 s) :
    Kept s0 (reapGroup s slot) := by
  unfold reapGroup
  repeat' first
    | with_reducible assumption | with_reducible apply Kept.ite | with_reducible apply leaveSlot_kept | split

theorem releaseBarrier_kept (s : State) (wg : Nat) {s0 : State} (h0 : Kept s0 s) :
    Kept s0 (releaseBarrier s wg) := by
  unfold releaseBarrier
  repeat' first
    | with_reducible assumption | with_reducible apply Kept.ite
    | (simp only [kept_mk]; with_reducible apply Kept.conj)

/-- The state of every answer keeps the three fields. -/
def KeptPub (s : State) : Published → Prop
  | .done v _ => Kept s v
  | .held v => Kept s v
  | .killed v => Kept s v

theorem KeptPub.done {s v : State} {e0 : Group} (h : Kept s v) : KeptPub s (.done v e0) := h

theorem KeptPub.held {s v : State} (h : Kept s v) : KeptPub s (.held v) := h

theorem KeptPub.killed {s v : State} (h : Kept s v) : KeptPub s (.killed v) := h

theorem publish_kept (s : State) (slot : Nat) (g : Group) (pc : Nat) (w : Insn) {s0 : State} (h0 : Kept s0 s) :
    KeptPub s0 (publish s slot g pc w) := by
  unfold publish
  repeat' first
    | with_reducible assumption | with_reducible apply KeptPub.done | with_reducible apply KeptPub.held
    | with_reducible apply KeptPub.killed | with_reducible apply enterFabric_kept
    | with_reducible apply modGroup_kept | with_reducible apply removeAccess_kept
    | with_reducible apply groupFault_kept | split

theorem publish_kept_done {s : State} {slot : Nat} {g : Group} {pc : Nat} {w : Insn} {s0 sv : State} {e0 : Group}
    (hEq : publish s slot g pc w = .done sv e0) (h0 : Kept s0 s) : Kept s0 sv := by
  have k := publish_kept s slot g pc w h0
  rw [hEq] at k
  exact k

theorem publish_kept_held {s : State} {slot : Nat} {g : Group} {pc : Nat} {w : Insn} {s0 sv : State} (hEq :
    publish s slot g pc w = .held sv) (h0 : Kept s0 s) : Kept s0 sv := by
  have k := publish_kept s slot g pc w h0
  rw [hEq] at k
  exact k

theorem publish_kept_killed {s : State} {slot : Nat} {g : Group} {pc : Nat} {w : Insn} {s0 sv : State} (hEq :
    publish s slot g pc w = .killed sv) (h0 : Kept s0 s) : Kept s0 sv := by
  have k := publish_kept s slot g pc w h0
  rw [hEq] at k
  exact k

theorem exitGroup_kept (s : State) (slot : Nat) (g : Group) (pc : Nat) (w : Insn) {s0 : State} (h0 : Kept s0 s) :
    Kept s0 (exitGroup s slot g pc w) := by
  unfold exitGroup
  repeat' first
    | with_reducible assumption | with_reducible apply releaseBarrier_kept | with_reducible apply finishWg_kept
    | with_reducible apply putGroup_kept | with_reducible refine publish_kept_done (by assumption) ?_
    | with_reducible refine publish_kept_held (by assumption) ?_
    | with_reducible refine publish_kept_killed (by assumption) ?_ | with_reducible apply reapGroup_kept | split

theorem issueRead_kept (s : State) (e : Engine) (need : AccessNeed) (va len : Nat) {s0 : State} (h0 : Kept s0 s) :
    Kept s0 (issueRead s e need va len) := by
  unfold issueRead
  repeat' first | with_reducible assumption | with_reducible apply enterFabric_kept | split

/-- The state of every answer keeps the three fields. -/
def KeptRead (s : State) : Reading → Prop
  | .wait v => Kept s v
  | .fault _ _ => True
  | .ready _ => True

theorem KeptRead.wait {s v : State} (h : Kept s v) : KeptRead s (.wait v) := h

theorem KeptRead.fault {s : State} {e0 : XFault} {e1 : Nat} : KeptRead s (.fault e0 e1) := True.intro

theorem KeptRead.ready {s : State} {e0 : List (Byte × Bool)} : KeptRead s (.ready e0) := True.intro

theorem engineRead_kept (s : State) (e : Engine) (need : AccessNeed) (va len : Nat) {s0 : State} (h0 : Kept s0 s) :
    KeptRead s0 (engineRead s e need va len) := by
  unfold engineRead
  repeat' first
    | with_reducible intro _ | with_reducible assumption | with_reducible apply Kept.ite
    | with_reducible apply KeptRead.wait | with_reducible apply KeptRead.fault | with_reducible apply KeptRead.ready
    | with_reducible apply issueRead_kept | with_reducible apply foldl_kept | split | dsimp only

theorem engineRead_kept_wait {s : State} {e : Engine} {need : AccessNeed} {va len : Nat} {s0 sv : State} (hEq :
    engineRead s e need va len = .wait sv) (h0 : Kept s0 s) : Kept s0 sv := by
  have k := engineRead_kept s e need va len h0
  rw [hEq] at k
  exact k

theorem useReads_kept (s : State) (r : Reader) {s0 : State} (h0 : Kept s0 s) :
    Kept s0 (useReads s r) := by
  unfold useReads
  repeat' first | with_reducible assumption | (simp only [kept_mk]; with_reducible apply Kept.conj)

theorem dropReads_kept (s : State) (r : Reader) {s0 : State} (h0 : Kept s0 s) :
    Kept s0 (dropReads s r) := by
  unfold dropReads
  repeat' first | with_reducible assumption | with_reducible apply stopAccesses_kept

theorem startFetch_kept (s : State) (slot : Nat) (g : Group) (u : Nat) {s0 : State} (h0 : Kept s0 s) :
    Kept s0 (startFetch s slot g u) := by
  unfold startFetch
  repeat' first | with_reducible assumption | with_reducible refine engineRead_kept_wait (by assumption) ?_ | split

theorem runBody_kept (s : State) (slot : Nat) (g : Group) (iw : IWord) (w : Insn) (pc : Nat) (active : Word) (body :
    Body) {s0 : State} (k_body : ∀ (a0 : State) (a1 : Nat) (a2 : Group) (a3 : IWord) (a4 : Nat) (a5 : Word) (a6 :
    Nat), Kept s0 a0 → Kept s0 (body a0 a1 a2 a3 a4 a5 a6)) (h0 : Kept s0 s) :
    Kept s0 (runBody s slot g iw w pc active body) := by
  unfold runBody
  repeat' first
    | with_reducible assumption | with_reducible apply Kept.ite | with_reducible apply putGroup_kept
    | with_reducible refine publish_kept_done (by assumption) ?_
    | with_reducible refine publish_kept_held (by assumption) ?_
    | with_reducible refine publish_kept_killed (by assumption) ?_ | with_reducible apply k_body
    | (simp only [kept_mk]; with_reducible apply Kept.conj) | split

theorem issue_kept (slot : Nat) (w : Insn) (t : Stamp) (s : State) (mine : Nat → Bool) (body : Body) (bad :
    State → Nat → Group → IWord → Option Nat) {s0 : State} (k_body : ∀ (a0 : State) (a1 : Nat) (a2 : Group) (a3 :
    IWord) (a4 : Nat) (a5 : Word) (a6 : Nat), Kept s0 a0 → Kept s0 (body a0 a1 a2 a3 a4 a5 a6)) (h0 : Kept s0 s) :
    KeptOut s0 (issue slot w t s mine body bad) := by
  unfold issue
  repeat' first
    | with_reducible intro _ | with_reducible assumption | with_reducible apply KeptOut.ite
    | with_reducible apply startFetch_kept | with_reducible apply runBody_kept
    | with_reducible apply State_upTo_kept | with_reducible apply groupFault_kept | with_reducible apply k_body
    | with_reducible apply KeptOut.next | split | dsimp only

theorem groupRow_kept (slot : Nat) (w : Insn) (t : Stamp) (s : State) (op : Nat) (f :
    Group → IWord → List Nat → Nat → Group) {s0 : State} (h0 : Kept s0 s) :
    KeptOut s0 (groupRow slot w t s op f) := by
  unfold groupRow
  repeat' first
    | with_reducible intro _ | with_reducible assumption | with_reducible apply putGroup_kept
    | with_reducible apply issue_kept

theorem wordRow_kept (slot : Nat) (w : Insn) (t : Stamp) (s : State) (op : Nat) (f : Group → IWord → Nat → Word) {s0 :
    State} (h0 : Kept s0 s) :
    KeptOut s0 (wordRow slot w t s op f) := by
  unfold wordRow
  repeat' first | with_reducible assumption | with_reducible apply groupRow_kept

theorem binRow_kept (slot : Nat) (w : Insn) (t : Stamp) (s : State) (op : Nat) (f : IWord → Word → Word → Word) {s0 :
    State} (h0 : Kept s0 s) :
    KeptOut s0 (binRow slot w t s op f) := by
  unfold binRow
  repeat' first | with_reducible assumption | with_reducible apply wordRow_kept

theorem unRow_kept (slot : Nat) (w : Insn) (t : Stamp) (s : State) (op : Nat) (f : Word → Word) {s0 : State} (h0 :
    Kept s0 s) :
    KeptOut s0 (unRow slot w t s op f) := by
  unfold unRow
  repeat' first | with_reducible assumption | with_reducible apply wordRow_kept

theorem execNopInstruction_kept (slot : Nat) (w : Insn) (t : Stamp) (s : State) {s0 : State} (h0 : Kept s0 s) :
    KeptOut s0 (execNopInstruction slot w t s) := by
  unfold execNopInstruction
  repeat' first | with_reducible assumption | with_reducible apply groupRow_kept

theorem execMov_kept (slot : Nat) (w : Insn) (t : Stamp) (s : State) {s0 : State} (h0 : Kept s0 s) :
    KeptOut s0 (execMov slot w t s) := by
  unfold execMov
  repeat' first | with_reducible assumption | with_reducible apply unRow_kept

theorem execSel_kept (slot : Nat) (w : Insn) (t : Stamp) (s : State) {s0 : State} (h0 : Kept s0 s) :
    KeptOut s0 (execSel slot w t s) := by
  unfold execSel
  repeat' first | with_reducible assumption | with_reducible apply wordRow_kept

theorem execIadd_kept (slot : Nat) (w : Insn) (t : Stamp) (s : State) {s0 : State} (h0 : Kept s0 s) :
    KeptOut s0 (execIadd slot w t s) := by
  unfold execIadd
  repeat' first | with_reducible assumption | with_reducible apply binRow_kept

theorem execIsub_kept (slot : Nat) (w : Insn) (t : Stamp) (s : State) {s0 : State} (h0 : Kept s0 s) :
    KeptOut s0 (execIsub slot w t s) := by
  unfold execIsub
  repeat' first | with_reducible assumption | with_reducible apply binRow_kept

theorem execImul_kept (slot : Nat) (w : Insn) (t : Stamp) (s : State) {s0 : State} (h0 : Kept s0 s) :
    KeptOut s0 (execImul slot w t s) := by
  unfold execImul
  repeat' first | with_reducible assumption | with_reducible apply binRow_kept

theorem execImulhi_kept (slot : Nat) (w : Insn) (t : Stamp) (s : State) {s0 : State} (h0 : Kept s0 s) :
    KeptOut s0 (execImulhi slot w t s) := by
  unfold execImulhi
  repeat' first | with_reducible assumption | with_reducible apply binRow_kept

theorem execImad_kept (slot : Nat) (w : Insn) (t : Stamp) (s : State) {s0 : State} (h0 : Kept s0 s) :
    KeptOut s0 (execImad slot w t s) := by
  unfold execImad
  repeat' first | with_reducible assumption | with_reducible apply wordRow_kept

theorem execImin_kept (slot : Nat) (w : Insn) (t : Stamp) (s : State) {s0 : State} (h0 : Kept s0 s) :
    KeptOut s0 (execImin slot w t s) := by
  unfold execImin
  repeat' first | with_reducible assumption | with_reducible apply binRow_kept

theorem execImax_kept (slot : Nat) (w : Insn) (t : Stamp) (s : State) {s0 : State} (h0 : Kept s0 s) :
    KeptOut s0 (execImax slot w t s) := by
  unfold execImax
  repeat' first | with_reducible assumption | with_reducible apply binRow_kept

theorem execAndI_kept (slot : Nat) (w : Insn) (t : Stamp) (s : State) {s0 : State} (h0 : Kept s0 s) :
    KeptOut s0 (execAndI slot w t s) := by
  unfold execAndI
  repeat' first | with_reducible assumption | with_reducible apply binRow_kept

theorem execOrI_kept (slot : Nat) (w : Insn) (t : Stamp) (s : State) {s0 : State} (h0 : Kept s0 s) :
    KeptOut s0 (execOrI slot w t s) := by
  unfold execOrI
  repeat' first | with_reducible assumption | with_reducible apply binRow_kept

theorem execXorI_kept (slot : Nat) (w : Insn) (t : Stamp) (s : State) {s0 : State} (h0 : Kept s0 s) :
    KeptOut s0 (execXorI slot w t s) := by
  unfold execXorI
  repeat' first | with_reducible assumption | with_reducible apply binRow_kept

theorem execNotI_kept (slot : Nat) (w : Insn) (t : Stamp) (s : State) {s0 : State} (h0 : Kept s0 s) :
    KeptOut s0 (execNotI slot w t s) := by
  unfold execNotI
  repeat' first | with_reducible assumption | with_reducible apply unRow_kept

theorem execShl_kept (slot : Nat) (w : Insn) (t : Stamp) (s : State) {s0 : State} (h0 : Kept s0 s) :
    KeptOut s0 (execShl slot w t s) := by
  unfold execShl
  repeat' first | with_reducible assumption | with_reducible apply binRow_kept

theorem execShr_kept (slot : Nat) (w : Insn) (t : Stamp) (s : State) {s0 : State} (h0 : Kept s0 s) :
    KeptOut s0 (execShr slot w t s) := by
  unfold execShr
  repeat' first | with_reducible assumption | with_reducible apply binRow_kept

theorem execSar_kept (slot : Nat) (w : Insn) (t : Stamp) (s : State) {s0 : State} (h0 : Kept s0 s) :
    KeptOut s0 (execSar slot w t s) := by
  unfold execSar
  repeat' first | with_reducible assumption | with_reducible apply binRow_kept

theorem execBfe_kept (slot : Nat) (w : Insn) (t : Stamp) (s : State) {s0 : State} (h0 : Kept s0 s) :
    KeptOut s0 (execBfe slot w t s) := by
  unfold execBfe
  repeat' first | with_reducible assumption | with_reducible apply wordRow_kept

theorem execBfi_kept (slot : Nat) (w : Insn) (t : Stamp) (s : State) {s0 : State} (h0 : Kept s0 s) :
    KeptOut s0 (execBfi slot w t s) := by
  unfold execBfi
  repeat' first | with_reducible assumption | with_reducible apply wordRow_kept

theorem execPopc_kept (slot : Nat) (w : Insn) (t : Stamp) (s : State) {s0 : State} (h0 : Kept s0 s) :
    KeptOut s0 (execPopc slot w t s) := by
  unfold execPopc
  repeat' first | with_reducible assumption | with_reducible apply unRow_kept

theorem execClz_kept (slot : Nat) (w : Insn) (t : Stamp) (s : State) {s0 : State} (h0 : Kept s0 s) :
    KeptOut s0 (execClz slot w t s) := by
  unfold execClz
  repeat' first | with_reducible assumption | with_reducible apply unRow_kept

theorem execBrev_kept (slot : Nat) (w : Insn) (t : Stamp) (s : State) {s0 : State} (h0 : Kept s0 s) :
    KeptOut s0 (execBrev slot w t s) := by
  unfold execBrev
  repeat' first | with_reducible assumption | with_reducible apply unRow_kept

theorem execIcmp_kept (slot : Nat) (w : Insn) (t : Stamp) (s : State) {s0 : State} (h0 : Kept s0 s) :
    KeptOut s0 (execIcmp slot w t s) := by
  unfold execIcmp
  repeat' first | with_reducible assumption | with_reducible apply groupRow_kept

theorem execIadd64_kept (slot : Nat) (w : Insn) (t : Stamp) (s : State) {s0 : State} (h0 : Kept s0 s) :
    KeptOut s0 (execIadd64 slot w t s) := by
  unfold execIadd64
  repeat' first | with_reducible assumption | with_reducible apply groupRow_kept

theorem execImadw_kept (slot : Nat) (w : Insn) (t : Stamp) (s : State) {s0 : State} (h0 : Kept s0 s) :
    KeptOut s0 (execImadw slot w t s) := by
  unfold execImadw
  repeat' first | with_reducible assumption | with_reducible apply groupRow_kept

theorem execSread_kept (slot : Nat) (w : Insn) (t : Stamp) (s : State) {s0 : State} (h0 : Kept s0 s) :
    KeptOut s0 (execSread slot w t s) := by
  unfold execSread
  repeat' first
    | with_reducible intro _ | with_reducible assumption | with_reducible apply putGroup_kept
    | with_reducible apply issue_kept

theorem execPlop_kept (slot : Nat) (w : Insn) (t : Stamp) (s : State) {s0 : State} (h0 : Kept s0 s) :
    KeptOut s0 (execPlop slot w t s) := by
  unfold execPlop
  repeat' first | with_reducible assumption | with_reducible apply groupRow_kept

theorem execPmov_kept (slot : Nat) (w : Insn) (t : Stamp) (s : State) {s0 : State} (h0 : Kept s0 s) :
    KeptOut s0 (execPmov slot w t s) := by
  unfold execPmov
  repeat' first | with_reducible assumption | with_reducible apply groupRow_kept

theorem execUndefinedOpcode_kept (slot : Nat) (w : Insn) (t : Stamp) (s : State) {s0 : State} (h0 : Kept s0 s) :
    KeptOut s0 (execUndefinedOpcode slot w t s) := by
  unfold execUndefinedOpcode
  repeat' first | with_reducible intro _ | with_reducible assumption | with_reducible apply issue_kept

theorem modForfeit_kept (s : State) (k : Nat) (g : Forfeit → Forfeit) {s0 : State} (h0 : Kept s0 s) :
    Kept s0 (modForfeit s k g) := by
  unfold modForfeit
  repeat' first | with_reducible assumption | (simp only [kept_mk]; with_reducible apply Kept.conj)

theorem semDone_kept (s : State) (k : Nat) (c : CtxId) (va : Nat) (mark : Option Bool) {s0 : State} (h0 : Kept s0 s) :
    Kept s0 (semDone s k c va mark) := by
  unfold semDone
  repeat' first
    | with_reducible assumption | with_reducible apply modCtx_kept | with_reducible apply modForfeit_kept | split

theorem semAccess_kept (s : State) (c : CtxId) (va : Nat) (h : Home) (kind : AccKind) {s0 : State} (h0 : Kept s0 s) :
    Kept s0 (semAccess s c va h kind) := by
  unfold semAccess
  repeat' first | with_reducible assumption | with_reducible apply enterFabric_kept

theorem semSwapped_kept (s : State) (k : Nat) (c : CtxId) (va : Nat) (old : Dword) (words : List
    (Nat × Dword × Dword)) {s0 : State} (h0 : Kept s0 s) :
    Kept s0 (semSwapped s k c va old words) := by
  unfold semSwapped
  repeat' first
    | with_reducible assumption | with_reducible apply Kept.ite | with_reducible apply semDone_kept | split

theorem markSem_kept (s : State) (k : Nat) (c : CtxId) (va : Nat) {s0 : State} (h0 : Kept s0 s) :
    Kept s0 (markSem s k c va) := by
  unfold markSem
  repeat' first
    | with_reducible assumption | with_reducible apply Kept.ite | with_reducible apply semDone_kept
    | with_reducible apply semSwapped_kept | with_reducible apply removeAccess_kept
    | with_reducible apply semAccess_kept | split

theorem markSems_kept (s : State) (k : Nat) (ctxs : List CtxId) {s0 : State} (h0 : Kept s0 s) :
    Kept s0 (markSems s k ctxs) := by
  unfold markSems
  repeat' first
    | with_reducible intro _ | with_reducible assumption | with_reducible apply markSem_kept
    | with_reducible apply foldl_kept

theorem stepForfeit_kept (s : State) (k : Nat) (f : Forfeit) {s0 : State} (h0 : Kept s0 s) :
    Kept s0 (stepForfeit s k f) := by
  unfold stepForfeit
  repeat' first
    | with_reducible assumption | with_reducible apply Kept.ite | with_reducible apply markSems_kept
    | with_reducible apply dropHeld_kept | with_reducible apply forfeitSweep_kept
    | with_reducible apply modForfeit_kept | with_reducible apply finishForfeit_kept

theorem modAer_kept (s : State) (fn : Nat) (g : Aer → Aer) {s0 : State} (h0 : Kept s0 s) :
    Kept s0 (modAer s fn g) := by
  unfold modAer
  repeat' first | with_reducible assumption | with_reducible apply modFn_kept

theorem fpRow_kept (slot : Nat) (w : Insn) (t : Stamp) (s : State) (op : Nat) (f : IWord → FVal → FVal → FVal → FVal)
    {s0 : State} (h0 : Kept s0 s) :
    KeptOut s0 (fpRow slot w t s op f) := by
  unfold fpRow
  repeat' first | with_reducible assumption | with_reducible apply groupRow_kept

theorem execFadd_kept (slot : Nat) (w : Insn) (t : Stamp) (s : State) {s0 : State} (h0 : Kept s0 s) :
    KeptOut s0 (execFadd slot w t s) := by
  unfold execFadd
  repeat' first | with_reducible assumption | with_reducible apply fpRow_kept

theorem execFmul_kept (slot : Nat) (w : Insn) (t : Stamp) (s : State) {s0 : State} (h0 : Kept s0 s) :
    KeptOut s0 (execFmul slot w t s) := by
  unfold execFmul
  repeat' first | with_reducible assumption | with_reducible apply fpRow_kept

theorem execFfma_kept (slot : Nat) (w : Insn) (t : Stamp) (s : State) {s0 : State} (h0 : Kept s0 s) :
    KeptOut s0 (execFfma slot w t s) := by
  unfold execFfma
  repeat' first | with_reducible assumption | with_reducible apply fpRow_kept

theorem execFmin_kept (slot : Nat) (w : Insn) (t : Stamp) (s : State) {s0 : State} (h0 : Kept s0 s) :
    KeptOut s0 (execFmin slot w t s) := by
  unfold execFmin
  repeat' first | with_reducible assumption | with_reducible apply fpRow_kept

theorem execFmax_kept (slot : Nat) (w : Insn) (t : Stamp) (s : State) {s0 : State} (h0 : Kept s0 s) :
    KeptOut s0 (execFmax slot w t s) := by
  unfold execFmax
  repeat' first | with_reducible assumption | with_reducible apply fpRow_kept

theorem execFcmp_kept (slot : Nat) (w : Insn) (t : Stamp) (s : State) {s0 : State} (h0 : Kept s0 s) :
    KeptOut s0 (execFcmp slot w t s) := by
  unfold execFcmp
  repeat' first | with_reducible assumption | with_reducible apply groupRow_kept

theorem sfuRow_kept (slot : Nat) (w : Insn) (t : Stamp) (s : State) (op : Nat) (f : FVal → Word → Word) {s0 : State}
    (h0 : Kept s0 s) :
    KeptOut s0 (sfuRow slot w t s op f) := by
  unfold sfuRow
  repeat' first | with_reducible assumption | with_reducible apply groupRow_kept

theorem execFrcp_kept (slot : Nat) (w : Insn) (t : Stamp) (s : State) {s0 : State} (h0 : Kept s0 s) :
    KeptOut s0 (execFrcp slot w t s) := by
  unfold execFrcp
  repeat' first | with_reducible assumption | with_reducible apply sfuRow_kept

theorem execFrsq_kept (slot : Nat) (w : Insn) (t : Stamp) (s : State) {s0 : State} (h0 : Kept s0 s) :
    KeptOut s0 (execFrsq slot w t s) := by
  unfold execFrsq
  repeat' first | with_reducible assumption | with_reducible apply sfuRow_kept

theorem execFsqrt_kept (slot : Nat) (w : Insn) (t : Stamp) (s : State) {s0 : State} (h0 : Kept s0 s) :
    KeptOut s0 (execFsqrt slot w t s) := by
  unfold execFsqrt
  repeat' first | with_reducible assumption | with_reducible apply sfuRow_kept

theorem execFexp2_kept (slot : Nat) (w : Insn) (t : Stamp) (s : State) {s0 : State} (h0 : Kept s0 s) :
    KeptOut s0 (execFexp2 slot w t s) := by
  unfold execFexp2
  repeat' first | with_reducible assumption | with_reducible apply sfuRow_kept

theorem execFlog2_kept (slot : Nat) (w : Insn) (t : Stamp) (s : State) {s0 : State} (h0 : Kept s0 s) :
    KeptOut s0 (execFlog2 slot w t s) := by
  unfold execFlog2
  repeat' first | with_reducible assumption | with_reducible apply sfuRow_kept

theorem execFsin_kept (slot : Nat) (w : Insn) (t : Stamp) (s : State) {s0 : State} (h0 : Kept s0 s) :
    KeptOut s0 (execFsin slot w t s) := by
  unfold execFsin
  repeat' first | with_reducible assumption | with_reducible apply sfuRow_kept

theorem execFcos_kept (slot : Nat) (w : Insn) (t : Stamp) (s : State) {s0 : State} (h0 : Kept s0 s) :
    KeptOut s0 (execFcos slot w t s) := by
  unfold execFcos
  repeat' first | with_reducible assumption | with_reducible apply sfuRow_kept

theorem execFfract_kept (slot : Nat) (w : Insn) (t : Stamp) (s : State) {s0 : State} (h0 : Kept s0 s) :
    KeptOut s0 (execFfract slot w t s) := by
  unfold execFfract
  repeat' first | with_reducible assumption | with_reducible apply sfuRow_kept

theorem execFrnd_kept (slot : Nat) (w : Insn) (t : Stamp) (s : State) {s0 : State} (h0 : Kept s0 s) :
    KeptOut s0 (execFrnd slot w t s) := by
  unfold execFrnd
  repeat' first | with_reducible assumption | with_reducible apply groupRow_kept

theorem halfRow_kept (slot : Nat) (w : Insn) (t : Stamp) (s : State) (op : Nat) (f :
    IWord → FVal → FVal → FVal → FVal) {s0 : State} (h0 : Kept s0 s) :
    KeptOut s0 (halfRow slot w t s op f) := by
  unfold halfRow
  repeat' first | with_reducible assumption | with_reducible apply groupRow_kept

theorem execHadd2_kept (slot : Nat) (w : Insn) (t : Stamp) (s : State) {s0 : State} (h0 : Kept s0 s) :
    KeptOut s0 (execHadd2 slot w t s) := by
  unfold execHadd2
  repeat' first | with_reducible assumption | with_reducible apply halfRow_kept

theorem execHmul2_kept (slot : Nat) (w : Insn) (t : Stamp) (s : State) {s0 : State} (h0 : Kept s0 s) :
    KeptOut s0 (execHmul2 slot w t s) := by
  unfold execHmul2
  repeat' first | with_reducible assumption | with_reducible apply halfRow_kept

theorem execHfma2_kept (slot : Nat) (w : Insn) (t : Stamp) (s : State) {s0 : State} (h0 : Kept s0 s) :
    KeptOut s0 (execHfma2 slot w t s) := by
  unfold execHfma2
  repeat' first | with_reducible assumption | with_reducible apply halfRow_kept

theorem execHmin2_kept (slot : Nat) (w : Insn) (t : Stamp) (s : State) {s0 : State} (h0 : Kept s0 s) :
    KeptOut s0 (execHmin2 slot w t s) := by
  unfold execHmin2
  repeat' first | with_reducible assumption | with_reducible apply halfRow_kept

theorem execHmax2_kept (slot : Nat) (w : Insn) (t : Stamp) (s : State) {s0 : State} (h0 : Kept s0 s) :
    KeptOut s0 (execHmax2 slot w t s) := by
  unfold execHmax2
  repeat' first | with_reducible assumption | with_reducible apply halfRow_kept

theorem execHcmp2_kept (slot : Nat) (w : Insn) (t : Stamp) (s : State) {s0 : State} (h0 : Kept s0 s) :
    KeptOut s0 (execHcmp2 slot w t s) := by
  unfold execHcmp2
  repeat' first | with_reducible assumption | with_reducible apply groupRow_kept

theorem convRow_kept (slot : Nat) (w : Insn) (t : Stamp) (s : State) (op : Nat) (draws : IWord → Bool) (f :
    Group → IWord → Nat → Nat → Nat × NumEvent) {s0 : State} (h0 : Kept s0 s) :
    KeptOut s0 (convRow slot w t s op draws f) := by
  unfold convRow
  repeat' first | with_reducible assumption | with_reducible apply groupRow_kept

theorem execCvtf_kept (slot : Nat) (w : Insn) (t : Stamp) (s : State) {s0 : State} (h0 : Kept s0 s) :
    KeptOut s0 (execCvtf slot w t s) := by
  unfold execCvtf
  repeat' first | with_reducible assumption | with_reducible apply convRow_kept

theorem execCvtfi_kept (slot : Nat) (w : Insn) (t : Stamp) (s : State) {s0 : State} (h0 : Kept s0 s) :
    KeptOut s0 (execCvtfi slot w t s) := by
  unfold execCvtfi
  repeat' first | with_reducible assumption | with_reducible apply groupRow_kept

theorem execCvtif_kept (slot : Nat) (w : Insn) (t : Stamp) (s : State) {s0 : State} (h0 : Kept s0 s) :
    KeptOut s0 (execCvtif slot w t s) := by
  unfold execCvtif
  repeat' first | with_reducible assumption | with_reducible apply convRow_kept

theorem execBscale_kept (slot : Nat) (w : Insn) (t : Stamp) (s : State) {s0 : State} (h0 : Kept s0 s) :
    KeptOut s0 (execBscale slot w t s) := by
  unfold execBscale
  repeat' first | with_reducible assumption | with_reducible apply groupRow_kept

theorem execBquant_kept (slot : Nat) (w : Insn) (t : Stamp) (s : State) {s0 : State} (h0 : Kept s0 s) :
    KeptOut s0 (execBquant slot w t s) := by
  unfold execBquant
  repeat' first | with_reducible assumption | with_reducible apply convRow_kept

theorem execBdeq_kept (slot : Nat) (w : Insn) (t : Stamp) (s : State) {s0 : State} (h0 : Kept s0 s) :
    KeptOut s0 (execBdeq slot w t s) := by
  unfold execBdeq
  repeat' first | with_reducible assumption | with_reducible apply groupRow_kept

theorem execShfl_kept (slot : Nat) (w : Insn) (t : Stamp) (s : State) {s0 : State} (h0 : Kept s0 s) :
    KeptOut s0 (execShfl slot w t s) := by
  unfold execShfl
  repeat' first
    | with_reducible intro _ | with_reducible assumption | with_reducible apply putGroup_kept
    | with_reducible apply issue_kept

theorem execReadlane_kept (slot : Nat) (w : Insn) (t : Stamp) (s : State) {s0 : State} (h0 : Kept s0 s) :
    KeptOut s0 (execReadlane slot w t s) := by
  unfold execReadlane
  repeat' first
    | with_reducible intro _ | with_reducible assumption | with_reducible apply putGroup_kept
    | with_reducible apply issue_kept

theorem execBallot_kept (slot : Nat) (w : Insn) (t : Stamp) (s : State) {s0 : State} (h0 : Kept s0 s) :
    KeptOut s0 (execBallot slot w t s) := by
  unfold execBallot
  repeat' first | with_reducible assumption | with_reducible apply groupRow_kept

theorem execReduce_kept (slot : Nat) (w : Insn) (t : Stamp) (s : State) {s0 : State} (h0 : Kept s0 s) :
    KeptOut s0 (execReduce slot w t s) := by
  unfold execReduce
  repeat' first | with_reducible assumption | with_reducible apply groupRow_kept

theorem sentBefore_kept (s : State) (rs : List Access) (fr : Nat) {s0 : State} (h0 : Kept s0 s) :
    Kept s0 (sentBefore s rs fr) := by
  unfold sentBefore
  repeat' first
    | with_reducible intro _ | with_reducible assumption | with_reducible apply Kept.ite
    | with_reducible apply admitted_kept | with_reducible apply addAccess_kept | with_reducible apply foldl_kept

theorem globalAccess_kept (s : State) (slot : Nat) (g : Group) (w : Insn) (pc : Nat) (active : Word) (fr : Nat)
    (client : Client) (need : AccessNeed) (width : Nat) (lanes : List (Nat × Nat)) (mk : Home → Nat → List
    (Nat × Nat) → List AccKind) (after : Group → Group) {s0 : State} (h0 : Kept s0 s) :
    Kept s0 (globalAccess s slot g w pc active fr client need width lanes mk after) := by
  unfold globalAccess
  repeat' first
    | with_reducible intro _ | with_reducible assumption | with_reducible apply Kept.ite
    | with_reducible apply enterFabric_kept | with_reducible apply putGroup_kept
    | with_reducible apply sentBefore_kept | with_reducible apply groupFault_kept | with_reducible apply foldl_kept
    | split

theorem loadBody_kept (w : Insn) (scalar : Bool) (addr : Group → IWord → Nat → Nat) (x0 : State) (x1 : Nat) (x2 :
    Group) (x3 : IWord) (x4 : Nat) (x5 : Word) (x6 : Nat) {s0 : State} (h0 : Kept s0 x0) :
    Kept s0 (loadBody w scalar addr x0 x1 x2 x3 x4 x5 x6) := by
  unfold loadBody
  repeat' first | with_reducible assumption | with_reducible apply globalAccess_kept

theorem storeBody_kept (w : Insn) (mine : Group → IWord → Word → List Nat) (addr : Group → IWord → Nat → Nat) (x0 :
    State) (x1 : Nat) (x2 : Group) (x3 : IWord) (x4 : Nat) (x5 : Word) (x6 : Nat) {s0 : State} (h0 : Kept s0 x0) :
    Kept s0 (storeBody w mine addr x0 x1 x2 x3 x4 x5 x6) := by
  unfold storeBody
  repeat' first | with_reducible assumption | with_reducible apply globalAccess_kept

theorem execLd_kept (slot : Nat) (w : Insn) (t : Stamp) (s : State) {s0 : State} (h0 : Kept s0 s) :
    KeptOut s0 (execLd slot w t s) := by
  unfold execLd
  repeat' first
    | with_reducible intro _ | with_reducible assumption | with_reducible apply loadBody_kept
    | with_reducible apply issue_kept

theorem execSt_kept (slot : Nat) (w : Insn) (t : Stamp) (s : State) {s0 : State} (h0 : Kept s0 s) :
    KeptOut s0 (execSt slot w t s) := by
  unfold execSt
  repeat' first
    | with_reducible intro _ | with_reducible assumption | with_reducible apply storeBody_kept
    | with_reducible apply issue_kept

theorem execSld_kept (slot : Nat) (w : Insn) (t : Stamp) (s : State) {s0 : State} (h0 : Kept s0 s) :
    KeptOut s0 (execSld slot w t s) := by
  unfold execSld
  repeat' first
    | with_reducible intro _ | with_reducible assumption | with_reducible apply loadBody_kept
    | with_reducible apply issue_kept

theorem privateBody_kept (w : Insn) (body : Body) (x0 : State) (x1 : Nat) (x2 : Group) (x3 : IWord) (x4 : Nat) (x5 :
    Word) (x6 : Nat) {s0 : State} (k_body : ∀ (a0 : State) (a1 : Nat) (a2 : Group) (a3 : IWord) (a4 : Nat) (a5 : Word)
    (a6 : Nat), Kept s0 a0 → Kept s0 (body a0 a1 a2 a3 a4 a5 a6)) (h0 : Kept s0 x0) :
    Kept s0 (privateBody w body x0 x1 x2 x3 x4 x5 x6) := by
  unfold privateBody
  repeat' first
    | with_reducible assumption | with_reducible apply groupFault_kept | with_reducible apply k_body | split

theorem execLdp_kept (slot : Nat) (w : Insn) (t : Stamp) (s : State) {s0 : State} (h0 : Kept s0 s) :
    KeptOut s0 (execLdp slot w t s) := by
  unfold execLdp
  repeat' first
    | with_reducible intro _ | with_reducible assumption | with_reducible apply loadBody_kept
    | with_reducible apply privateBody_kept | with_reducible apply issue_kept

theorem execStp_kept (slot : Nat) (w : Insn) (t : Stamp) (s : State) {s0 : State} (h0 : Kept s0 s) :
    KeptOut s0 (execStp slot w t s) := by
  unfold execStp
  repeat' first
    | with_reducible intro _ | with_reducible assumption | with_reducible apply storeBody_kept
    | with_reducible apply privateBody_kept | with_reducible apply issue_kept

theorem putWg_kept (s : State) (wg : Nat) (x : Workgroup) {s0 : State} (h0 : Kept s0 s) :
    Kept s0 (putWg s wg x) := by
  unfold putWg
  repeat' first | with_reducible assumption | (simp only [kept_mk]; with_reducible apply Kept.conj)

theorem localAccess_kept (w : Insn) (n : Nat) (addr : Group → IWord → Nat → Nat) (f : State → Workgroup → Group → List
    (Nat × Nat) → Workgroup × Group) (x0 : State) (x1 : Nat) (x2 : Group) (x3 : IWord) (x4 : Nat) (x5 : Word) (x6 :
    Nat) {s0 : State} (h0 : Kept s0 x0) :
    Kept s0 (localAccess w n addr f x0 x1 x2 x3 x4 x5 x6) := by
  unfold localAccess
  repeat' first
    | with_reducible assumption | with_reducible apply Kept.ite | with_reducible apply putWg_kept
    | with_reducible apply putGroup_kept | with_reducible apply groupFault_kept | split

theorem execLdl_kept (slot : Nat) (w : Insn) (t : Stamp) (s : State) {s0 : State} (h0 : Kept s0 s) :
    KeptOut s0 (execLdl slot w t s) := by
  unfold execLdl
  repeat' first
    | with_reducible intro _ | with_reducible assumption | with_reducible apply localAccess_kept
    | with_reducible apply issue_kept

theorem execStl_kept (slot : Nat) (w : Insn) (t : Stamp) (s : State) {s0 : State} (h0 : Kept s0 s) :
    KeptOut s0 (execStl slot w t s) := by
  unfold execStl
  repeat' first
    | with_reducible intro _ | with_reducible assumption | with_reducible apply localAccess_kept
    | with_reducible apply issue_kept

theorem execAtom_kept (slot : Nat) (w : Insn) (t : Stamp) (s : State) {s0 : State} (h0 : Kept s0 s) :
    KeptOut s0 (execAtom slot w t s) := by
  unfold execAtom
  repeat' first
    | with_reducible intro _ | with_reducible assumption | with_reducible apply Kept.ite
    | with_reducible apply globalAccess_kept | with_reducible apply issue_kept
    | with_reducible apply groupFault_kept | split

theorem execAtoml_kept (slot : Nat) (w : Insn) (t : Stamp) (s : State) {s0 : State} (h0 : Kept s0 s) :
    KeptOut s0 (execAtoml slot w t s) := by
  unfold execAtoml
  repeat' first
    | with_reducible intro _ | with_reducible assumption | with_reducible apply Kept.ite
    | with_reducible apply localAccess_kept | with_reducible apply issue_kept

theorem execFence_kept (slot : Nat) (w : Insn) (t : Stamp) (s : State) {s0 : State} (h0 : Kept s0 s) :
    KeptOut s0 (execFence slot w t s) := by
  unfold execFence
  repeat' first
    | with_reducible intro _ | with_reducible assumption | with_reducible apply Kept.ite
    | with_reducible apply putGroup_kept | with_reducible refine publish_kept_done (by assumption) ?_
    | with_reducible refine publish_kept_held (by assumption) ?_
    | with_reducible refine publish_kept_killed (by assumption) ?_ | with_reducible apply issue_kept | split

theorem execBar_kept (slot : Nat) (w : Insn) (t : Stamp) (s : State) {s0 : State} (h0 : Kept s0 s) :
    KeptOut s0 (execBar slot w t s) := by
  unfold execBar
  repeat' first
    | with_reducible intro _ | with_reducible assumption | with_reducible apply releaseBarrier_kept
    | with_reducible apply putGroup_kept | with_reducible apply issue_kept

theorem execLoadReturn_kept (slot num : Nat) (t : Stamp) (s : State) {s0 : State} (h0 : Kept s0 s) :
    KeptOut s0 (execLoadReturn slot num t s) := by
  unfold execLoadReturn
  repeat' first
    | with_reducible intro _ | with_reducible assumption | with_reducible apply KeptOut.ite
    | with_reducible apply State_upTo_kept | with_reducible apply putGroup_kept
    | with_reducible apply reapGroup_kept | with_reducible apply removeAccess_kept
    | with_reducible apply groupFault_kept | with_reducible apply foldl_kept | with_reducible apply KeptOut.next
    | split | dsimp only

theorem pushTrace_kept (s : State) (kind source : Nat) (payload : Dword) {s0 : State} (h0 : Kept s0 s) :
    Kept s0 (pushTrace s kind source payload) := by
  unfold pushTrace
  repeat' first
    | with_reducible assumption | with_reducible apply Kept.ite
    | (simp only [kept_mk]; with_reducible apply Kept.conj)

theorem traceMarker_kept (s : State) (tenant : Nat) (value : Dword) {s0 : State} (h0 : Kept s0 s) :
    Kept s0 (traceMarker s tenant value) := by
  unfold traceMarker
  repeat' first | with_reducible assumption | with_reducible apply Kept.ite | with_reducible apply pushTrace_kept

theorem traceMark_kept (s : State) (core : Nat) (value : Word) {s0 : State} (h0 : Kept s0 s) :
    Kept s0 (traceMark s core value) := by
  unfold traceMark
  repeat' first | with_reducible assumption | with_reducible apply Kept.ite | with_reducible apply pushTrace_kept

theorem traceHeader_kept (s : State) (router : Nat) (header : Dword) {s0 : State} (h0 : Kept s0 s) :
    Kept s0 (traceHeader s router header) := by
  unfold traceHeader
  repeat' first | with_reducible assumption | with_reducible apply Kept.ite | with_reducible apply pushTrace_kept

theorem execBra_kept (slot : Nat) (w : Insn) (t : Stamp) (s : State) {s0 : State} (h0 : Kept s0 s) :
    KeptOut s0 (execBra slot w t s) := by
  unfold execBra
  repeat' first
    | with_reducible intro _ | with_reducible assumption | with_reducible apply putGroup_kept
    | with_reducible apply issue_kept

theorem execBrx_kept (slot : Nat) (w : Insn) (t : Stamp) (s : State) {s0 : State} (h0 : Kept s0 s) :
    KeptOut s0 (execBrx slot w t s) := by
  unfold execBrx
  repeat' first
    | with_reducible intro _ | with_reducible assumption | with_reducible apply Kept.ite
    | with_reducible apply putGroup_kept | with_reducible apply issue_kept | with_reducible apply groupFault_kept

theorem execCall_kept (slot : Nat) (w : Insn) (t : Stamp) (s : State) {s0 : State} (h0 : Kept s0 s) :
    KeptOut s0 (execCall slot w t s) := by
  unfold execCall
  repeat' first
    | with_reducible intro _ | with_reducible assumption | with_reducible apply putGroup_kept
    | with_reducible apply issue_kept

theorem execExit_kept (slot : Nat) (w : Insn) (t : Stamp) (s : State) {s0 : State} (h0 : Kept s0 s) :
    KeptOut s0 (execExit slot w t s) := by
  unfold execExit
  repeat' first
    | with_reducible intro _ | with_reducible assumption | with_reducible apply Kept.ite
    | with_reducible apply releaseBarrier_kept | with_reducible apply exitGroup_kept
    | with_reducible apply putGroup_kept | with_reducible apply issue_kept

theorem execMark_kept (slot : Nat) (w : Insn) (t : Stamp) (s : State) {s0 : State} (h0 : Kept s0 s) :
    KeptOut s0 (execMark slot w t s) := by
  unfold execMark
  repeat' first
    | with_reducible intro _ | with_reducible assumption | with_reducible apply traceMark_kept
    | with_reducible apply putGroup_kept | with_reducible apply issue_kept

end Sys2Proof.Laws
end

