-- ==== Sys2Proof/Laws/KeptQueues.lean ====
section
/-!
SUPPORT. Every operation of the Madder, packets, scheduling, transfers and signals keeps the queue of commands, the fuses and the LPDDR cells, each lemma
for a state that another state leads to.
-/

namespace Sys2Proof.Laws

open Machine

theorem modOp_kept (s : State) (op : Nat) (f : MOp → MOp) {s0 : State} (h0 : Kept s0 s) :
    Kept s0 (modOp s op f) := by
  unfold modOp
  repeat' first | with_reducible assumption | (simp only [kept_mk]; with_reducible apply Kept.conj)

theorem tableKill_kept (s : State) (c : CtxId) (va : Nat) (e : XFault) {s0 : State} (h0 : Kept s0 s) :
    Kept s0 (tableKill s c va e) := by
  unfold tableKill
  repeat' first | with_reducible assumption | with_reducible apply Kept.ite | with_reducible apply killContext_kept

/-- The state of every answer keeps the three fields. -/
def KeptAt (s : State) : AtPacket → Prop
  | .nothing => True
  | .waiting v => Kept s v
  | .failed _ _ => True
  | .packet _ _ _ _ => True

theorem KeptAt.nothing {s : State} : KeptAt s (.nothing) := True.intro

theorem KeptAt.waiting {s v : State} (h : Kept s v) : KeptAt s (.waiting v) := h

theorem KeptAt.failed {s : State} {e0 : Nat} {e1 : Option XFault} : KeptAt s (.failed e0 e1) := True.intro

theorem KeptAt.packet {s : State} {e0 : Nat} {e1 : Nat} {e2 : Hdr} {e3 : List Byte} : KeptAt s
    (.packet e0 e1 e2 e3) := True.intro

theorem readUnits_kept (s : State) (q : QueueId) (va n : Nat) (found : List Byte → AtPacket) {s0 : State} (k_found : ∀
    (a0 : List Byte), KeptAt s0 (found a0)) (h0 : Kept s0 s) :
    KeptAt s0 (readUnits s q va n found) := by
  unfold readUnits
  repeat' first
    | with_reducible assumption | with_reducible apply KeptAt.waiting | with_reducible apply KeptAt.failed
    | with_reducible refine engineRead_kept_wait (by assumption) ?_ | with_reducible apply k_found | split

theorem packetAt_kept (s : State) (q : QueueId) {s0 : State} (h0 : Kept s0 s) :
    KeptAt s0 (packetAt s q) := by
  unfold packetAt
  repeat' first
    | with_reducible intro _ | with_reducible assumption | with_reducible apply KeptAt.nothing
    | with_reducible apply KeptAt.packet | with_reducible apply readUnits_kept | split | dsimp only

theorem packetAt_kept_waiting {s : State} {q : QueueId} {s0 sv : State} (hEq : packetAt s q = .waiting sv) (h0 :
    Kept s0 s) : Kept s0 sv := by
  have k := packetAt_kept s q h0
  rw [hEq] at k
  exact k

theorem startPkt_kept (s : State) (q : QueueId) (va endVa : Nat) (h : Hdr) {s0 : State} (h0 : Kept s0 s) :
    Kept s0 (startPkt s q va endVa h).1 := by
  unfold startPkt
  repeat' first | with_reducible assumption | with_reducible apply modQueue_kept

theorem startPkt_kept_eq {s : State} {q : QueueId} {va endVa : Nat} {h : Hdr} {s0 sv : State} {r : Pkt} (hEq :
    startPkt s q va endVa h = (sv, r)) (h0 : Kept s0 s) : Kept s0 sv := by
  have k := startPkt_kept s q va endVa h h0
  rw [hEq] at k
  exact k

theorem chainFault_kept (s : State) (q : QueueId) (va : Nat) (e : Option XFault) {s0 : State} (h0 : Kept s0 s) :
    Kept s0 (chainFault s q va e) := by
  unfold chainFault
  repeat' first
    | with_reducible assumption | with_reducible apply tableKill_kept | with_reducible apply dropReads_kept
    | with_reducible apply chainError_kept | split

theorem packetRow_kept (s : State) (q : QueueId) (type : Nat) (mine : List Byte → Bool) (hold :
    State → List Byte → Option State) (body : State → Pkt → List Byte → State) {s0 : State} (k_hold : ∀ (a0 : State)
    (a1 : List Byte), Kept s0 a0 → KeptOpt s0 (hold a0 a1)) (k_body : ∀ (a0 : State) (a1 : Pkt) (a2 :
    List Byte), Kept s0 a0 → Kept s0 (body a0 a1 a2)) (h0 : Kept s0 s) :
    Kept s0 (packetRow s q type mine hold body) := by
  unfold packetRow
  repeat' first
    | with_reducible assumption | with_reducible apply Kept.ite
    | with_reducible refine packetAt_kept_waiting (by assumption) ?_ | with_reducible apply useReads_kept
    | with_reducible apply chainFault_kept | with_reducible apply startPkt_kept | with_reducible apply k_body
    | with_reducible refine KeptOpt.get (k_hold _ _ ?_) (by assumption) | split

theorem anyTime_kept (x0 : State) (x1 : List Byte) {s0 : State} (h0 : Kept s0 x0) :
    KeptOpt s0 (anyTime x0 x1) := by
  unfold anyTime
  repeat' first | with_reducible apply KeptOpt.none

theorem anyTime_kept_eq {x0 : State} {x1 : List Byte} {s0 sv : State} (hEq : anyTime x0 x1 = some sv) (h0 :
    Kept s0 x0) : Kept s0 sv :=
  anyTime_kept x0 x1 h0 _ hEq

theorem badField_kept (s : State) (q : QueueId) (p : Pkt) {s0 : State} (h0 : Kept s0 s) :
    Kept s0 (badField s q p) := by
  unfold badField
  repeat' first
    | with_reducible assumption | with_reducible apply modQueue_kept | with_reducible apply chainError_kept

theorem wordError_kept (s : State) (q : QueueId) (p code va : Nat) {s0 : State} (h0 : Kept s0 s) :
    Kept s0 (wordError s q p code va) := by
  unfold wordError
  repeat' first | with_reducible assumption | with_reducible apply errorPkt_kept

theorem signalFault_kept (s : State) (q : QueueId) (p va : Nat) (e : Option XFault) {s0 : State} (h0 : Kept s0 s) :
    Kept s0 (signalFault s q p va e) := by
  unfold signalFault
  repeat' first
    | with_reducible assumption | with_reducible apply tableKill_kept | with_reducible apply wordError_kept | split

theorem useLocal_kept (s : State) (core n : Nat) {s0 : State} (h0 : Kept s0 s) :
    Kept s0 (useLocal s core n) := by
  unfold useLocal
  repeat' first | with_reducible assumption | (simp only [kept_mk]; with_reducible apply Kept.conj)

theorem addWg_kept (s : State) (wg : Workgroup) (groups : List (Nat × Group)) {s0 : State} (h0 : Kept s0 s) :
    Kept s0 (addWg s wg groups) := by
  unfold addWg
  repeat' first
    | with_reducible assumption | with_reducible apply useLocal_kept
    | (simp only [kept_mk]; with_reducible apply Kept.conj)

theorem readArgs_kept (s : State) (q : QueueId) (core va : Nat) {s0 : State} (h0 : Kept s0 s) :
    KeptRead s0 (readArgs s q core va) := by
  unfold readArgs
  repeat' first | with_reducible assumption | with_reducible apply engineRead_kept

theorem readArgs_kept_wait {s : State} {q : QueueId} {core va : Nat} {s0 sv : State} (hEq :
    readArgs s q core va = .wait sv) (h0 : Kept s0 s) : Kept s0 sv := by
  have k := readArgs_kept s q core va h0
  rw [hEq] at k
  exact k

theorem argsFault_kept (s : State) (q : QueueId) (tag : Word) (core va : Nat) (e : Option XFault) {s0 : State} (h0 :
    Kept s0 s) :
    Kept s0 (argsFault s q tag core va e) := by
  unfold argsFault
  repeat' first | with_reducible assumption | with_reducible apply killContext_kept

theorem withArgs_kept (s : State) (q : QueueId) (tag : Word) (core va : Nat) (launch : State → List Byte → State)
    {s0 : State} (k_launch : ∀ (a0 : State) (a1 : List Byte), Kept s0 a0 → Kept s0 (launch a0 a1)) (h0 : Kept s0 s) :
    Kept s0 (withArgs s q tag core va launch) := by
  unfold withArgs
  repeat' first
    | with_reducible assumption | with_reducible refine readArgs_kept_wait (by assumption) ?_
    | with_reducible apply useReads_kept | with_reducible apply argsFault_kept | with_reducible apply k_launch
    | split

theorem launchWg_kept (s : State) (d : Nat) (x : Dispatch) (core : Nat) (args : List Byte) {s0 : State} (h0 :
    Kept s0 s) :
    Kept s0 (launchWg s d x core args) := by
  unfold launchWg
  repeat' first
    | with_reducible assumption | with_reducible apply addWg_kept | with_reducible apply modQueue_kept
    | (simp only [kept_mk]; with_reducible apply Kept.conj)

theorem takeBack_kept (s : State) (e : Nat × Workgroup) {s0 : State} (h0 : Kept s0 s) :
    Kept s0 (takeBack s e) := by
  unfold takeBack
  repeat' first
    | with_reducible intro _ | with_reducible assumption | with_reducible apply leaveSlot_kept
    | with_reducible apply foldl_kept | (simp only [kept_mk]; with_reducible apply Kept.conj)

theorem policyFirst_kept (s : State) (core : Nat) {s0 : State} (h0 : Kept s0 s) :
    Kept s0 (policyFirst s core) := by
  unfold policyFirst
  repeat' first
    | with_reducible intro _ | with_reducible assumption | with_reducible apply takeBack_kept
    | with_reducible apply foldl_kept

theorem stopWgs_kept (s : State) (p : Nat → Bool) {s0 : State} (h0 : Kept s0 s) :
    Kept s0 (stopWgs s p) := by
  unfold stopWgs
  repeat' first | with_reducible assumption | (simp only [kept_mk]; with_reducible apply Kept.conj)

theorem forceStop_kept (s : State) (p : Workgroup → Bool) {s0 : State} (h0 : Kept s0 s) :
    Kept s0 (forceStop s p) := by
  unfold forceStop
  repeat' first | with_reducible assumption | with_reducible apply stopWgs_kept

theorem preemptQueue_kept (s : State) (q : QueueId) (code : Nat) {s0 : State} (h0 : Kept s0 s) :
    Kept s0 (preemptQueue s q code) := by
  unfold preemptQueue
  repeat' first
    | with_reducible assumption | with_reducible apply Kept.ite | with_reducible apply settleQueue_kept
    | with_reducible apply forceStop_kept | with_reducible apply modQueue_kept
    | (simp only [kept_mk]; with_reducible apply Kept.conj)

theorem xferError_kept (s : State) (o : XferOp) (code va off : Nat) {s0 : State} (h0 : Kept s0 s) :
    Kept s0 (xferError s o code va off) := by
  unfold xferError
  repeat' first | with_reducible assumption | with_reducible apply errorPkt_kept

theorem dropChannel_kept (s : State) (ch : Nat) {s0 : State} (h0 : Kept s0 s) :
    Kept s0 (dropChannel s ch) := by
  unfold dropChannel
  repeat' first | with_reducible assumption | (simp only [kept_mk]; with_reducible apply Kept.conj)

theorem xferFault_kept (s : State) (o : XferOp) (e : XFault) (va off : Nat) {s0 : State} (h0 : Kept s0 s) :
    Kept s0 (xferFault s o e va off) := by
  unfold xferFault
  repeat' first
    | with_reducible assumption | with_reducible apply dropChannel_kept | with_reducible apply tableKill_kept
    | with_reducible apply xferError_kept

theorem putXfer_kept (s : State) (o : XferOp) {s0 : State} (h0 : Kept s0 s) :
    Kept s0 (putXfer s o) := by
  unfold putXfer
  repeat' first | with_reducible assumption | (simp only [kept_mk]; with_reducible apply Kept.conj)

theorem issueReads_kept (s : State) (o : XferOp) (x0 : Nat) {s0 : State} (h0 : Kept s0 s) :
    Kept s0 (issueReads s o x0) := by
  induction x0 generalizing s o with
    | zero =>
      unfold issueReads
      repeat' first
        | with_reducible assumption | with_reducible apply Kept.ite | with_reducible apply enterFabric_kept
        | with_reducible apply xferFault_kept | with_reducible apply putXfer_kept | split
    | succ n ih =>
      unfold issueReads
      repeat' first
        | with_reducible assumption | with_reducible apply Kept.ite | with_reducible apply ih
        | with_reducible apply enterFabric_kept | with_reducible apply xferFault_kept
        | with_reducible apply putXfer_kept | split

theorem notePoison_kept (s : State) (o : XferOp) (off n : Nat) {s0 : State} (h0 : Kept s0 s) :
    Kept s0 (notePoison s o off n).1 := by
  unfold notePoison
  repeat' first | with_reducible assumption | with_reducible apply detect_kept | split

theorem notePoison_kept_eq {s : State} {o : XferOp} {off n : Nat} {s0 sv : State} {r : XferOp} (hEq :
    notePoison s o off n = (sv, r)) (h0 : Kept s0 s) : Kept s0 sv := by
  have k := notePoison_kept s o off n h0
  rw [hEq] at k
  exact k

theorem issueWrites_kept (s : State) (o : XferOp) (limit : Nat) (x0 : Nat) {s0 : State} (h0 : Kept s0 s) :
    Kept s0 (issueWrites s o limit x0) := by
  induction x0 generalizing s o limit with
    | zero =>
      unfold issueWrites
      repeat' first
        | with_reducible assumption | with_reducible apply Kept.ite | with_reducible apply enterFabric_kept
        | with_reducible apply xferFault_kept | with_reducible apply notePoison_kept | with_reducible apply putXfer_kept
        | split
    | succ n ih =>
      unfold issueWrites
      repeat' first
        | with_reducible assumption | with_reducible apply Kept.ite | with_reducible apply ih
        | with_reducible apply enterFabric_kept | with_reducible apply xferFault_kept
        | with_reducible apply notePoison_kept | with_reducible apply putXfer_kept | split

theorem pumpXfer_kept (s : State) (ch : Nat) {s0 : State} (h0 : Kept s0 s) :
    Kept s0 (pumpXfer s ch) := by
  unfold pumpXfer
  repeat' first
    | with_reducible assumption | with_reducible apply Kept.ite | with_reducible apply issueWrites_kept
    | with_reducible apply issueReads_kept | split | dsimp only

theorem takeChannel_kept (s : State) (ch : Nat) {s0 : State} (h0 : Kept s0 s) :
    Kept s0 (takeChannel s ch) := by
  unfold takeChannel
  repeat' first
    | with_reducible assumption | with_reducible apply Kept.ite | with_reducible apply pumpXfer_kept
    | with_reducible apply putXfer_kept | (simp only [kept_mk]; with_reducible apply Kept.conj) | split

theorem saveXfer_kept (s : State) (ch : Nat) (o : XferOp) {s0 : State} (h0 : Kept s0 s) :
    Kept s0 (saveXfer s ch o) := by
  unfold saveXfer
  repeat' first | with_reducible assumption | (simp only [kept_mk]; with_reducible apply Kept.conj)

theorem wordAccess_kept (s : State) (q : QueueId) (client : Client) (h : Home) (l : Leaf) (va : Nat) (kind :
    Nat → AccKind) (lock : Bool) {s0 : State} (h0 : Kept s0 s) :
    Kept s0 (wordAccess s q client h l va kind lock) := by
  unfold wordAccess
  repeat' first | with_reducible assumption | with_reducible apply enterFabric_kept

theorem visibleHold_kept (q : QueueId) (s : State) (bs : List Byte) {s0 : State} (h0 : Kept s0 s) :
    KeptOpt s0 (visibleHold q s bs) := by
  unfold visibleHold
  repeat' first
    | with_reducible assumption | with_reducible apply KeptOpt.some | with_reducible apply KeptOpt.none | split

theorem visibleHold_kept_eq {q : QueueId} {s : State} {bs : List Byte} {s0 sv : State} (hEq :
    visibleHold q s bs = some sv) (h0 : Kept s0 s) : Kept s0 sv :=
  visibleHold_kept q s bs h0 _ hEq

theorem signalFails_kept (s : State) (q : QueueId) (o : SignalOp) (e : Option XFault) {s0 : State} (h0 : Kept s0 s) :
    Kept s0 (signalFails s q o e) := by
  unfold signalFails
  repeat' first | with_reducible assumption | with_reducible apply signalFault_kept

theorem sendSignal_kept (s : State) (q : QueueId) (o : SignalOp) (kind : Home → (Nat → AccKind) × Bool) {s0 : State}
    (h0 : Kept s0 s) :
    Kept s0 (sendSignal s q o kind) := by
  unfold sendSignal
  repeat' first
    | with_reducible assumption | with_reducible apply Kept.ite | with_reducible apply wordAccess_kept
    | with_reducible apply signalFails_kept | split

theorem putSignal_kept (s : State) (q : QueueId) (o : SignalOp) {s0 : State} (h0 : Kept s0 s) :
    Kept s0 (putSignal s q o) := by
  unfold putSignal
  repeat' first | with_reducible assumption | with_reducible apply modQueue_kept

theorem startSignal_kept (s : State) (q : QueueId) (p : Pkt) (bs : List Byte) (kind : SignalKind) {s0 : State} (h0 :
    Kept s0 s) :
    Kept s0 (startSignal s q p bs kind) := by
  unfold startSignal
  repeat' first
    | with_reducible assumption | with_reducible apply Kept.ite | with_reducible apply badField_kept
    | with_reducible apply putSignal_kept | with_reducible apply wordError_kept
    | with_reducible apply sendSignal_kept

theorem dropSem_kept (s : State) (c : CtxId) (va : Nat) {s0 : State} (h0 : Kept s0 s) :
    Kept s0 (dropSem s c va) := by
  unfold dropSem
  repeat' first | with_reducible assumption | with_reducible apply modCtx_kept

theorem sendSwap_kept (s : State) (q : QueueId) (o : SignalOp) (new : Dword) {s0 : State} (h0 : Kept s0 s) :
    Kept s0 (sendSwap s q o new) := by
  unfold sendSwap
  repeat' first
    | with_reducible assumption | with_reducible apply putSignal_kept | with_reducible apply sendSignal_kept

theorem stepRelease_kept (s : State) (q : QueueId) (o : SignalOp) (swapped : Bool) (w : Dword) {s0 : State} (h0 :
    Kept s0 s) :
    Kept s0 (stepRelease s q o swapped w) := by
  unfold stepRelease
  repeat' first
    | with_reducible assumption | with_reducible apply Kept.ite | with_reducible apply sendSwap_kept
    | with_reducible apply dropSem_kept | with_reducible apply completePkt_kept
    | with_reducible apply wordError_kept

theorem stepMax_kept (s : State) (q : QueueId) (o : SignalOp) (w : Dword) {s0 : State} (h0 : Kept s0 s) :
    Kept s0 (stepMax s q o w) := by
  unfold stepMax
  repeat' first
    | with_reducible assumption | with_reducible apply Kept.ite | with_reducible apply signalFails_kept
    | with_reducible apply sendSwap_kept | with_reducible apply completePkt_kept

theorem signalAnswered_kept (s : State) (q : QueueId) (o : SignalOp) (a : Access) {s0 : State} (h0 : Kept s0 s) :
    Kept s0 (signalAnswered s q o a) := by
  unfold signalAnswered
  repeat' first
    | with_reducible assumption | with_reducible apply Kept.ite | with_reducible apply signalFails_kept
    | with_reducible apply stepRelease_kept | with_reducible apply completePkt_kept
    | with_reducible apply sendSignal_kept | with_reducible apply stepMax_kept | split

theorem stepSignal_kept (s : State) (q : QueueId) (o : SignalOp) {s0 : State} (h0 : Kept s0 s) :
    Kept s0 (stepSignal s q o) := by
  unfold stepSignal
  repeat' first
    | with_reducible assumption | with_reducible apply Kept.ite | with_reducible apply signalAnswered_kept
    | with_reducible apply removeAccess_kept | split

theorem signalRow_kept (s : State) (q : QueueId) (type : Nat) (mine : List Byte → Bool) (kind : SignalKind) {s0 :
    State} (h0 : Kept s0 s) :
    Kept s0 (signalRow s q type mine kind) := by
  unfold signalRow
  repeat' first
    | with_reducible intro _ | with_reducible assumption | with_reducible apply Kept.ite
    | with_reducible apply startSignal_kept | with_reducible apply packetRow_kept
    | with_reducible apply visibleHold_kept | with_reducible apply stepSignal_kept | split

theorem holdSem_kept (s : State) (c : CtxId) (va : Nat) {s0 : State} (h0 : Kept s0 s) :
    Kept s0 (holdSem s c va) := by
  unfold holdSem
  repeat' first | with_reducible assumption | with_reducible apply modCtx_kept

theorem putWait_kept (s : State) (q : QueueId) (w : WaitRec) {s0 : State} (h0 : Kept s0 s) :
    Kept s0 (putWait s q w) := by
  unfold putWait
  repeat' first | with_reducible assumption | with_reducible apply modQueue_kept

theorem startEvaluation_kept (s : State) (q : QueueId) (r : Queue) (w : WaitRec) {s0 : State} (h0 : Kept s0 s) :
    Kept s0 (startEvaluation s q r w) := by
  unfold startEvaluation
  repeat' first
    | with_reducible assumption | with_reducible apply Kept.ite | with_reducible apply signalFault_kept
    | with_reducible apply wordAccess_kept | with_reducible apply putWait_kept | with_reducible apply wordError_kept
    | split

theorem takeSem_kept (s : State) (q : QueueId) (w : WaitRec) (v : Dword) {s0 : State} (h0 : Kept s0 s) :
    Kept s0 (takeSem s q w v) := by
  unfold takeSem
  repeat' first
    | with_reducible assumption | with_reducible apply Kept.ite | with_reducible apply signalFault_kept
    | with_reducible apply wordAccess_kept | with_reducible apply putWait_kept | with_reducible apply wordError_kept
    | split

theorem waitAnswered_kept (s : State) (q : QueueId) (w : WaitRec) (a : Access) {s0 : State} (h0 : Kept s0 s) :
    Kept s0 (waitAnswered s q w a) := by
  unfold waitAnswered
  repeat' first
    | with_reducible assumption | with_reducible apply Kept.ite | with_reducible apply holdSem_kept
    | with_reducible apply signalFault_kept | with_reducible apply takeSem_kept | with_reducible apply putWait_kept
    | with_reducible apply completePkt_kept | with_reducible apply wordError_kept

theorem stepWait_kept (s : State) (q : QueueId) (r : Queue) (w : WaitRec) {s0 : State} (h0 : Kept s0 s) :
    Kept s0 (stepWait s q r w) := by
  unfold stepWait
  repeat' first
    | with_reducible assumption | with_reducible apply Kept.ite | with_reducible apply waitAnswered_kept
    | with_reducible apply startEvaluation_kept | with_reducible apply removeAccess_kept | split

theorem startWait_kept (s : State) (q : QueueId) (p : Pkt) (bs : List Byte) (va : Nat) (sem : Bool) {s0 : State} (h0 :
    Kept s0 s) :
    Kept s0 (startWait s q p bs va sem) := by
  unfold startWait
  repeat' first
    | with_reducible assumption | with_reducible apply settleQueue_kept | with_reducible apply startEvaluation_kept
    | with_reducible apply putWait_kept | split | dsimp only

end Sys2Proof.Laws
end

