-- ==== Sys2Proof/Laws/KeptMemory.lean ====
section
/-!
SUPPORT. Every operation of device memory, start-up, queues, mailbox starts and compose keeps the queue of commands, the fuses and the LPDDR cells, each lemma
for a state that another state leads to.
-/

namespace Sys2Proof.Laws

open Machine

theorem countCe_kept (s : State) (pa : Nat) {s0 : State} (h0 : Kept s0 s) :
    Kept s0 (countCe s pa) := by
  unfold countCe
  repeat' first | with_reducible assumption | (simp only [kept_mk]; with_reducible apply Kept.conj)

theorem countUe_kept (s : State) {s0 : State} (h0 : Kept s0 s) :
    Kept s0 (countUe s) := by
  unfold countUe
  repeat' first | with_reducible assumption | (simp only [kept_mk]; with_reducible apply Kept.conj)

theorem checkSector_kept (s : State) (who : Option CtxId) (kind pa : Nat) (e : EccResult) {s0 : State} (h0 :
    Kept s0 s) :
    Kept s0 (checkSector s who kind pa e).1 := by
  unfold checkSector
  repeat' first
    | with_reducible assumption | with_reducible apply countCe_kept | with_reducible apply countUe_kept
    | with_reducible apply detect_kept | split

theorem checkSector_kept_eq {s : State} {who : Option CtxId} {kind pa : Nat} {e : EccResult} {s0 sv : State} {r :
    Bool} (hEq : checkSector s who kind pa e = (sv, r)) (h0 : Kept s0 s) : Kept s0 sv := by
  have k := checkSector_kept s who kind pa e h0
  rw [hEq] at k
  exact k

theorem readAccess_kept (s : State) (n : Nat) (a : Access) (pa : Nat) (at_ : Stamp) (ecc : List EccResult) {s0 :
    State} (h0 : Kept s0 s) :
    Kept s0 (readAccess s n a pa at_ ecc) := by
  unfold readAccess
  repeat' first
    | with_reducible intro _ | with_reducible assumption | with_reducible apply checkSector_kept
    | with_reducible apply modAccess_kept | with_reducible apply foldl_kept1 | split

theorem loseZeroWord_kept (s : State) (word : Nat) {s0 : State} (h0 : Kept s0 s) :
    Kept s0 (loseZeroWord s word) := by
  unfold loseZeroWord
  repeat' first | with_reducible assumption | (simp only [kept_mk]; with_reducible apply Kept.conj)

theorem vatCe_kept (s : State) {s0 : State} (h0 : Kept s0 s) :
    Kept s0 (vatCe s) := by
  unfold vatCe
  repeat' first | with_reducible assumption | (simp only [kept_mk]; with_reducible apply Kept.conj)

theorem vatUe_kept (s : State) {s0 : State} (h0 : Kept s0 s) :
    Kept s0 (vatUe s) := by
  unfold vatUe
  repeat' first | with_reducible assumption | (simp only [kept_mk]; with_reducible apply Kept.conj)

theorem recordVatUe_kept (s : State) (who : Option CtxId) (addr : RecAddr) (slice set way sector : Nat) {s0 : State}
    (h0 : Kept s0 s) :
    Kept s0 (recordVatUe s who addr slice set way sector) := by
  unfold recordVatUe
  repeat' first | with_reducible assumption | with_reducible apply vatUe_kept | with_reducible apply detect_kept

theorem checkStructure_kept (s : State) (table : Bool) (pa : Nat) (e : EccResult) {s0 : State} (h0 : Kept s0 s) :
    Kept s0 (checkStructure s table pa e).1 := by
  unfold checkStructure
  repeat' first
    | with_reducible assumption | with_reducible apply checkSector_kept | with_reducible apply countUe_kept | split
    | dsimp only

theorem checkStructure_kept_eq {s : State} {table : Bool} {pa : Nat} {e : EccResult} {s0 sv : State} {r : Bool} (hEq :
    checkStructure s table pa e = (sv, r)) (h0 : Kept s0 s) : Kept s0 sv := by
  have k := checkStructure_kept s table pa e h0
  rw [hEq] at k
  exact k

theorem readStructure_kept (s : State) (pa : Nat) (table : Bool) (ecc : List EccResult) {s0 : State} (h0 : Kept s0 s) :
    Kept s0 (readStructure s pa table ecc) := by
  unfold readStructure
  repeat' first
    | with_reducible intro _ | with_reducible assumption | with_reducible apply setLine_kept
    | with_reducible refine allocLine_kept_eq (by assumption) ?_ | with_reducible apply checkStructure_kept
    | with_reducible apply freeLru_kept | with_reducible apply foldl_kept1 | split | dsimp only

theorem readZeroWord_kept (s : State) (word n : Nat) (e : EccResult) {s0 : State} (h0 : Kept s0 s) :
    Kept s0 (readZeroWord s word n e) := by
  unfold readZeroWord
  repeat' first
    | with_reducible assumption | with_reducible apply Kept.ite | with_reducible apply loseZeroWord_kept
    | with_reducible apply countUe_kept | with_reducible apply countCe_kept | with_reducible apply detect_kept
    | split

theorem execLpddrRead_kept (what : LpddrTarget) (ecc : List EccResult) (t : Stamp) (s : State) {s0 : State} (h0 :
    Kept s0 s) :
    KeptOut s0 (execLpddrRead what ecc t s) := by
  unfold execLpddrRead
  repeat' first
    | with_reducible assumption | with_reducible apply Kept.ite | with_reducible apply KeptOut.ite
    | with_reducible apply State_upTo_kept | with_reducible apply readStructure_kept
    | with_reducible apply readZeroWord_kept | with_reducible apply readAccess_kept
    | with_reducible apply KeptOut.next | with_reducible apply KeptOut.fault | split | dsimp only

theorem checkSent_kept (s : State) (w : WriteBack) (e : EccResult) {s0 : State} (h0 : Kept s0 s) :
    Kept s0 (checkSent s w e).1 := by
  unfold checkSent
  repeat' first
    | with_reducible assumption | with_reducible apply recordVatUe_kept | with_reducible apply vatCe_kept | split

theorem checkSent_kept_eq {s : State} {w : WriteBack} {e : EccResult} {s0 sv : State} {r : WriteBack} (hEq :
    checkSent s w e = (sv, r)) (h0 : Kept s0 s) : Kept s0 sv := by
  have k := checkSent_kept s w e h0
  rw [hEq] at k
  exact k

theorem ackWriteBack_kept (s : State) (n : Nat) {s0 : State} (h0 : Kept s0 s) :
    Kept s0 (ackWriteBack s n) := by
  unfold ackWriteBack
  repeat' first | with_reducible assumption | (simp only [kept_mk]; with_reducible apply Kept.conj)

theorem execOscTracking_kept (ch : Nat) (ok : Bool) (t : Stamp) (s : State) {s0 : State} (h0 : Kept s0 s) :
    KeptOut s0 (execOscTracking ch ok t s) := by
  unfold execOscTracking
  repeat' first
    | with_reducible assumption | with_reducible apply KeptOut.ite | with_reducible apply State_upTo_kept
    | with_reducible apply pushRecord_kept | (simp only [kept_mk]; with_reducible apply Kept.conj)
    | with_reducible apply KeptOut.next

theorem execLpddrRefresh_kept (_ch : Nat) (_rfm : Bool) (t : Stamp) (s : State) {s0 : State} (h0 : Kept s0 s) :
    KeptOut s0 (execLpddrRefresh _ch _rfm t s) := by
  unfold execLpddrRefresh
  repeat' first
    | with_reducible assumption | with_reducible apply State_upTo_kept | with_reducible apply KeptOut.next

theorem execLinesResidentSample_kept (t : Stamp) (s : State) {s0 : State} (h0 : Kept s0 s) :
    KeptOut s0 (execLinesResidentSample t s) := by
  unfold execLinesResidentSample
  repeat' first
    | with_reducible assumption | with_reducible apply KeptOut.ite | with_reducible apply State_upTo_kept
    | (simp only [kept_mk]; with_reducible apply Kept.conj) | with_reducible apply KeptOut.next

theorem checkLineSector_kept (s : State) (pri : Nat) (ln : Line) (k : Nat) (e : EccResult) {s0 : State} (h0 :
    Kept s0 s) :
    Kept s0 (checkLineSector s pri ln k e).1 := by
  unfold checkLineSector
  repeat' first
    | with_reducible assumption | with_reducible apply evictLine_kept | with_reducible apply recordVatUe_kept
    | with_reducible apply setLine_kept | with_reducible apply vatCe_kept | split | dsimp only

theorem checkLineSector_kept_eq {s : State} {pri : Nat} {ln : Line} {k : Nat} {e : EccResult} {s0 sv : State} {r :
    Option Line} (hEq : checkLineSector s pri ln k e = (sv, r)) (h0 : Kept s0 s) : Kept s0 sv := by
  have k := checkLineSector_kept s pri ln k e h0
  rw [hEq] at k
  exact k

theorem checkLine_kept (s : State) (pri : Nat) (ln : Line) (secs : List Nat) (ecc : List EccResult) {s0 : State} (h0 :
    Kept s0 s) :
    Kept s0 (checkLine s pri ln secs ecc).1 := by
  unfold checkLine
  repeat' first
    | with_reducible intro _ | with_reducible assumption | with_reducible apply checkLineSector_kept
    | with_reducible apply foldl_kept1 | split

theorem checkLine_kept_eq {s : State} {pri : Nat} {ln : Line} {secs : List Nat} {ecc : List EccResult} {s0 sv : State}
    {r : Option Line} (hEq : checkLine s pri ln secs ecc = (sv, r)) (h0 : Kept s0 s) : Kept s0 sv := by
  have k := checkLine_kept s pri ln secs ecc h0
  rw [hEq] at k
  exact k

theorem checkTags_kept (s : State) (ln : Line) (x0 : TagCheck) {s0 : State} (h0 : Kept s0 s) :
    Kept s0 (checkTags s ln x0).1 := by
  unfold checkTags
  repeat' first
    | with_reducible assumption | with_reducible apply pushRecord_kept | with_reducible apply vatUe_kept
    | with_reducible apply vatCe_kept | with_reducible apply dropLine_kept | split

theorem checkTags_kept_eq {s : State} {ln : Line} {x0 : TagCheck} {s0 sv : State} {r : Option Line} (hEq :
    checkTags s ln x0 = (sv, r)) (h0 : Kept s0 s) : Kept s0 sv := by
  have k := checkTags_kept s ln x0 h0
  rw [hEq] at k
  exact k

theorem checkSegSector_kept (s : State) (addr : Nat) (e : EccResult) {s0 : State} (h0 : Kept s0 s) :
    Kept s0 (checkSegSector s addr e) := by
  unfold checkSegSector
  repeat' first
    | with_reducible assumption | with_reducible apply recordVatUe_kept | with_reducible apply vatCe_kept
    | (simp only [kept_mk]; with_reducible apply Kept.conj) | split

theorem checkSeg_kept (s : State) (addr : Nat) (secs : List Nat) (ecc : List EccResult) {s0 : State} (h0 : Kept s0 s) :
    Kept s0 (checkSeg s addr secs ecc) := by
  unfold checkSeg
  repeat' first
    | with_reducible intro _ | with_reducible assumption | with_reducible apply checkSegSector_kept
    | with_reducible apply foldl_kept

theorem judgeStore_kept (s : State) (det : Option Nat) (c : Option CtxId) (va : Nat) (full : Bool) {s0 : State} (h0 :
    Kept s0 s) :
    Kept s0 (judgeStore s det c va full).2 := by
  unfold judgeStore
  repeat' first | with_reducible assumption | (simp only [kept_mk]; with_reducible apply Kept.conj) | split

theorem judgeStore_kept_eq {s : State} {det : Option Nat} {c : Option CtxId} {va : Nat} {full : Bool} {s0 sv : State}
    {r : Bool} (hEq : judgeStore s det c va full = (r, sv)) (h0 : Kept s0 s) : Kept s0 sv := by
  have k := judgeStore_kept s det c va full h0
  rw [hEq] at k
  exact k

theorem answerRead_kept (s : State) (n : Nat) (a : Access) (base : Nat) (bad : List Bool) {s0 : State} (h0 :
    Kept s0 s) :
    Kept s0 (answerRead s n a base bad) := by
  unfold answerRead
  repeat' first
    | with_reducible assumption | with_reducible apply answerAccess_kept | with_reducible apply modAccess_kept

theorem performAtomic_kept (s : State) (a : Access) (op : AtomOp) (wide : Bool) (words : List (Nat × Dword × Dword))
    (lru : Nat) {s0 : State} (h0 : Kept s0 s) :
    Kept s0 (performAtomic s a op wide words lru).1 := by
  unfold performAtomic
  repeat' first
    | with_reducible intro _ | with_reducible assumption | with_reducible apply Kept.ite
    | with_reducible apply homeWrite_kept | with_reducible apply foldl_kept1

theorem performAtomic_kept_eq {s : State} {a : Access} {op : AtomOp} {wide : Bool} {words : List
    (Nat × Dword × Dword)} {lru : Nat} {s0 sv : State} {r : List Byte × Bool} (hEq :
    performAtomic s a op wide words lru = (sv, r)) (h0 : Kept s0 s) : Kept s0 sv := by
  have k := performAtomic_kept s a op wide words lru h0
  rw [hEq] at k
  exact k

theorem answerAtomic_kept (s : State) (n : Nat) (a : Access) (op : AtomOp) (wide : Bool) (words : List
    (Nat × Dword × Dword)) (lru : Nat) (bad : Bool) {s0 : State} (h0 : Kept s0 s) :
    Kept s0 (answerAtomic s n a op wide words lru bad) := by
  unfold answerAtomic
  repeat' first
    | with_reducible assumption | with_reducible apply performAtomic_kept | with_reducible apply answerAccess_kept

theorem performStore_kept (s : State) (n : Nat) (a : Access) (bytes : List (Nat × Byte)) (poison stream : Bool) (lru :
    Nat) {s0 : State} (h0 : Kept s0 s) :
    Kept s0 (performStore s n a bytes poison stream lru) := by
  unfold performStore
  repeat' first
    | with_reducible assumption | with_reducible apply Kept.ite | with_reducible apply storeLine_kept
    | with_reducible apply answerAccess_kept | with_reducible apply storeSeg_kept
    | with_reducible refine allocLine_kept_eq (by assumption) ?_ | with_reducible apply noteWrite_kept | split

theorem miss_kept (s : State) (n pa : Nat) (alloc : Bool) {s0 : State} (h0 : Kept s0 s) :
    Kept s0 (miss s n pa alloc) := by
  unfold miss
  repeat' first | with_reducible assumption | with_reducible apply modAccess_kept

theorem checkedLine_kept (s : State) (pri pa : Nat) (secs : List Nat) (ecc : List EccResult) (tags : TagCheck) {s0 :
    State} (h0 : Kept s0 s) :
    Kept s0 (checkedLine s pri pa secs ecc tags).1 := by
  unfold checkedLine
  repeat' first
    | with_reducible assumption | with_reducible refine checkTags_kept_eq (by assumption) ?_
    | with_reducible apply checkLine_kept | split

theorem checkedLine_kept_eq {s : State} {pri pa : Nat} {secs : List Nat} {ecc : List EccResult} {tags : TagCheck}
    {s0 sv : State} {r : Option Line} (hEq : checkedLine s pri pa secs ecc tags = (sv, r)) (h0 : Kept s0 s) :
    Kept s0 sv := by
  have k := checkedLine_kept s pri pa secs ecc tags h0
  rw [hEq] at k
  exact k

theorem execVatLoad_kept (n lru : Nat) (ecc : List EccResult) (tags : TagCheck) (t : Stamp) (s : State) {s0 : State}
    (h0 : Kept s0 s) :
    KeptOut s0 (execVatLoad n lru ecc tags t s) := by
  unfold execVatLoad
  repeat' first
    | with_reducible assumption | with_reducible apply KeptOut.ite | with_reducible apply State_upTo_kept
    | with_reducible apply answerRead_kept | with_reducible apply touchLine_kept
    | with_reducible apply checkedLine_kept | with_reducible apply miss_kept | with_reducible apply checkSeg_kept
    | with_reducible apply KeptOut.next | split | dsimp only

theorem execVatStore_kept (n lru : Nat) (ecc : List EccResult) (tags : TagCheck) (t : Stamp) (s : State) {s0 : State}
    (h0 : Kept s0 s) :
    KeptOut s0 (execVatStore n lru ecc tags t s) := by
  unfold execVatStore
  repeat' first
    | with_reducible assumption | with_reducible apply KeptOut.ite | with_reducible apply performStore_kept
    | with_reducible apply State_upTo_kept | with_reducible apply judgeStore_kept
    | with_reducible apply checkedLine_kept | with_reducible apply miss_kept | with_reducible apply checkSeg_kept
    | with_reducible apply KeptOut.next | split | dsimp only

theorem execVatAtomic_kept (n lru : Nat) (ecc : List EccResult) (tags : TagCheck) (t : Stamp) (s : State) {s0 : State}
    (h0 : Kept s0 s) :
    KeptOut s0 (execVatAtomic n lru ecc tags t s) := by
  unfold execVatAtomic
  repeat' first
    | with_reducible assumption | with_reducible apply KeptOut.ite | with_reducible apply answerAtomic_kept
    | with_reducible apply State_upTo_kept | with_reducible apply checkedLine_kept | with_reducible apply miss_kept
    | with_reducible apply checkSeg_kept | with_reducible apply KeptOut.next | split | dsimp only

theorem installFill_kept (s : State) (a : Access) (pa lru : Nat) (secs : List Nat) {s0 : State} (h0 : Kept s0 s) :
    Kept s0 (installFill s a pa lru secs) := by
  unfold installFill
  repeat' first
    | with_reducible assumption | with_reducible apply Kept.ite | with_reducible apply setLine_kept
    | with_reducible apply touchLine_kept | with_reducible refine allocLine_kept_eq (by assumption) ?_ | split
    | dsimp only

theorem execVatFillReturn_kept (n lru : Nat) (t : Stamp) (s : State) {s0 : State} (h0 : Kept s0 s) :
    KeptOut s0 (execVatFillReturn n lru t s) := by
  unfold execVatFillReturn
  repeat' first
    | with_reducible assumption | with_reducible apply KeptOut.ite | with_reducible apply performStore_kept
    | with_reducible apply answerAtomic_kept | with_reducible apply State_upTo_kept
    | with_reducible apply installFill_kept | with_reducible apply answerRead_kept
    | with_reducible apply chargeUngated_kept | with_reducible apply modAccess_kept
    | with_reducible apply KeptOut.next | split | dsimp only

theorem patrolRead_kept (s : State) (place : Nat × Nat × Nat) {s0 : State} (h0 : Kept s0 s) :
    Kept s0 (patrolRead s place) := by
  unfold patrolRead
  repeat' first | with_reducible assumption | (simp only [kept_mk]; with_reducible apply Kept.conj)

theorem execPatrolScrub_kept (slice set way : Nat) (ecc : List EccResult) (tags : TagCheck) (t : Stamp) (s : State)
    {s0 : State} (h0 : Kept s0 s) :
    KeptOut s0 (execPatrolScrub slice set way ecc tags t s) := by
  unfold execPatrolScrub
  repeat' first
    | with_reducible assumption | with_reducible apply KeptOut.ite | with_reducible apply State_upTo_kept
    | with_reducible refine checkTags_kept_eq (by assumption) ?_ | with_reducible apply patrolRead_kept
    | with_reducible apply checkLine_kept | with_reducible apply checkSeg_kept | with_reducible apply KeptOut.next
    | split

theorem beginStart_kept (s : State) (straps : Straps) {s0 : State} (h0 : Kept s0 s) :
    Kept s0 (beginStart s straps) := by
  unfold beginStart
  repeat' first | with_reducible assumption | (simp only [kept_mk]; with_reducible apply Kept.conj)

theorem execResetNRise_kept (straps : Straps) (s : State) {s0 : State} (h0 : Kept s0 s) :
    KeptOut s0 (execResetNRise straps s) := by
  unfold execResetNRise
  repeat' first
    | with_reducible assumption | with_reducible apply KeptOut.ite | with_reducible apply beginStart_kept
    | (simp only [kept_mk]; with_reducible apply Kept.conj) | with_reducible apply KeptOut.next | split

theorem execBrownOutRelease_kept (straps : Straps) (s : State) {s0 : State} (h0 : Kept s0 s) :
    KeptOut s0 (execBrownOutRelease straps s) := by
  unfold execBrownOutRelease
  repeat' first
    | with_reducible assumption | with_reducible apply Kept.ite | with_reducible apply KeptOut.ite
    | with_reducible apply beginStart_kept | (simp only [kept_mk]; with_reducible apply Kept.conj)
    | with_reducible apply KeptOut.next

theorem execVdda18Below1v_kept (s : State) {s0 : State} (h0 : Kept s0 s) :
    KeptOut s0 (execVdda18Below1v s) := by
  unfold execVdda18Below1v
  repeat' first
    | with_reducible assumption | (simp only [kept_mk]; with_reducible apply Kept.conj)
    | with_reducible apply KeptOut.next

theorem execThermtrip_kept (s : State) {s0 : State} (h0 : Kept s0 s) :
    KeptOut s0 (execThermtrip s) := by
  unfold execThermtrip
  repeat' first
    | with_reducible assumption | (simp only [kept_mk]; with_reducible apply Kept.conj)
    | with_reducible apply KeptOut.next

theorem installBoot_kept (s : State) {s0 : State} (h0 : Kept s0 s) :
    Kept s0 (installBoot s) := by
  unfold installBoot
  repeat' first | with_reducible assumption | (simp only [kept_mk]; with_reducible apply Kept.conj)

theorem execMetronomeLock_kept (checks : StartChecks) (s : State) {s0 : State} (h0 : Kept s0 s) :
    KeptOut s0 (execMetronomeLock checks s) := by
  unfold execMetronomeLock
  repeat' first
    | with_reducible assumption | with_reducible apply KeptOut.ite | with_reducible apply faultEdge_kept
    | with_reducible apply fatal_kept | with_reducible apply installBoot_kept
    | (simp only [kept_mk]; with_reducible apply Kept.conj) | with_reducible apply KeptOut.next | split

theorem execMetronomeLockTimeout_kept (s : State) {s0 : State} (h0 : Kept s0 s) :
    KeptOut s0 (execMetronomeLockTimeout s) := by
  unfold execMetronomeLockTimeout
  repeat' first
    | with_reducible assumption | with_reducible apply KeptOut.ite | with_reducible apply faultEdge_kept
    | (simp only [kept_mk]; with_reducible apply Kept.conj) | with_reducible apply KeptOut.next

theorem execLpddrTrainingDone_kept (failed density2g ranks2 : BitVec 16) (t : Stamp) (s : State) {s0 : State} (h0 :
    Kept s0 s) :
    KeptOut s0 (execLpddrTrainingDone failed density2g ranks2 t s) := by
  unfold execLpddrTrainingDone
  repeat' first
    | with_reducible assumption | with_reducible apply Kept.ite | with_reducible apply KeptOut.ite
    | with_reducible apply faultEdge_kept | with_reducible apply State_upTo_kept
    | with_reducible apply pushRecord_kept | (simp only [kept_mk]; with_reducible apply Kept.conj)
    | with_reducible apply KeptOut.next

theorem startWarm_kept (s : State) (cause : WarmCause) {s0 : State} (h0 : Kept s0 s) :
    Kept s0 (startWarm s cause) := by
  unfold startWarm
  repeat' first
    | with_reducible assumption | with_reducible apply startForfeit_kept
    | (simp only [kept_mk]; with_reducible apply Kept.conj) | split

theorem warmSlots_kept (s : State) (carried : List SlotId) {s0 : State} (h0 : Kept s0 s) :
    Kept s0 (warmSlots s carried) := by
  unfold warmSlots
  repeat' first
    | with_reducible intro _ | with_reducible assumption | with_reducible apply slotFinish_kept
    | with_reducible apply foldl_kept | (simp only [kept_mk]; with_reducible apply Kept.conj)

theorem warmLpddr_cells (s : State) (f : BitVec 16) : (warmLpddr s f).cells = s.lpddr.cells := rfl

theorem execWarmResetComplete_kept (checks : StartChecks) (failed : BitVec 16) (t : Stamp) (s : State) {s0 : State}
    (h0 : Kept s0 s) :
    KeptOut s0 (execWarmResetComplete checks failed t s) := by
  unfold execWarmResetComplete
  repeat' first
    | with_reducible assumption | with_reducible apply Kept.ite | with_reducible apply KeptOut.ite
    | (simp only [kept_mk, warmLpddr_cells]; with_reducible apply Kept.conj) | with_reducible apply faultEdge_kept
    | with_reducible apply ibiCause_kept | with_reducible apply installBoot_kept
    | with_reducible apply State_upTo_kept | with_reducible apply fatal_kept | with_reducible apply warmSlots_kept
    | with_reducible apply pushRecord_kept | with_reducible apply KeptOut.next | split | dsimp only

theorem execCrystalLoss_kept (t : Stamp) (s : State) {s0 : State} (h0 : Kept s0 s) :
    KeptOut s0 (execCrystalLoss t s) := by
  unfold execCrystalLoss
  repeat' first
    | with_reducible intro _ | with_reducible assumption | with_reducible apply KeptOut.ite
    | with_reducible apply faultEdge_kept | with_reducible apply settleQueue_kept
    | with_reducible apply State_upTo_kept | with_reducible apply pushRecord_kept | with_reducible apply foldl_kept
    | (simp only [kept_mk]; with_reducible apply Kept.conj) | with_reducible apply KeptOut.next

theorem execCrystalReturn_kept (s : State) {s0 : State} (h0 : Kept s0 s) :
    KeptOut s0 (execCrystalReturn s) := by
  unfold execCrystalReturn
  repeat' first
    | with_reducible assumption | (simp only [kept_mk]; with_reducible apply Kept.conj)
    | with_reducible apply KeptOut.next

theorem tempCause_kept (s : State) {s0 : State} (h0 : Kept s0 s) :
    Kept s0 (tempCause s) := by
  unfold tempCause
  repeat' first
    | with_reducible assumption | with_reducible apply Kept.ite | with_reducible apply ibiCause_kept
    | (simp only [kept_mk]; with_reducible apply Kept.conj) | split

theorem execSensorRefresh_kept (readings : List (Option Nat)) (t : Stamp) (s : State) {s0 : State} (h0 : Kept s0 s) :
    KeptOut s0 (execSensorRefresh readings t s) := by
  unfold execSensorRefresh
  repeat' first
    | with_reducible assumption | with_reducible apply KeptOut.ite | with_reducible apply State_upTo_kept
    | with_reducible apply tempCause_kept | (simp only [kept_mk]; with_reducible apply Kept.conj)
    | with_reducible apply KeptOut.next

theorem execDbRing_kept (fn doorbell : Nat) (t : Stamp) (s : State) {s0 : State} (h0 : Kept s0 s) :
    KeptOut s0 (execDbRing fn doorbell t s) := by
  unfold execDbRing
  repeat' first
    | with_reducible assumption | with_reducible apply KeptOut.ite | with_reducible apply settleQueue_kept
    | with_reducible apply State_upTo_kept | with_reducible apply mordantInput_kept
    | with_reducible apply modQueue_kept | with_reducible apply KeptOut.next | split

theorem followLink_kept (s : State) (q : QueueId) (va word : Nat) {s0 : State} (h0 : Kept s0 s) :
    Kept s0 (followLink s q va word) := by
  unfold followLink
  repeat' first
    | with_reducible assumption | with_reducible apply settleQueue_kept | with_reducible apply chainError_kept
    | with_reducible apply modQueue_kept | split

theorem tornLink_kept (s : State) (q : QueueId) {s0 : State} (h0 : Kept s0 s) :
    Kept s0 (tornLink s q) := by
  unfold tornLink
  repeat' first
    | with_reducible assumption | with_reducible apply settleQueue_kept | with_reducible apply modQueue_kept

theorem execLinkWordArrive_kept (q : QueueId) (t : Stamp) (s : State) {s0 : State} (h0 : Kept s0 s) :
    KeptOut s0 (execLinkWordArrive q t s) := by
  unfold execLinkWordArrive
  repeat' first
    | with_reducible assumption | with_reducible apply KeptOut.ite | with_reducible apply State_upTo_kept
    | with_reducible apply followLink_kept | with_reducible apply useReads_kept
    | with_reducible apply chainFault_kept | with_reducible refine engineRead_kept_wait (by assumption) ?_
    | with_reducible apply tornLink_kept | with_reducible apply KeptOut.next | split | dsimp only

theorem execTailPoll_kept (q : QueueId) (t : Stamp) (s : State) {s0 : State} (h0 : Kept s0 s) :
    KeptOut s0 (execTailPoll q t s) := by
  unfold execTailPoll
  repeat' first
    | with_reducible assumption | with_reducible apply KeptOut.ite | with_reducible apply State_upTo_kept
    | with_reducible apply modQueue_kept | with_reducible apply KeptOut.next | split | dsimp only

theorem execChainTorn_kept (q : QueueId) (t : Stamp) (s : State) {s0 : State} (h0 : Kept s0 s) :
    KeptOut s0 (execChainTorn q t s) := by
  unfold execChainTorn
  repeat' first
    | with_reducible assumption | with_reducible apply Kept.ite | with_reducible apply State_upTo_kept
    | with_reducible apply chainError_kept | with_reducible apply KeptOut.next | split | dsimp only

theorem execDeadlineMiss_kept (q : QueueId) (t : Stamp) (s : State) {s0 : State} (h0 : Kept s0 s) :
    KeptOut s0 (execDeadlineMiss q t s) := by
  unfold execDeadlineMiss
  repeat' first
    | with_reducible assumption | with_reducible apply Kept.ite | with_reducible apply State_upTo_kept
    | with_reducible apply declareMiss_kept | with_reducible apply KeptOut.next | split | dsimp only

theorem execNopPacket_kept (q : QueueId) (t : Stamp) (s : State) {s0 : State} (h0 : Kept s0 s) :
    KeptOut s0 (execNopPacket q t s) := by
  unfold execNopPacket
  repeat' first
    | with_reducible intro _ | with_reducible assumption | with_reducible apply completePkt_kept
    | with_reducible apply State_upTo_kept | with_reducible apply anyTime_kept | with_reducible apply packetRow_kept
    | with_reducible apply KeptOut.next

theorem execMarker_kept (q : QueueId) (t : Stamp) (s : State) {s0 : State} (h0 : Kept s0 s) :
    KeptOut s0 (execMarker q t s) := by
  unfold execMarker
  repeat' first
    | with_reducible intro _ | with_reducible assumption | with_reducible apply completePkt_kept
    | with_reducible apply traceMarker_kept | with_reducible apply State_upTo_kept
    | with_reducible apply anyTime_kept | with_reducible apply packetRow_kept | with_reducible apply KeptOut.next

theorem execBadPacket_kept (q : QueueId) (t : Stamp) (s : State) {s0 : State} (h0 : Kept s0 s) :
    KeptOut s0 (execBadPacket q t s) := by
  unfold execBadPacket
  repeat' first
    | with_reducible assumption | with_reducible apply Kept.ite | with_reducible apply KeptOut.ite
    | with_reducible apply State_upTo_kept | with_reducible refine packetAt_kept_waiting (by assumption) ?_
    | with_reducible apply chainError_kept | with_reducible apply useReads_kept
    | with_reducible apply chainFault_kept | with_reducible apply KeptOut.next | split | dsimp only

theorem execFenceWrite_kept (q : QueueId) (t : Stamp) (s : State) {s0 : State} (h0 : Kept s0 s) :
    KeptOut s0 (execFenceWrite q t s) := by
  unfold execFenceWrite
  repeat' first
    | with_reducible assumption | with_reducible apply State_upTo_kept | with_reducible apply signalRow_kept
    | with_reducible apply KeptOut.next

theorem execFenceStamp_kept (q : QueueId) (t : Stamp) (s : State) {s0 : State} (h0 : Kept s0 s) :
    KeptOut s0 (execFenceStamp q t s) := by
  unfold execFenceStamp
  repeat' first
    | with_reducible assumption | with_reducible apply State_upTo_kept | with_reducible apply signalRow_kept
    | with_reducible apply KeptOut.next

theorem execFenceAdd_kept (q : QueueId) (t : Stamp) (s : State) {s0 : State} (h0 : Kept s0 s) :
    KeptOut s0 (execFenceAdd q t s) := by
  unfold execFenceAdd
  repeat' first
    | with_reducible assumption | with_reducible apply State_upTo_kept | with_reducible apply signalRow_kept
    | with_reducible apply KeptOut.next

theorem execFenceMax_kept (q : QueueId) (t : Stamp) (s : State) {s0 : State} (h0 : Kept s0 s) :
    KeptOut s0 (execFenceMax q t s) := by
  unfold execFenceMax
  repeat' first
    | with_reducible assumption | with_reducible apply State_upTo_kept | with_reducible apply signalRow_kept
    | with_reducible apply KeptOut.next

theorem execSemRelease_kept (q : QueueId) (t : Stamp) (s : State) {s0 : State} (h0 : Kept s0 s) :
    KeptOut s0 (execSemRelease q t s) := by
  unfold execSemRelease
  repeat' first
    | with_reducible assumption | with_reducible apply State_upTo_kept | with_reducible apply signalRow_kept
    | with_reducible apply KeptOut.next

theorem execWait_kept (q : QueueId) (t : Stamp) (s : State) {s0 : State} (h0 : Kept s0 s) :
    KeptOut s0 (execWait q t s) := by
  unfold execWait
  repeat' first
    | with_reducible intro _ | with_reducible assumption | with_reducible apply Kept.ite
    | with_reducible apply badField_kept | with_reducible apply State_upTo_kept
    | with_reducible apply packetRow_kept | with_reducible apply startWait_kept | with_reducible apply anyTime_kept
    | with_reducible apply KeptOut.next

theorem execSemAcquire_kept (q : QueueId) (t : Stamp) (s : State) {s0 : State} (h0 : Kept s0 s) :
    KeptOut s0 (execSemAcquire q t s) := by
  unfold execSemAcquire
  repeat' first
    | with_reducible intro _ | with_reducible assumption | with_reducible apply Kept.ite
    | with_reducible apply badField_kept | with_reducible apply State_upTo_kept
    | with_reducible apply packetRow_kept | with_reducible apply startWait_kept | with_reducible apply anyTime_kept
    | with_reducible apply wordError_kept | with_reducible apply KeptOut.next

theorem execWaitReevaluate_kept (q : QueueId) (t : Stamp) (s : State) {s0 : State} (h0 : Kept s0 s) :
    KeptOut s0 (execWaitReevaluate q t s) := by
  unfold execWaitReevaluate
  repeat' first
    | with_reducible assumption | with_reducible apply Kept.ite | with_reducible apply State_upTo_kept
    | with_reducible apply stepWait_kept | with_reducible apply KeptOut.next | split | dsimp only

theorem execWaitTimeout_kept (q : QueueId) (t : Stamp) (s : State) {s0 : State} (h0 : Kept s0 s) :
    KeptOut s0 (execWaitTimeout q t s) := by
  unfold execWaitTimeout
  repeat' first
    | with_reducible assumption | with_reducible apply Kept.ite | with_reducible apply State_upTo_kept
    | with_reducible apply wordError_kept | with_reducible apply KeptOut.next | split | dsimp only

theorem startDispatch_kept (s : State) (q : QueueId) (p : Pkt) (x : Dispatch) (accBad indirect : Bool) {s0 : State}
    (h0 : Kept s0 s) :
    Kept s0 (startDispatch s q p x accBad indirect) := by
  unfold startDispatch
  repeat' first
    | with_reducible assumption | with_reducible apply Kept.ite | with_reducible apply badField_kept
    | with_reducible apply errorPkt_kept | with_reducible apply completePkt_kept
    | (simp only [kept_mk]; with_reducible apply Kept.conj)

theorem execDispatch_kept (q : QueueId) (t : Stamp) (s : State) {s0 : State} (h0 : Kept s0 s) :
    KeptOut s0 (execDispatch q t s) := by
  unfold execDispatch
  repeat' first
    | with_reducible intro _ | with_reducible assumption | with_reducible apply State_upTo_kept
    | with_reducible apply anyTime_kept | with_reducible apply startDispatch_kept
    | with_reducible apply packetRow_kept | with_reducible apply KeptOut.next

theorem execMdispatch_kept (q : QueueId) (t : Stamp) (s : State) {s0 : State} (h0 : Kept s0 s) :
    KeptOut s0 (execMdispatch q t s) := by
  unfold execMdispatch
  repeat' first
    | with_reducible intro _ | with_reducible assumption | with_reducible apply State_upTo_kept
    | with_reducible apply anyTime_kept | with_reducible apply startDispatch_kept
    | with_reducible apply packetRow_kept | with_reducible apply KeptOut.next

theorem readGrid_kept (s : State) (q : QueueId) (bs : List Byte) {s0 : State} (h0 : Kept s0 s) :
    KeptRead s0 (readGrid s q bs) := by
  unfold readGrid
  repeat' first | with_reducible assumption | with_reducible apply engineRead_kept

theorem readGrid_kept_wait {s : State} {q : QueueId} {bs : List Byte} {s0 sv : State} (hEq :
    readGrid s q bs = .wait sv) (h0 : Kept s0 s) : Kept s0 sv := by
  have k := readGrid_kept s q bs h0
  rw [hEq] at k
  exact k

theorem gridHold_kept (q : QueueId) (s : State) (bs : List Byte) {s0 : State} (h0 : Kept s0 s) :
    KeptOpt s0 (gridHold q s bs) := by
  unfold gridHold
  repeat' first
    | with_reducible assumption | with_reducible refine readGrid_kept_wait (by assumption) ?_
    | with_reducible apply KeptOpt.some | with_reducible apply KeptOpt.none | split

theorem gridHold_kept_eq {q : QueueId} {s : State} {bs : List Byte} {s0 sv : State} (hEq : gridHold q s bs = some sv)
    (h0 : Kept s0 s) : Kept s0 sv :=
  gridHold_kept q s bs h0 _ hEq

theorem gridFault_kept (s : State) (q : QueueId) (p : Pkt) (code va : Nat) {s0 : State} (h0 : Kept s0 s) :
    Kept s0 (gridFault s q p code va) := by
  unfold gridFault
  repeat' first | with_reducible assumption | with_reducible apply killContext_kept

theorem indirectDispatch_kept (s : State) (q : QueueId) (p : Pkt) (bs : List Byte) (drive : Option Nat) (accBad :
    Bool) {s0 : State} (h0 : Kept s0 s) :
    Kept s0 (indirectDispatch s q p bs drive accBad) := by
  unfold indirectDispatch
  repeat' first
    | with_reducible assumption | with_reducible apply Kept.ite | with_reducible apply badField_kept
    | with_reducible apply startDispatch_kept | with_reducible apply gridFault_kept
    | with_reducible refine readGrid_kept_wait (by assumption) ?_ | split

theorem execDispatchIndirect_kept (q : QueueId) (t : Stamp) (s : State) {s0 : State} (h0 : Kept s0 s) :
    KeptOut s0 (execDispatchIndirect q t s) := by
  unfold execDispatchIndirect
  repeat' first
    | with_reducible intro _ | with_reducible assumption | with_reducible apply State_upTo_kept
    | with_reducible apply gridHold_kept | with_reducible apply packetRow_kept
    | with_reducible apply indirectDispatch_kept | with_reducible apply KeptOut.next

theorem execMdispatchIndirect_kept (q : QueueId) (t : Stamp) (s : State) {s0 : State} (h0 : Kept s0 s) :
    KeptOut s0 (execMdispatchIndirect q t s) := by
  unfold execMdispatchIndirect
  repeat' first
    | with_reducible intro _ | with_reducible assumption | with_reducible apply State_upTo_kept
    | with_reducible apply gridHold_kept | with_reducible apply packetRow_kept
    | with_reducible apply indirectDispatch_kept | with_reducible apply KeptOut.next

theorem execWorkgroupPlace_kept (d core : Nat) (t : Stamp) (s : State) {s0 : State} (h0 : Kept s0 s) :
    KeptOut s0 (execWorkgroupPlace d core t s) := by
  unfold execWorkgroupPlace
  repeat' first
    | with_reducible intro _ | with_reducible assumption | with_reducible apply Kept.ite
    | with_reducible apply KeptOut.ite | with_reducible apply State_upTo_kept | with_reducible apply launchWg_kept
    | with_reducible apply withArgs_kept | with_reducible apply requestWake_kept | with_reducible apply KeptOut.next
    | split | dsimp only

theorem execPlacementReserve_kept (d core : Nat) (t : Stamp) (s : State) {s0 : State} (h0 : Kept s0 s) :
    KeptOut s0 (execPlacementReserve d core t s) := by
  unfold execPlacementReserve
  repeat' first
    | with_reducible assumption | with_reducible apply KeptOut.ite | with_reducible apply State_upTo_kept
    | (simp only [kept_mk]; with_reducible apply Kept.conj) | with_reducible apply KeptOut.next | split | dsimp only

theorem startCorePreempt_kept (s : State) (d core : Nat) (vs : List (Nat × Workgroup)) {s0 : State} (h0 : Kept s0 s) :
    Kept s0 (startCorePreempt s d core vs) := by
  unfold startCorePreempt
  repeat' first
    | with_reducible assumption | with_reducible apply Kept.ite | with_reducible apply stopWgs_kept
    | (simp only [kept_mk]; with_reducible apply Kept.conj)

theorem execPreemptDecision_kept (q : QueueId) (kind : PreemptKind) (t : Stamp) (s : State) {s0 : State} (h0 :
    Kept s0 s) :
    KeptOut s0 (execPreemptDecision q kind t s) := by
  unfold execPreemptDecision
  repeat' first
    | with_reducible assumption | with_reducible apply Kept.ite | with_reducible apply KeptOut.ite
    | with_reducible apply State_upTo_kept | with_reducible apply startCorePreempt_kept
    | with_reducible apply preemptQueue_kept | with_reducible apply KeptOut.next | split | dsimp only

theorem execTimeSliceBoundary_kept (t : Stamp) (s : State) {s0 : State} (h0 : Kept s0 s) :
    KeptOut s0 (execTimeSliceBoundary t s) := by
  unfold execTimeSliceBoundary
  repeat' first
    | with_reducible intro _ | with_reducible assumption | with_reducible apply Kept.ite
    | with_reducible apply KeptOut.ite | with_reducible apply State_upTo_kept
    | with_reducible apply preemptQueue_kept | with_reducible apply foldl_kept | with_reducible apply KeptOut.next
    | split

theorem execGroupStopComplete_kept (slot : Nat) (t : Stamp) (s : State) {s0 : State} (h0 : Kept s0 s) :
    KeptOut s0 (execGroupStopComplete slot t s) := by
  unfold execGroupStopComplete
  repeat' first
    | with_reducible intro _ | with_reducible assumption | with_reducible apply KeptOut.ite
    | with_reducible apply State_upTo_kept | with_reducible apply putGroup_kept
    | with_reducible apply removeAccess_kept | with_reducible apply foldl_kept
    | (simp only [kept_mk]; with_reducible apply Kept.conj) | with_reducible apply KeptOut.next | split | dsimp only

theorem saveWg_kept (s : State) (wg : Nat) (x : Workgroup) {s0 : State} (h0 : Kept s0 s) :
    Kept s0 (saveWg s wg x) := by
  unfold saveWg
  repeat' first
    | with_reducible intro _ | with_reducible assumption | with_reducible apply dropFetches_kept
    | with_reducible apply foldl_kept | (simp only [kept_mk]; with_reducible apply Kept.conj)

theorem execSaveComplete_kept (q : QueueId) (t : Stamp) (s : State) {s0 : State} (h0 : Kept s0 s) :
    KeptOut s0 (execSaveComplete q t s) := by
  unfold execSaveComplete
  repeat' first
    | with_reducible intro _ | with_reducible assumption | with_reducible apply State_upTo_kept
    | with_reducible apply saveWg_kept | with_reducible apply saveXfer_kept | with_reducible apply foldl_kept
    | with_reducible apply KeptOut.next

theorem execQueueResume_kept (q : QueueId) (t : Stamp) (s : State) {s0 : State} (h0 : Kept s0 s) :
    KeptOut s0 (execQueueResume q t s) := by
  unfold execQueueResume
  repeat' first
    | with_reducible assumption | with_reducible apply KeptOut.ite | with_reducible apply settleQueue_kept
    | with_reducible apply State_upTo_kept | with_reducible apply modQueue_kept
    | (simp only [kept_mk]; with_reducible apply Kept.conj) | with_reducible apply KeptOut.next | split | dsimp only

theorem replayFault_kept (s : State) (slot : Nat) (g : Group) (a : Access) (e : XFault) {s0 : State} (h0 : Kept s0 s) :
    Kept s0 (replayFault s slot g a e) := by
  unfold replayFault
  repeat' first
    | with_reducible assumption | with_reducible apply modOp_kept | with_reducible apply groupFault_kept | split

theorem replayRead_kept (s : State) (slot core : Nat) (g : Group) (a : Access) {s0 : State} (h0 : Kept s0 s) :
    Kept s0 (replayRead s slot core g a) := by
  unfold replayRead
  repeat' first
    | with_reducible assumption | with_reducible apply enterFabric_kept | with_reducible apply replayFault_kept
    | split

theorem replayGroup_kept (s : State) (slot core : Nat) (g : Group) {s0 : State} (h0 : Kept s0 s) :
    Kept s0 (replayGroup s slot core g) := by
  unfold replayGroup
  repeat' first
    | with_reducible intro _ | with_reducible assumption | with_reducible apply replayRead_kept
    | with_reducible apply putGroup_kept | with_reducible apply foldl_kept
    | (simp only [kept_mk]; with_reducible apply Kept.conj)

theorem restoreWg_kept (s : State) (wg core : Nat) (x : SavedWg) {s0 : State} (h0 : Kept s0 s) :
    Kept s0 (restoreWg s wg core x) := by
  unfold restoreWg
  repeat' first
    | with_reducible intro _ | with_reducible assumption | with_reducible apply replayGroup_kept
    | with_reducible apply foldl_kept | (simp only [kept_mk]; with_reducible apply Kept.conj)

theorem execRestoreComplete_kept (wg core : Nat) (lost : Bool) (t : Stamp) (s : State) {s0 : State} (h0 : Kept s0 s) :
    KeptOut s0 (execRestoreComplete wg core lost t s) := by
  unfold execRestoreComplete
  repeat' first
    | with_reducible assumption | with_reducible apply KeptOut.ite | with_reducible apply State_upTo_kept
    | with_reducible apply restoreWg_kept | with_reducible apply killContext_kept
    | with_reducible apply KeptOut.next | split | dsimp only

theorem execForfeitWritesPerformed_kept (k : Nat) (t : Stamp) (s : State) {s0 : State} (h0 : Kept s0 s) :
    KeptOut s0 (execForfeitWritesPerformed k t s) := by
  unfold execForfeitWritesPerformed
  repeat' first
    | with_reducible assumption | with_reducible apply Kept.ite | with_reducible apply State_upTo_kept
    | with_reducible apply takeCheckpoint_kept | with_reducible apply stepForfeit_kept
    | with_reducible apply KeptOut.next | split | dsimp only

theorem markStarted_kept (s : State) (k : SlotId) {s0 : State} (h0 : Kept s0 s) :
    Kept s0 (markStarted s k) := by
  unfold markStarted
  repeat' first | with_reducible assumption | with_reducible apply setSlot_kept

theorem holdResult_kept (s : State) (k : SlotId) (res : List Word) {s0 : State} (h0 : Kept s0 s) :
    Kept s0 (holdResult s k res) := by
  unfold holdResult
  repeat' first | with_reducible assumption | with_reducible apply setSlot_kept

theorem finishHeld_kept (s : State) (k : SlotId) {s0 : State} (h0 : Kept s0 s) :
    Kept s0 (finishHeld s k) := by
  unfold finishHeld
  repeat' first | with_reducible assumption | with_reducible apply slotDone_kept

theorem mbxRow_kept (s : State) (k : SlotId) (code : Nat) (mine : List Word → Bool) (causes :
    State → SlotId → List Word → List Nat) (run resume : State → SlotId → List Word → State) {s0 : State} (k_run : ∀
    (a0 : State) (a1 : SlotId) (a2 : List Word), Kept s0 a0 → Kept s0 (run a0 a1 a2)) (k_resume : ∀ (a0 : State) (a1 :
    SlotId) (a2 : List Word), Kept s0 a0 → Kept s0 (resume a0 a1 a2)) (h0 : Kept s0 s) :
    Kept s0 (mbxRow s k code mine causes run resume) := by
  unfold mbxRow
  repeat' first
    | with_reducible assumption | with_reducible apply Kept.ite | with_reducible apply markStarted_kept
    | with_reducible apply slotRefuse_kept | with_reducible apply k_run | with_reducible apply k_resume | split

theorem noResume_kept (x0 : State) (x1 : SlotId) (x2 : List Word) {s0 : State} (h0 : Kept s0 x0) :
    Kept s0 (noResume x0 x1 x2) := by
  unfold noResume
  repeat' first | with_reducible assumption

theorem stopCompose_kept (s : State) (x : ComposeOp) (code va : Nat) {s0 : State} (h0 : Kept s0 s) :
    Kept s0 (stopCompose s x code va) := by
  unfold stopCompose
  repeat' first
    | with_reducible assumption | with_reducible apply dropReads_kept | with_reducible apply pushRecord_kept
    | (simp only [kept_mk]; with_reducible apply Kept.conj)

/-- The state of every answer keeps the three fields. -/
def KeptPixels (s : State) : PixelRead → Prop
  | .leave v => Kept s v
  | .ok v _ => Kept s v

theorem KeptPixels.leave {s v : State} (h : Kept s v) : KeptPixels s (.leave v) := h

theorem KeptPixels.ok {s v : State} {e0 : List Byte} (h : Kept s v) : KeptPixels s (.ok v e0) := h

theorem readPixels_kept (s : State) (x : ComposeOp) (dst : Bool) (va bpp n : Nat) {s0 : State} (h0 : Kept s0 s) :
    KeptPixels s0 (readPixels s x dst va bpp n) := by
  unfold readPixels
  repeat' first
    | with_reducible assumption | with_reducible apply KeptPixels.leave | with_reducible apply KeptPixels.ok
    | with_reducible apply stopCompose_kept | with_reducible apply useReads_kept
    | with_reducible refine engineRead_kept_wait (by assumption) ?_ | split

theorem readPixels_kept_leave {s : State} {x : ComposeOp} {dst : Bool} {va bpp n : Nat} {s0 sv : State} (hEq :
    readPixels s x dst va bpp n = .leave sv) (h0 : Kept s0 s) : Kept s0 sv := by
  have k := readPixels_kept s x dst va bpp n h0
  rw [hEq] at k
  exact k

theorem readPixels_kept_ok {s : State} {x : ComposeOp} {dst : Bool} {va bpp n : Nat} {s0 sv : State} {e0 : List Byte}
    (hEq : readPixels s x dst va bpp n = .ok sv e0) (h0 : Kept s0 s) : Kept s0 sv := by
  have k := readPixels_kept s x dst va bpp n h0
  rw [hEq] at k
  exact k

theorem composeRead_kept (s : State) (cmd : List Word) (x : ComposeOp) {s0 : State} (h0 : Kept s0 s) :
    Kept s0 (composeRead s cmd x) := by
  unfold composeRead
  repeat' first
    | with_reducible assumption | with_reducible apply Kept.ite
    | with_reducible refine readPixels_kept_leave (by assumption) ?_
    | with_reducible refine readPixels_kept_ok (by assumption) ?_
    | (simp only [kept_mk]; with_reducible apply Kept.conj) | split

theorem sendPixels_kept (s : State) (x : ComposeOp) (va : Nat) (h : Home) (l : Leaf) (bytes : List (Nat × Byte)) (n :
    Nat) {s0 : State} (h0 : Kept s0 s) :
    Kept s0 (sendPixels s x va h l bytes n) := by
  unfold sendPixels
  repeat' first
    | with_reducible assumption | with_reducible apply enterFabric_kept
    | (simp only [kept_mk]; with_reducible apply Kept.conj)

theorem composeWrite_kept (kind : ComposeKind) (s : State) (cmd : List Word) (x : ComposeOp) {s0 : State} (h0 :
    Kept s0 s) :
    Kept s0 (composeWrite kind s cmd x) := by
  unfold composeWrite
  repeat' first
    | with_reducible assumption | with_reducible apply Kept.ite
    | with_reducible refine readPixels_kept_leave (by assumption) ?_
    | with_reducible refine readPixels_kept_ok (by assumption) ?_ | with_reducible apply stopCompose_kept
    | with_reducible apply sendPixels_kept | split

theorem takeWrites_kept (s : State) {s0 : State} (h0 : Kept s0 s) :
    Kept s0 (takeWrites s) := by
  unfold takeWrites
  repeat' first | with_reducible assumption | (simp only [kept_mk]; with_reducible apply Kept.conj)

theorem endCompose_kept (s : State) (k : SlotId) {s0 : State} (h0 : Kept s0 s) :
    Kept s0 (endCompose s k) := by
  unfold endCompose
  repeat' first
    | with_reducible assumption | with_reducible apply Kept.ite | with_reducible apply slotDone_kept
    | (simp only [kept_mk]; with_reducible apply Kept.conj)

theorem startCompose_kept (s : State) (k : SlotId) (cmd : List Word) {s0 : State} (h0 : Kept s0 s) :
    Kept s0 (startCompose s k cmd) := by
  unfold startCompose
  repeat' first
    | with_reducible assumption | with_reducible apply requestWake_kept
    | (simp only [kept_mk]; with_reducible apply Kept.conj)

theorem stepCompose_kept (kind : ComposeKind) (ahead : Bool) (s : State) (k : SlotId) (cmd : List Word) {s0 : State}
    (h0 : Kept s0 s) :
    Kept s0 (stepCompose kind ahead s k cmd) := by
  unfold stepCompose
  repeat' first
    | with_reducible assumption | with_reducible apply Kept.ite | with_reducible apply takeWrites_kept
    | with_reducible apply stopCompose_kept | with_reducible apply composeWrite_kept
    | with_reducible apply slotDone_kept | with_reducible apply requestWake_kept
    | with_reducible apply composeRead_kept | with_reducible apply endCompose_kept | split

theorem execComposeCopy_kept (k : SlotId) (ahead : Bool) (t : Stamp) (s : State) {s0 : State} (h0 : Kept s0 s) :
    KeptOut s0 (execComposeCopy k ahead t s) := by
  unfold execComposeCopy
  repeat' first
    | with_reducible intro _ | with_reducible assumption | with_reducible apply startCompose_kept
    | with_reducible apply State_upTo_kept | with_reducible apply stepCompose_kept
    | with_reducible apply mbxRow_kept | with_reducible apply KeptOut.next

theorem execComposeFill_kept (k : SlotId) (ahead : Bool) (t : Stamp) (s : State) {s0 : State} (h0 : Kept s0 s) :
    KeptOut s0 (execComposeFill k ahead t s) := by
  unfold execComposeFill
  repeat' first
    | with_reducible intro _ | with_reducible assumption | with_reducible apply startCompose_kept
    | with_reducible apply State_upTo_kept | with_reducible apply stepCompose_kept
    | with_reducible apply mbxRow_kept | with_reducible apply KeptOut.next

theorem execComposeBlend_kept (k : SlotId) (ahead : Bool) (t : Stamp) (s : State) {s0 : State} (h0 : Kept s0 s) :
    KeptOut s0 (execComposeBlend k ahead t s) := by
  unfold execComposeBlend
  repeat' first
    | with_reducible intro _ | with_reducible assumption | with_reducible apply startCompose_kept
    | with_reducible apply State_upTo_kept | with_reducible apply stepCompose_kept
    | with_reducible apply mbxRow_kept | with_reducible apply KeptOut.next

end Sys2Proof.Laws
end

