-- ==== Sys2Proof/Laws/KeptGraphics.lean ====
section
/-!
SUPPORT. Every operation of geometry, binning, tiles, power domains and the fabric keeps the queue of commands, the fuses and the LPDDR cells, each lemma
for a state that another state leads to.
-/

namespace Sys2Proof.Laws

open Machine

theorem modFrame_kept (s : State) (q : QueueId) (f : Frame → Frame) {s0 : State} (h0 : Kept s0 s) :
    Kept s0 (modFrame s q f) := by
  unfold modFrame
  repeat' first | with_reducible assumption | (simp only [kept_mk]; with_reducible apply Kept.conj)

theorem graphicsKill_kept (s : State) (q : QueueId) (tag : Word) (unit : LocUnit) (index code va : Nat) {s0 : State}
    (h0 : Kept s0 s) :
    Kept s0 (graphicsKill s q tag unit index code va) := by
  unfold graphicsKill
  repeat' first | with_reducible assumption | with_reducible apply killContext_kept

theorem geomError_kept (s : State) (q : QueueId) (num code : Nat) (addr : RecAddr) {s0 : State} (h0 : Kept s0 s) :
    Kept s0 (geomError s q num code addr) := by
  unfold geomError
  repeat' first | with_reducible assumption | with_reducible apply errorPkt_kept

theorem binWriteAt_kept (s : State) (q : QueueId) (ni va : Nat) (bytes : List Byte) {s0 : State} (h0 : Kept s0 s) :
    Kept s0 (binWriteAt s q ni va bytes) := by
  unfold binWriteAt
  repeat' first
    | with_reducible intro _ | with_reducible assumption | with_reducible apply Kept.ite
    | with_reducible apply enterFabric_kept | with_reducible apply graphicsKill_kept
    | with_reducible apply foldl_kept | split

theorem binWrite_kept (s : State) (q : QueueId) (va : Nat) (bytes : List Byte) {s0 : State} (h0 : Kept s0 s) :
    Kept s0 (binWrite s q va bytes) := by
  unfold binWrite
  repeat' first | with_reducible assumption | with_reducible apply binWriteAt_kept

theorem writeUnits_kept (s : State) (q : QueueId) (ni va : Nat) (bytes : List Byte) {s0 : State} (h0 : Kept s0 s) :
    Kept s0 (writeUnits s q ni va bytes) := by
  unfold writeUnits
  repeat' first
    | with_reducible intro _ | with_reducible assumption | with_reducible apply binWriteAt_kept
    | with_reducible apply foldl_kept

theorem geomRead_kept (s : State) (q : QueueId) (va len : Nat) {s0 : State} (h0 : Kept s0 s) :
    KeptRead s0 (geomRead s q va len) := by
  unfold geomRead
  repeat' first | with_reducible assumption | with_reducible apply engineRead_kept

theorem geomRead_kept_wait {s : State} {q : QueueId} {va len : Nat} {s0 sv : State} (hEq :
    geomRead s q va len = .wait sv) (h0 : Kept s0 s) : Kept s0 sv := by
  have k := geomRead_kept s q va len h0
  rw [hEq] at k
  exact k

theorem geomUsed_kept (s : State) (q : QueueId) {s0 : State} (h0 : Kept s0 s) :
    Kept s0 (geomUsed s q) := by
  unfold geomUsed
  repeat' first | with_reducible assumption | with_reducible apply useReads_kept

theorem geomPoison_kept (s : State) (q : QueueId) (va : Nat) {s0 : State} (h0 : Kept s0 s) :
    Kept s0 (geomPoison s q va) := by
  unfold geomPoison
  repeat' first | with_reducible assumption | with_reducible apply detect_kept

theorem noteOnce_kept (s : State) (q : QueueId) (pkt : Nat) (r : ErrRec) {s0 : State} (h0 : Kept s0 s) :
    Kept s0 (noteOnce s q pkt r) := by
  unfold noteOnce
  repeat' first
    | with_reducible assumption | with_reducible apply Kept.ite | with_reducible apply detect_kept
    | (simp only [kept_mk]; with_reducible apply Kept.conj)

theorem writePool_kept (s : State) (q : QueueId) (open_ : Bool) {s0 : State} (h0 : Kept s0 s) :
    Kept s0 (writePool s q open_) := by
  unfold writePool
  repeat' first
    | with_reducible assumption | with_reducible apply modFrame_kept | with_reducible apply binWrite_kept | split

/-- The state of every answer keeps the three fields. -/
def KeptCount (s : State) : FreeCount → Prop
  | .wait v => Kept s v
  | .gone v => Kept s v
  | .count v _ => Kept s v

theorem KeptCount.wait {s v : State} (h : Kept s v) : KeptCount s (.wait v) := h

theorem KeptCount.gone {s v : State} (h : Kept s v) : KeptCount s (.gone v) := h

theorem KeptCount.count {s v : State} {e0 : Nat} (h : Kept s v) : KeptCount s (.count v e0) := h

theorem freeCount_kept (s : State) (q : QueueId) (f : Frame) {s0 : State} (h0 : Kept s0 s) :
    KeptCount s0 (freeCount s q f) := by
  unfold freeCount
  repeat' first
    | with_reducible assumption | with_reducible apply KeptCount.wait | with_reducible apply KeptCount.gone
    | with_reducible apply KeptCount.count | with_reducible apply graphicsKill_kept
    | with_reducible refine geomRead_kept_wait (by assumption) ?_ | with_reducible apply geomPoison_kept | split
    | dsimp only

theorem freeCount_kept_wait {s : State} {q : QueueId} {f : Frame} {s0 sv : State} (hEq : freeCount s q f = .wait sv)
    (h0 : Kept s0 s) : Kept s0 sv := by
  have k := freeCount_kept s q f h0
  rw [hEq] at k
  exact k

theorem freeCount_kept_gone {s : State} {q : QueueId} {f : Frame} {s0 sv : State} (hEq : freeCount s q f = .gone sv)
    (h0 : Kept s0 s) : Kept s0 sv := by
  have k := freeCount_kept s q f h0
  rw [hEq] at k
  exact k

theorem freeCount_kept_count {s : State} {q : QueueId} {f : Frame} {s0 sv : State} {e0 : Nat} (hEq :
    freeCount s q f = .count sv e0) (h0 : Kept s0 s) : Kept s0 sv := by
  have k := freeCount_kept s q f h0
  rw [hEq] at k
  exact k

theorem clearTable_kept (s : State) (q : QueueId) (f : Frame) (tiles : Nat) {s0 : State} (h0 : Kept s0 s) :
    Kept s0 (clearTable s q f tiles) := by
  unfold clearTable
  repeat' first
    | with_reducible intro _ | with_reducible assumption | with_reducible apply binWrite_kept
    | with_reducible apply foldl_kept

theorem raiseTag_kept (s : State) (q : QueueId) {s0 : State} (h0 : Kept s0 s) :
    Kept s0 (raiseTag s q) := by
  unfold raiseTag
  repeat' first
    | with_reducible assumption | with_reducible apply Kept.ite | with_reducible apply clearTable_kept
    | with_reducible apply modFrame_kept | split

theorem discardBins_kept (s : State) (q : QueueId) (f : Frame) {s0 : State} (h0 : Kept s0 s) :
    Kept s0 (discardBins s q f) := by
  unfold discardBins
  repeat' first | with_reducible assumption | (simp only [kept_mk]; with_reducible apply Kept.conj)

theorem dropFrameWork_kept (s : State) (q : QueueId) {s0 : State} (h0 : Kept s0 s) :
    Kept s0 (dropFrameWork s q) := by
  unfold dropFrameWork
  repeat' first
    | with_reducible assumption | with_reducible apply stopAccesses_kept
    | (simp only [kept_mk]; with_reducible apply Kept.conj)

theorem abandonFrame_kept (s : State) (q : QueueId) {s0 : State} (h0 : Kept s0 s) :
    Kept s0 (abandonFrame s q) := by
  unfold abandonFrame
  repeat' first
    | with_reducible intro _ | with_reducible assumption | with_reducible apply writePool_kept
    | with_reducible apply geomError_kept | with_reducible apply modFrame_kept
    | with_reducible apply discardBins_kept | with_reducible apply dropFrameWork_kept
    | with_reducible apply foldl_kept | (simp only [kept_mk]; with_reducible apply Kept.conj) | split

/-- The state of every answer keeps the three fields. -/
def KeptTake (s : State) : PageTake → Prop
  | .taken v => Kept s v
  | .empty v => Kept s v
  | .wait v => Kept s v
  | .gone v => Kept s v

theorem KeptTake.taken {s v : State} (h : Kept s v) : KeptTake s (.taken v) := h

theorem KeptTake.empty {s v : State} (h : Kept s v) : KeptTake s (.empty v) := h

theorem KeptTake.wait {s v : State} (h : Kept s v) : KeptTake s (.wait v) := h

theorem KeptTake.gone {s v : State} (h : Kept s v) : KeptTake s (.gone v) := h

theorem enterPage_kept (s : State) (q : QueueId) (pkt at_ page free : Nat) {s0 : State} (h0 : Kept s0 s) :
    KeptTake s0 (enterPage s q pkt at_ page free) := by
  unfold enterPage
  repeat' first
    | with_reducible assumption | with_reducible apply Kept.ite | with_reducible apply KeptTake.taken
    | with_reducible apply KeptTake.gone | with_reducible apply queueEvent_kept
    | with_reducible apply writePool_kept | with_reducible apply graphicsKill_kept
    | with_reducible apply geomError_kept | with_reducible apply modFrame_kept | with_reducible apply detect_kept
    | with_reducible apply abandonFrame_kept | split

theorem enterPage_kept_taken {s : State} {q : QueueId} {pkt at_ page free : Nat} {s0 sv : State} (hEq :
    enterPage s q pkt at_ page free = .taken sv) (h0 : Kept s0 s) : Kept s0 sv := by
  have k := enterPage_kept s q pkt at_ page free h0
  rw [hEq] at k
  exact k

theorem enterPage_kept_empty {s : State} {q : QueueId} {pkt at_ page free : Nat} {s0 sv : State} (hEq :
    enterPage s q pkt at_ page free = .empty sv) (h0 : Kept s0 s) : Kept s0 sv := by
  have k := enterPage_kept s q pkt at_ page free h0
  rw [hEq] at k
  exact k

theorem enterPage_kept_wait {s : State} {q : QueueId} {pkt at_ page free : Nat} {s0 sv : State} (hEq :
    enterPage s q pkt at_ page free = .wait sv) (h0 : Kept s0 s) : Kept s0 sv := by
  have k := enterPage_kept s q pkt at_ page free h0
  rw [hEq] at k
  exact k

theorem enterPage_kept_gone {s : State} {q : QueueId} {pkt at_ page free : Nat} {s0 sv : State} (hEq :
    enterPage s q pkt at_ page free = .gone sv) (h0 : Kept s0 s) : Kept s0 sv := by
  have k := enterPage_kept s q pkt at_ page free h0
  rw [hEq] at k
  exact k

theorem takePage_kept (s : State) (q : QueueId) (pkt : Nat) {s0 : State} (h0 : Kept s0 s) :
    KeptTake s0 (takePage s q pkt) := by
  unfold takePage
  repeat' first
    | with_reducible assumption | with_reducible apply KeptTake.empty | with_reducible apply KeptTake.wait
    | with_reducible apply KeptTake.gone | with_reducible apply graphicsKill_kept
    | with_reducible refine freeCount_kept_wait (by assumption) ?_
    | with_reducible refine freeCount_kept_gone (by assumption) ?_
    | with_reducible refine freeCount_kept_count (by assumption) ?_
    | with_reducible refine geomRead_kept_wait (by assumption) ?_ | with_reducible apply geomPoison_kept
    | with_reducible apply enterPage_kept | with_reducible apply geomUsed_kept | split | dsimp only

theorem takePage_kept_taken {s : State} {q : QueueId} {pkt : Nat} {s0 sv : State} (hEq : takePage s q pkt = .taken sv)
    (h0 : Kept s0 s) : Kept s0 sv := by
  have k := takePage_kept s q pkt h0
  rw [hEq] at k
  exact k

theorem takePage_kept_empty {s : State} {q : QueueId} {pkt : Nat} {s0 sv : State} (hEq : takePage s q pkt = .empty sv)
    (h0 : Kept s0 s) : Kept s0 sv := by
  have k := takePage_kept s q pkt h0
  rw [hEq] at k
  exact k

theorem takePage_kept_wait {s : State} {q : QueueId} {pkt : Nat} {s0 sv : State} (hEq : takePage s q pkt = .wait sv)
    (h0 : Kept s0 s) : Kept s0 sv := by
  have k := takePage_kept s q pkt h0
  rw [hEq] at k
  exact k

theorem takePage_kept_gone {s : State} {q : QueueId} {pkt : Nat} {s0 sv : State} (hEq : takePage s q pkt = .gone sv)
    (h0 : Kept s0 s) : Kept s0 sv := by
  have k := takePage_kept s q pkt h0
  rw [hEq] at k
  exact k

theorem putBins_kept (s : State) (q : QueueId) (f : Frame) (core : Nat) (puts : List BinPut) {s0 : State} (h0 :
    Kept s0 s) :
    Kept s0 (putBins s q f core puts) := by
  unfold putBins
  repeat' first
    | with_reducible intro _ | with_reducible assumption | with_reducible apply binWrite_kept
    | with_reducible apply writeUnits_kept | with_reducible apply foldl_kept | split

theorem gfxHold_kept (q : QueueId) (more : State → List Byte → Option State) (s : State) (bs : List Byte) {s0 : State}
    (k_more : ∀ (a0 : State) (a1 : List Byte), Kept s0 a0 → KeptOpt s0 (more a0 a1)) (h0 : Kept s0 s) :
    KeptOpt s0 (gfxHold q more s bs) := by
  unfold gfxHold
  repeat' first
    | with_reducible assumption | with_reducible apply requestWake_kept | with_reducible apply k_more
    | with_reducible apply KeptOpt.some | split

theorem beginHold_kept (q : QueueId) (s : State) (bs : List Byte) {s0 : State} (h0 : Kept s0 s) :
    KeptOpt s0 (beginHold q s bs) := by
  unfold beginHold
  repeat' first
    | with_reducible assumption | with_reducible refine geomRead_kept_wait (by assumption) ?_
    | with_reducible apply KeptOpt.some | with_reducible apply KeptOpt.none | split | dsimp only

theorem beginHold_kept_eq {q : QueueId} {s : State} {bs : List Byte} {s0 sv : State} (hEq :
    beginHold q s bs = some sv) (h0 : Kept s0 s) : Kept s0 sv :=
  beginHold_kept q s bs h0 _ hEq

theorem openFrame_kept (s : State) (q : QueueId) (p : Pkt) (f : Frame) {s0 : State} (h0 : Kept s0 s) :
    Kept s0 (openFrame s q p f) := by
  unfold openFrame
  repeat' first
    | with_reducible assumption | with_reducible apply Kept.ite | with_reducible apply writePool_kept
    | with_reducible apply graphicsKill_kept | with_reducible apply geomError_kept
    | with_reducible refine geomRead_kept_wait (by assumption) ?_ | with_reducible apply raiseTag_kept
    | with_reducible apply geomPoison_kept | with_reducible apply completePkt_kept
    | with_reducible apply geomUsed_kept | (simp only [kept_mk]; with_reducible apply Kept.conj) | split

theorem execFrameBegin_kept (q : QueueId) (t : Stamp) (s : State) {s0 : State} (h0 : Kept s0 s) :
    KeptOut s0 (execFrameBegin q t s) := by
  unfold execFrameBegin
  repeat' first
    | with_reducible intro _ | with_reducible assumption | with_reducible apply Kept.ite
    | with_reducible apply badField_kept | with_reducible apply State_upTo_kept
    | with_reducible apply geomError_kept | with_reducible apply packetRow_kept | with_reducible apply gfxHold_kept
    | with_reducible apply beginHold_kept | with_reducible apply openFrame_kept | with_reducible apply KeptOut.next
    | split

theorem execAttach_kept (q : QueueId) (t : Stamp) (s : State) {s0 : State} (h0 : Kept s0 s) :
    KeptOut s0 (execAttach q t s) := by
  unfold execAttach
  repeat' first
    | with_reducible intro _ | with_reducible assumption | with_reducible apply Kept.ite
    | with_reducible apply badField_kept | with_reducible apply State_upTo_kept
    | with_reducible apply geomError_kept | with_reducible apply packetRow_kept | with_reducible apply modFrame_kept
    | with_reducible apply gfxHold_kept | with_reducible apply completePkt_kept | with_reducible apply anyTime_kept
    | with_reducible apply abandonFrame_kept | with_reducible apply KeptOut.next | split

theorem readIndices_kept (s : State) (q : QueueId) (bs : List Byte) (x : DrawArgs) {s0 : State} (h0 : Kept s0 s) :
    KeptRead s0 (readIndices s q bs x) := by
  unfold readIndices
  repeat' first
    | with_reducible assumption | with_reducible apply KeptRead.ready | with_reducible apply geomRead_kept | split
    | dsimp only

theorem readIndices_kept_wait {s : State} {q : QueueId} {bs : List Byte} {x : DrawArgs} {s0 sv : State} (hEq :
    readIndices s q bs x = .wait sv) (h0 : Kept s0 s) : Kept s0 sv := by
  have k := readIndices_kept s q bs x h0
  rw [hEq] at k
  exact k

theorem readState_kept (s : State) (q : QueueId) (bs : List Byte) {s0 : State} (h0 : Kept s0 s) :
    KeptRead s0 (readState s q bs) := by
  unfold readState
  repeat' first | with_reducible assumption | with_reducible apply geomRead_kept

theorem readState_kept_wait {s : State} {q : QueueId} {bs : List Byte} {s0 sv : State} (hEq :
    readState s q bs = .wait sv) (h0 : Kept s0 s) : Kept s0 sv := by
  have k := readState_kept s q bs h0
  rw [hEq] at k
  exact k

theorem enterDraw_kept (s : State) (q : QueueId) (p : Pkt) (bs : List Byte) (x : DrawArgs) (state : List Byte) (es :
    List IndexEntry) {s0 : State} (h0 : Kept s0 s) :
    Kept s0 (enterDraw s q p bs x state es) := by
  unfold enterDraw
  repeat' first
    | with_reducible assumption | with_reducible apply Kept.ite | with_reducible apply geomError_kept
    | with_reducible apply modFrame_kept | with_reducible apply completePkt_kept | split

theorem drawHold_kept (s : State) (q : QueueId) (bs : List Byte) (x : DrawArgs) {s0 : State} (h0 : Kept s0 s) :
    KeptOpt s0 (drawHold s q bs x) := by
  unfold drawHold
  repeat' first
    | with_reducible assumption | with_reducible refine readState_kept_wait (by assumption) ?_
    | with_reducible refine readIndices_kept_wait (by assumption) ?_ | with_reducible apply KeptOpt.some
    | with_reducible apply KeptOpt.none | split

theorem drawHold_kept_eq {s : State} {q : QueueId} {bs : List Byte} {x : DrawArgs} {s0 sv : State} (hEq :
    drawHold s q bs x = some sv) (h0 : Kept s0 s) : Kept s0 sv :=
  drawHold_kept s q bs x h0 _ hEq

theorem startDraw_kept (s : State) (q : QueueId) (p : Pkt) (bs : List Byte) (x : DrawArgs) {s0 : State} (h0 :
    Kept s0 s) :
    Kept s0 (startDraw s q p bs x) := by
  unfold startDraw
  repeat' first
    | with_reducible assumption | with_reducible apply Kept.ite | with_reducible apply badField_kept
    | with_reducible apply enterDraw_kept | with_reducible refine readIndices_kept_wait (by assumption) ?_
    | with_reducible apply graphicsKill_kept | with_reducible apply geomError_kept
    | with_reducible refine readState_kept_wait (by assumption) ?_ | with_reducible apply geomPoison_kept
    | with_reducible apply geomUsed_kept | with_reducible apply abandonFrame_kept | split

theorem execDraw_kept (q : QueueId) (t : Stamp) (s : State) {s0 : State} (h0 : Kept s0 s) :
    KeptOut s0 (execDraw q t s) := by
  unfold execDraw
  repeat' first
    | with_reducible intro _ | with_reducible assumption | with_reducible apply Kept.ite
    | with_reducible apply badField_kept | with_reducible apply startDraw_kept
    | with_reducible apply State_upTo_kept | with_reducible apply drawHold_kept
    | with_reducible apply packetRow_kept | with_reducible apply gfxHold_kept | with_reducible apply KeptOut.next
    | with_reducible apply KeptOpt.none | split

theorem readCommand_kept (s : State) (q : QueueId) (bs : List Byte) {s0 : State} (h0 : Kept s0 s) :
    KeptRead s0 (readCommand s q bs) := by
  unfold readCommand
  repeat' first | with_reducible assumption | with_reducible apply geomRead_kept

theorem readCommand_kept_wait {s : State} {q : QueueId} {bs : List Byte} {s0 sv : State} (hEq :
    readCommand s q bs = .wait sv) (h0 : Kept s0 s) : Kept s0 sv := by
  have k := readCommand_kept s q bs h0
  rw [hEq] at k
  exact k

theorem indirectHold_kept (q : QueueId) (s : State) (bs : List Byte) {s0 : State} (h0 : Kept s0 s) :
    KeptOpt s0 (indirectHold q s bs) := by
  unfold indirectHold
  repeat' first
    | with_reducible assumption | with_reducible apply drawHold_kept
    | with_reducible refine readCommand_kept_wait (by assumption) ?_ | with_reducible apply KeptOpt.some
    | with_reducible apply KeptOpt.none | split

theorem indirectHold_kept_eq {q : QueueId} {s : State} {bs : List Byte} {s0 sv : State} (hEq :
    indirectHold q s bs = some sv) (h0 : Kept s0 s) : Kept s0 sv :=
  indirectHold_kept q s bs h0 _ hEq

theorem execDrawIndirect_kept (q : QueueId) (t : Stamp) (s : State) {s0 : State} (h0 : Kept s0 s) :
    KeptOut s0 (execDrawIndirect q t s) := by
  unfold execDrawIndirect
  repeat' first
    | with_reducible intro _ | with_reducible assumption | with_reducible apply Kept.ite
    | with_reducible apply badField_kept | with_reducible apply startDraw_kept
    | with_reducible apply State_upTo_kept | with_reducible apply graphicsKill_kept
    | with_reducible apply geomError_kept | with_reducible apply packetRow_kept | with_reducible apply gfxHold_kept
    | with_reducible apply indirectHold_kept | with_reducible apply geomPoison_kept
    | with_reducible refine readCommand_kept_wait (by assumption) ?_ | with_reducible apply KeptOut.next | split

theorem execFrameEnd_kept (q : QueueId) (t : Stamp) (s : State) {s0 : State} (h0 : Kept s0 s) :
    KeptOut s0 (execFrameEnd q t s) := by
  unfold execFrameEnd
  repeat' first
    | with_reducible intro _ | with_reducible assumption | with_reducible apply Kept.ite
    | with_reducible apply State_upTo_kept | with_reducible apply geomError_kept
    | with_reducible apply packetRow_kept | with_reducible apply modFrame_kept | with_reducible apply gfxHold_kept
    | with_reducible apply anyTime_kept | with_reducible apply abandonFrame_kept | with_reducible apply KeptOut.next
    | split

theorem bindFrame_kept (s : State) (q : QueueId) {s0 : State} (h0 : Kept s0 s) :
    KeptOpt s0 (bindFrame s q) := by
  unfold bindFrame
  repeat' first
    | with_reducible assumption | with_reducible apply modFrame_kept
    | (simp only [kept_mk]; with_reducible apply Kept.conj) | with_reducible apply KeptOpt.some
    | with_reducible apply KeptOpt.none | split

theorem bindFrame_kept_eq {s : State} {q : QueueId} {s0 sv : State} (hEq : bindFrame s q = some sv) (h0 : Kept s0 s) :
    Kept s0 sv :=
  bindFrame_kept s q h0 _ hEq

theorem placeGraphics_kept (s : State) (q : QueueId) (core : Nat) (mk : Nat → Nat → Nat → Group) {s0 : State} (h0 :
    Kept s0 s) :
    KeptOpt2 s0 (placeGraphics s q core mk) := by
  unfold placeGraphics
  repeat' first
    | with_reducible assumption | with_reducible apply addWg_kept | with_reducible apply KeptOpt2.some
    | with_reducible apply KeptOpt2.none | split

theorem placeGraphics_kept_eq {s : State} {q : QueueId} {core : Nat} {mk : Nat → Nat → Nat → Group} {s0 sv : State}
    {r : Nat} (hEq : placeGraphics s q core mk = some (r, sv)) (h0 : Kept s0 s) : Kept s0 sv :=
  placeGraphics_kept s q core mk h0 _ _ hEq

theorem launchBatch_kept (s : State) (q : QueueId) (d : Draw) (core : Nat) (args : List Byte) {s0 : State} (h0 :
    Kept s0 s) :
    Kept s0 (launchBatch s q d core args) := by
  unfold launchBatch
  repeat' first
    | with_reducible assumption | with_reducible apply modFrame_kept
    | with_reducible refine placeGraphics_kept_eq (by assumption) ?_ | split | dsimp only

theorem execVertexGroupLaunch_kept (q : QueueId) (core : Nat) (t : Stamp) (s : State) {s0 : State} (h0 : Kept s0 s) :
    KeptOut s0 (execVertexGroupLaunch q core t s) := by
  unfold execVertexGroupLaunch
  repeat' first
    | with_reducible intro _ | with_reducible assumption | with_reducible apply Kept.ite
    | with_reducible apply KeptOut.ite | with_reducible refine bindFrame_kept_eq (by assumption) ?_
    | with_reducible apply State_upTo_kept | with_reducible apply launchBatch_kept
    | with_reducible apply withArgs_kept | with_reducible apply requestWake_kept | with_reducible apply KeptOut.next
    | split | dsimp only

theorem startFlush_kept (s : State) (q : QueueId) {s0 : State} (h0 : Kept s0 s) :
    Kept s0 (startFlush s q) := by
  unfold startFlush
  repeat' first
    | with_reducible assumption | with_reducible apply queueEvent_kept | with_reducible apply writePool_kept
    | with_reducible apply modFrame_kept | with_reducible apply detect_kept

theorem startStall_kept (s : State) (q : QueueId) {s0 : State} (h0 : Kept s0 s) :
    Kept s0 (startStall s q) := by
  unfold startStall
  repeat' first
    | with_reducible assumption | with_reducible apply queueEvent_kept | with_reducible apply writePool_kept
    | with_reducible apply modFrame_kept | with_reducible apply detect_kept

/-- The state of every answer keeps the three fields. -/
def KeptNeed (s : State) : PageNeed → Prop
  | .ready v => Kept s v
  | .stopped v => Kept s v

theorem KeptNeed.ready {s v : State} (h : Kept s v) : KeptNeed s (.ready v) := h

theorem KeptNeed.stopped {s v : State} (h : Kept s v) : KeptNeed s (.stopped v) := h

theorem takePages_kept (s : State) (q : QueueId) (pkt n : Nat) (x0 : Nat) {s0 : State} (h0 : Kept s0 s) :
    KeptNeed s0 (takePages s q pkt n x0) := by
  induction x0 generalizing s q pkt n with
    | zero =>
      unfold takePages
      repeat' first
        | with_reducible assumption | with_reducible apply KeptNeed.ready | with_reducible apply KeptNeed.stopped
        | with_reducible refine takePage_kept_taken (by assumption) ?_
        | with_reducible refine takePage_kept_empty (by assumption) ?_
        | with_reducible refine takePage_kept_wait (by assumption) ?_
        | with_reducible refine takePage_kept_gone (by assumption) ?_ | with_reducible apply startStall_kept | split
    | succ n ih =>
      unfold takePages
      repeat' first
        | with_reducible assumption | with_reducible apply KeptNeed.ready | with_reducible apply KeptNeed.stopped
        | with_reducible apply ih | with_reducible refine takePage_kept_taken (by assumption) ?_
        | with_reducible refine takePage_kept_empty (by assumption) ?_
        | with_reducible refine takePage_kept_wait (by assumption) ?_
        | with_reducible refine takePage_kept_gone (by assumption) ?_ | with_reducible apply startStall_kept | split

theorem takePages_kept_ready {s : State} {q : QueueId} {pkt n : Nat} {x0 : Nat} {s0 sv : State} (hEq :
    takePages s q pkt n x0 = .ready sv) (h0 : Kept s0 s) : Kept s0 sv := by
  have k := takePages_kept s q pkt n x0 h0
  rw [hEq] at k
  exact k

theorem takePages_kept_stopped {s : State} {q : QueueId} {pkt n : Nat} {x0 : Nat} {s0 sv : State} (hEq :
    takePages s q pkt n x0 = .stopped sv) (h0 : Kept s0 s) : Kept s0 sv := by
  have k := takePages_kept s q pkt n x0 h0
  rw [hEq] at k
  exact k

theorem dropGroup_kept (s : State) (slot : Nat) {s0 : State} (h0 : Kept s0 s) :
    Kept s0 (dropGroup s slot) := by
  unfold dropGroup
  repeat' first | with_reducible assumption | with_reducible apply leaveSlot_kept

theorem finishDraw_kept (s : State) (q : QueueId) (d : Draw) {s0 : State} (h0 : Kept s0 s) :
    Kept s0 (finishDraw s q d) := by
  unfold finishDraw
  repeat' first
    | with_reducible assumption | with_reducible apply Kept.ite | with_reducible apply geomError_kept
    | with_reducible apply modFrame_kept | with_reducible apply completePkt_kept

theorem execBatchBin_kept (q : QueueId) (t : Stamp) (s : State) {s0 : State} (h0 : Kept s0 s) :
    KeptOut s0 (execBatchBin q t s) := by
  unfold execBatchBin
  repeat' first
    | with_reducible assumption | with_reducible apply KeptOut.ite
    | with_reducible refine bindFrame_kept_eq (by assumption) ?_ | with_reducible apply State_upTo_kept
    | with_reducible refine takePages_kept_ready (by assumption) ?_
    | with_reducible refine takePages_kept_stopped (by assumption) ?_ | with_reducible apply dropGroup_kept
    | with_reducible apply modFrame_kept | with_reducible apply finishDraw_kept
    | with_reducible apply startFlush_kept | with_reducible apply putBins_kept | with_reducible apply KeptOut.next
    | split | dsimp only

theorem execPublishedReadReturn_kept (q : QueueId) (t : Stamp) (s : State) {s0 : State} (h0 : Kept s0 s) :
    KeptOut s0 (execPublishedReadReturn q t s) := by
  unfold execPublishedReadReturn
  repeat' first
    | with_reducible assumption | with_reducible apply KeptOut.ite
    | with_reducible refine bindFrame_kept_eq (by assumption) ?_ | with_reducible apply writePool_kept
    | with_reducible apply State_upTo_kept | with_reducible refine freeCount_kept_wait (by assumption) ?_
    | with_reducible refine freeCount_kept_gone (by assumption) ?_
    | with_reducible refine freeCount_kept_count (by assumption) ?_ | with_reducible apply modFrame_kept
    | with_reducible apply geomUsed_kept | with_reducible apply KeptOut.next | split | dsimp only

theorem execBinGraceExpire_kept (q : QueueId) (t : Stamp) (s : State) {s0 : State} (h0 : Kept s0 s) :
    KeptOut s0 (execBinGraceExpire q t s) := by
  unfold execBinGraceExpire
  repeat' first
    | with_reducible assumption | with_reducible apply Kept.ite | with_reducible apply KeptOut.ite
    | with_reducible apply State_upTo_kept | with_reducible apply startFlush_kept
    | with_reducible apply KeptOut.next | split

theorem execPartialFlushRewind_kept (q : QueueId) (t : Stamp) (s : State) {s0 : State} (h0 : Kept s0 s) :
    KeptOut s0 (execPartialFlushRewind q t s) := by
  unfold execPartialFlushRewind
  repeat' first
    | with_reducible assumption | with_reducible apply KeptOut.ite | with_reducible apply writePool_kept
    | with_reducible apply State_upTo_kept | with_reducible apply modFrame_kept | with_reducible apply raiseTag_kept
    | with_reducible apply discardBins_kept | with_reducible apply KeptOut.next | split | dsimp only

theorem execBinnerYield_kept (q : QueueId) (t : Stamp) (s : State) {s0 : State} (h0 : Kept s0 s) :
    KeptOut s0 (execBinnerYield q t s) := by
  unfold execBinnerYield
  repeat' first
    | with_reducible assumption | with_reducible apply KeptOut.ite | with_reducible apply State_upTo_kept
    | with_reducible apply binWrite_kept | (simp only [kept_mk]; with_reducible apply Kept.conj)
    | with_reducible apply KeptOut.next | split | dsimp only

theorem execFrameEndComplete_kept (q : QueueId) (t : Stamp) (s : State) {s0 : State} (h0 : Kept s0 s) :
    KeptOut s0 (execFrameEndComplete q t s) := by
  unfold execFrameEndComplete
  repeat' first
    | with_reducible assumption | with_reducible apply KeptOut.ite | with_reducible apply writePool_kept
    | with_reducible apply State_upTo_kept | with_reducible apply modFrame_kept | with_reducible apply binWrite_kept
    | with_reducible apply discardBins_kept | with_reducible apply completePkt_kept
    | (simp only [kept_mk]; with_reducible apply Kept.conj) | with_reducible apply KeptOut.next | split | dsimp only

theorem putTile_kept (s : State) (core : Nat) (x : Tile) {s0 : State} (h0 : Kept s0 s) :
    Kept s0 (putTile s core x) := by
  unfold putTile
  repeat' first | with_reducible assumption | (simp only [kept_mk]; with_reducible apply Kept.conj)

theorem tileKill_kept (s : State) (core : Nat) (q : QueueId) (code va : Nat) {s0 : State} (h0 : Kept s0 s) :
    Kept s0 (tileKill s core q code va) := by
  unfold tileKill
  repeat' first | with_reducible assumption | with_reducible apply graphicsKill_kept

theorem rowAccess_kept (s : State) (core : Nat) (q : QueueId) (va len : Nat) (need : AccessNeed) (mk :
    Nat → Nat → Nat → AccKind) {s0 : State} (h0 : Kept s0 s) :
    Kept s0 (rowAccess s core q va len need mk) := by
  unfold rowAccess
  repeat' first
    | with_reducible intro _ | with_reducible assumption | with_reducible apply Kept.ite
    | with_reducible apply enterFabric_kept | with_reducible apply tileKill_kept | with_reducible apply foldl_kept
    | split

theorem startLoad_kept (s : State) (core : Nat) (q : QueueId) (f : Frame) (tile : Nat) {s0 : State} (h0 : Kept s0 s) :
    Kept s0 (startLoad s core q f tile) := by
  unfold startLoad
  repeat' first
    | with_reducible intro _ | with_reducible assumption | with_reducible apply rowAccess_kept
    | with_reducible apply foldl_kept

theorem startBins_kept (s : State) (core : Nat) (q : QueueId) (f : Frame) (tile : Nat) {s0 : State} (h0 : Kept s0 s) :
    Kept s0 (startBins s core q f tile) := by
  unfold startBins
  repeat' first
    | with_reducible intro _ | with_reducible assumption | with_reducible apply Kept.ite
    | with_reducible apply enterFabric_kept | with_reducible apply tileKill_kept | with_reducible apply foldl_kept
    | split

theorem collectLoads_kept (s : State) (core : Nat) (f : Frame) (tl : Tile) {s0 : State} (h0 : Kept s0 s) :
    Kept s0 (collectLoads s core f tl) := by
  unfold collectLoads
  repeat' first
    | with_reducible intro _ | with_reducible assumption | with_reducible apply Kept.ite
    | with_reducible apply removeAccess_kept | with_reducible apply noteOnce_kept
    | with_reducible apply putTile_kept | with_reducible apply foldl_kept | split

theorem absorbGroups_kept (s : State) (core : Nat) (f : Frame) (x0 : Nat) {s0 : State} (h0 : Kept s0 s) :
    Kept s0 (absorbGroups s core f x0) := by
  induction x0 generalizing s core f with
    | zero =>
      unfold absorbGroups
      repeat' first
        | with_reducible assumption | with_reducible apply Kept.ite | with_reducible apply dropGroup_kept
        | with_reducible apply putTile_kept | (simp only [kept_mk]; with_reducible apply Kept.conj) | split
    | succ n ih =>
      unfold absorbGroups
      repeat' first
        | with_reducible assumption | with_reducible apply Kept.ite | with_reducible apply ih
        | with_reducible apply dropGroup_kept | with_reducible apply putTile_kept
        | (simp only [kept_mk]; with_reducible apply Kept.conj) | split

theorem tileAdvance_kept (s : State) (core : Nat) {s0 : State} (h0 : Kept s0 s) :
    Kept s0 (tileAdvance s core) := by
  unfold tileAdvance
  repeat' first
    | with_reducible assumption | with_reducible apply Kept.ite | with_reducible apply absorbGroups_kept
    | with_reducible apply collectLoads_kept | with_reducible apply putTile_kept | split | dsimp only

theorem rowWrite_kept (s : State) (core : Nat) (q : QueueId) (va : Nat) (bytes : List Byte) {s0 : State} (h0 :
    Kept s0 s) :
    Kept s0 (rowWrite s core q va bytes) := by
  unfold rowWrite
  repeat' first | with_reducible assumption | with_reducible apply rowAccess_kept

theorem flushWrites_kept (s : State) (core : Nat) (f : Frame) (tl : Tile) {s0 : State} (h0 : Kept s0 s) :
    Kept s0 (flushWrites s core f tl) := by
  unfold flushWrites
  repeat' first
    | with_reducible intro _ | with_reducible assumption | with_reducible apply Kept.ite
    | with_reducible apply rowWrite_kept | with_reducible apply foldl_kept
    | (simp only [kept_mk]; with_reducible apply Kept.conj)

theorem clearTileLines_kept (s : State) (q : QueueId) (f : Frame) (tile : Nat) {s0 : State} (h0 : Kept s0 s) :
    Kept s0 (clearTileLines s q f tile) := by
  unfold clearTileLines
  repeat' first | with_reducible assumption | (simp only [kept_mk]; with_reducible apply Kept.conj)

theorem finishTile_kept (s : State) (core : Nat) (f : Frame) (tl : Tile) {s0 : State} (h0 : Kept s0 s) :
    Kept s0 (finishTile s core f tl) := by
  unfold finishTile
  repeat' first
    | with_reducible assumption | with_reducible apply Kept.ite | with_reducible apply clearTileLines_kept
    | with_reducible apply modFrame_kept | (simp only [kept_mk]; with_reducible apply Kept.conj)

theorem startOff_kept (s : State) (d : Nat) (idle : Bool) {s0 : State} (h0 : Kept s0 s) :
    Kept s0 (startOff s d idle) := by
  unfold startOff
  repeat' first | with_reducible assumption | with_reducible apply Kept.ite | with_reducible apply modDom_kept

theorem execDomainIdleOff_kept (d : Nat) (t : Stamp) (s : State) {s0 : State} (h0 : Kept s0 s) :
    KeptOut s0 (execDomainIdleOff d t s) := by
  unfold execDomainIdleOff
  repeat' first
    | with_reducible assumption | with_reducible apply KeptOut.ite | with_reducible apply startOff_kept
    | with_reducible apply State_upTo_kept | with_reducible apply KeptOut.next

theorem execDomainOffDone_kept (d : Nat) (t : Stamp) (s : State) {s0 : State} (h0 : Kept s0 s) :
    KeptOut s0 (execDomainOffDone d t s) := by
  unfold execDomainOffDone
  repeat' first
    | with_reducible assumption | with_reducible apply KeptOut.ite | with_reducible apply State_upTo_kept
    | with_reducible apply modDom_kept | with_reducible apply KeptOut.next

theorem execDomainWake_kept (d : Nat) (t : Stamp) (s : State) {s0 : State} (h0 : Kept s0 s) :
    KeptOut s0 (execDomainWake d t s) := by
  unfold execDomainWake
  repeat' first
    | with_reducible assumption | with_reducible apply KeptOut.ite | with_reducible apply State_upTo_kept
    | with_reducible apply modDom_kept | (simp only [kept_mk]; with_reducible apply Kept.conj)
    | with_reducible apply KeptOut.next

theorem execForceOffDrained_kept (d : Nat) (t : Stamp) (s : State) {s0 : State} (h0 : Kept s0 s) :
    KeptOut s0 (execForceOffDrained d t s) := by
  unfold execForceOffDrained
  repeat' first
    | with_reducible intro _ | with_reducible assumption | with_reducible apply Kept.ite
    | with_reducible apply KeptOut.ite | with_reducible apply startOff_kept | with_reducible apply State_upTo_kept
    | with_reducible apply evictLine_kept | with_reducible apply foldl_kept | with_reducible apply KeptOut.next

theorem settleParity_kept (s : State) {s0 : State} (h0 : Kept s0 s) :
    Kept s0 (settleParity s) := by
  unfold settleParity
  repeat' first
    | with_reducible assumption | with_reducible apply Kept.ite
    | (simp only [kept_mk]; with_reducible apply Kept.conj)

theorem parityError_kept (s : State) (ni entry : Nat) {s0 : State} (h0 : Kept s0 s) :
    Kept s0 (parityError s ni entry) := by
  unfold parityError
  repeat' first
    | with_reducible assumption | with_reducible apply pushRecord_kept | with_reducible apply settleParity_kept
    | (simp only [kept_mk]; with_reducible apply Kept.conj)

theorem lookup_kept (s : State) (p : Packet) (upset : List Nat) {s0 : State} (h0 : Kept s0 s) :
    Kept s0 (lookup s p upset) := by
  unfold lookup
  repeat' first
    | with_reducible intro _ | with_reducible assumption | with_reducible apply Kept.ite
    | with_reducible apply parityError_kept | with_reducible apply foldl_kept

theorem patrolNi_kept (s : State) (upset : List (Nat × Nat)) (ni : Nat) {s0 : State} (h0 : Kept s0 s) :
    Kept s0 (patrolNi s upset ni) := by
  unfold patrolNi
  repeat' first
    | with_reducible intro _ | with_reducible assumption | with_reducible apply parityError_kept
    | with_reducible apply foldl_kept

theorem execRouteTablePatrol_kept (upset : List (Nat × Nat)) (t : Stamp) (s : State) {s0 : State} (h0 : Kept s0 s) :
    KeptOut s0 (execRouteTablePatrol upset t s) := by
  unfold execRouteTablePatrol
  repeat' first
    | with_reducible intro _ | with_reducible assumption | with_reducible apply KeptOut.ite
    | with_reducible apply State_upTo_kept | with_reducible apply patrolNi_kept | with_reducible apply foldl_kept
    | (simp only [kept_mk]; with_reducible apply Kept.conj) | with_reducible apply KeptOut.next

theorem execRouteParityStorm_kept (t : Stamp) (s : State) {s0 : State} (h0 : Kept s0 s) :
    KeptOut s0 (execRouteParityStorm t s) := by
  unfold execRouteParityStorm
  repeat' first
    | with_reducible assumption | with_reducible apply Kept.ite | with_reducible apply pushRecord_kept
    | with_reducible apply State_upTo_kept | with_reducible apply settleParity_kept
    | with_reducible apply decideSepia_kept | with_reducible apply KeptOut.next

theorem admitNow_kept (s : State) (n : Nat) (a : Access) {s0 : State} (h0 : Kept s0 s) :
    Kept s0 (admitNow s n a) := by
  unfold admitNow
  repeat' first
    | with_reducible assumption | with_reducible apply admitted_kept | with_reducible apply modAccess_kept

theorem tryAdmit_kept (s : State) (n : Nat) (a : Access) (p : Nat) {s0 : State} (h0 : Kept s0 s) :
    Kept s0 (tryAdmit s n a p).2 := by
  unfold tryAdmit
  repeat' first
    | with_reducible assumption | with_reducible apply admitNow_kept | with_reducible apply modAccess_kept
    | (simp only [kept_mk]; with_reducible apply Kept.conj) | split | dsimp only

theorem tryAdmit_kept_eq {s : State} {n : Nat} {a : Access} {p : Nat} {s0 sv : State} {r : Bool} (hEq :
    tryAdmit s n a p = (r, sv)) (h0 : Kept s0 s) : Kept s0 sv := by
  have k := tryAdmit_kept s n a p h0
  rw [hEq] at k
  exact k

theorem execAdmissionAttempt_kept (n : Nat) (t : Stamp) (s : State) {s0 : State} (h0 : Kept s0 s) :
    KeptOut s0 (execAdmissionAttempt n t s) := by
  unfold execAdmissionAttempt
  repeat' first
    | with_reducible assumption | with_reducible apply KeptOut.ite | with_reducible apply State_upTo_kept
    | with_reducible apply tryAdmit_kept | with_reducible apply beatServed_kept | with_reducible apply KeptOut.next
    | split | dsimp only

theorem reattempt_kept (s : State) (ni part : Nat) (x0 : Nat) {s0 : State} (h0 : Kept s0 s) :
    Kept s0 (reattempt s ni part x0) := by
  induction x0 generalizing s ni part with
    | zero =>
      unfold reattempt
      repeat' first
        | with_reducible assumption | with_reducible apply Kept.ite | with_reducible apply tryAdmit_kept | split
    | succ n ih =>
      unfold reattempt
      repeat' first
        | with_reducible assumption | with_reducible apply Kept.ite | with_reducible apply ih
        | with_reducible apply tryAdmit_kept | split

theorem execHeldReattempt_kept (ni part : Nat) (t : Stamp) (s : State) {s0 : State} (h0 : Kept s0 s) :
    KeptOut s0 (execHeldReattempt ni part t s) := by
  unfold execHeldReattempt
  repeat' first
    | with_reducible assumption | with_reducible apply Kept.ite | with_reducible apply reattempt_kept
    | with_reducible apply State_upTo_kept | with_reducible apply KeptOut.next

theorem execWindowBoundary_kept (part : Nat) (t : Stamp) (s : State) {s0 : State} (h0 : Kept s0 s) :
    KeptOut s0 (execWindowBoundary part t s) := by
  unfold execWindowBoundary
  repeat' first
    | with_reducible assumption | with_reducible apply Kept.ite | with_reducible apply KeptOut.ite
    | with_reducible apply State_upTo_kept | (simp only [kept_mk]; with_reducible apply Kept.conj)
    | with_reducible apply KeptOut.next | split

theorem execFlitAged_kept (k : Nat) (s : State) {s0 : State} (h0 : Kept s0 s) :
    KeptOut s0 (execFlitAged k s) := by
  unfold execFlitAged
  repeat' first
    | with_reducible assumption | (simp only [kept_mk]; with_reducible apply Kept.conj)
    | with_reducible apply KeptOut.next

theorem modWriteBack_kept (s : State) (n : Nat) (g : WriteBack → WriteBack) {s0 : State} (h0 : Kept s0 s) :
    Kept s0 (modWriteBack s n g) := by
  unfold modWriteBack
  repeat' first | with_reducible assumption | (simp only [kept_mk]; with_reducible apply Kept.conj)

theorem dropPacket_kept (s : State) (n : Nat) (x0 : InFlight) {s0 : State} (h0 : Kept s0 s) :
    Kept s0 (dropPacket s n x0) := by
  unfold dropPacket
  repeat' first
    | with_reducible assumption | with_reducible apply modWriteBack_kept | with_reducible apply modAccess_kept
    | split

theorem poisonFlight_kept (s : State) (n flit : Nat) (x0 : InFlight) {s0 : State} (h0 : Kept s0 s) :
    Kept s0 (poisonFlight s n flit x0) := by
  unfold poisonFlight
  repeat' first
    | with_reducible assumption | with_reducible apply modAccess_kept | with_reducible apply modWriteBack_kept
    | split

theorem checkFlit_kept (s : State) (n : Nat) (x : InFlight) (p : Packet) (router flit : Nat) (e : EccResult) {s0 :
    State} (h0 : Kept s0 s) :
    Kept s0 (checkFlit s n x p router flit e).1 := by
  unfold checkFlit
  repeat' first
    | with_reducible assumption | with_reducible apply pushRecord_kept | with_reducible apply poisonFlight_kept
    | with_reducible apply dropPacket_kept | (simp only [kept_mk]; with_reducible apply Kept.conj) | split

theorem checkFlit_kept_eq {s : State} {n : Nat} {x : InFlight} {p : Packet} {router flit : Nat} {e : EccResult}
    {s0 sv : State} {r : Bool} (hEq : checkFlit s n x p router flit e = (sv, r)) (h0 : Kept s0 s) : Kept s0 sv := by
  have k := checkFlit_kept s n x p router flit e h0
  rw [hEq] at k
  exact k

theorem routeHeader_kept (s : State) (n router flit : Nat) (upset : List Nat) {s0 : State} (h0 : Kept s0 s) :
    Kept s0 (routeHeader s n router flit upset) := by
  unfold routeHeader
  repeat' first
    | with_reducible assumption | with_reducible apply Kept.ite | with_reducible apply lookup_kept | split

theorem execRouterFlitArrive_kept (n router flit : Nat) (ecc : EccResult) (grants : Nat) (upset : List Nat) (t :
    Stamp) (s : State) {s0 : State} (h0 : Kept s0 s) :
    KeptOut s0 (execRouterFlitArrive n router flit ecc grants upset t s) := by
  unfold execRouterFlitArrive
  repeat' first
    | with_reducible assumption | with_reducible apply KeptOut.ite | with_reducible apply State_upTo_kept
    | with_reducible apply checkFlit_kept | with_reducible apply traceHeader_kept
    | with_reducible apply routeHeader_kept | (simp only [kept_mk]; with_reducible apply Kept.conj)
    | with_reducible apply KeptOut.next | split | dsimp only

theorem timeoutRec_kept (s : State) (c : Option CtxId) (ni : Nat) {s0 : State} (h0 : Kept s0 s) :
    Kept s0 (timeoutRec s c ni) := by
  unfold timeoutRec
  repeat' first
    | with_reducible assumption | with_reducible apply pushRecord_kept | with_reducible apply detect_kept | split

theorem timeoutRequest_kept (s : State) (n : Nat) (a : Access) {s0 : State} (h0 : Kept s0 s) :
    Kept s0 (timeoutRequest s n a) := by
  unfold timeoutRequest
  repeat' first
    | with_reducible assumption | with_reducible apply Kept.ite | with_reducible apply timeoutRec_kept
    | with_reducible apply deliver_kept | with_reducible apply addAccess_kept | with_reducible apply modAccess_kept
    | with_reducible apply answerPoison_kept | split

theorem timeoutWriteBack_kept (s : State) (n : Nat) (w : WriteBack) {s0 : State} (h0 : Kept s0 s) :
    Kept s0 (timeoutWriteBack s n w) := by
  unfold timeoutWriteBack
  repeat' first
    | with_reducible assumption | with_reducible apply modWriteBack_kept | with_reducible apply timeoutRec_kept
    | (simp only [kept_mk]; with_reducible apply Kept.conj) | split

theorem execFabricTimeout_kept (n : Nat) (t : Stamp) (s : State) {s0 : State} (h0 : Kept s0 s) :
    KeptOut s0 (execFabricTimeout n t s) := by
  unfold execFabricTimeout
  repeat' first
    | with_reducible assumption | with_reducible apply KeptOut.ite | with_reducible apply State_upTo_kept
    | with_reducible apply timeoutWriteBack_kept | with_reducible apply timeoutRequest_kept
    | with_reducible apply KeptOut.next | split | dsimp only

theorem sendHostWrite_kept (s : State) (n : Nat) (a : Access) {s0 : State} (h0 : Kept s0 s) :
    Kept s0 (sendHostWrite s n a) := by
  unfold sendHostWrite
  repeat' first
    | with_reducible assumption | with_reducible apply Kept.ite | with_reducible apply emit_kept
    | with_reducible apply flushVectors_kept | with_reducible apply answerAccess_kept
    | with_reducible apply removeAccess_kept | split

theorem afterWrite_kept (s : State) (c : Client) {s0 : State} (h0 : Kept s0 s) :
    Kept s0 (afterWrite s c) := by
  unfold afterWrite
  repeat' first | with_reducible assumption | with_reducible apply reapGroup_kept | split

theorem endWriteBack_kept (s : State) (n : Nat) {s0 : State} (h0 : Kept s0 s) :
    Kept s0 (endWriteBack s n) := by
  unfold endWriteBack
  repeat' first | with_reducible assumption | (simp only [kept_mk]; with_reducible apply Kept.conj)

theorem execWriteAcknowledge_kept (n : Nat) (t : Stamp) (s : State) {s0 : State} (h0 : Kept s0 s) :
    KeptOut s0 (execWriteAcknowledge n t s) := by
  unfold execWriteAcknowledge
  repeat' first
    | with_reducible assumption | with_reducible apply Kept.ite | with_reducible apply KeptOut.ite
    | with_reducible apply State_upTo_kept | with_reducible apply afterWrite_kept
    | with_reducible apply endWriteBack_kept | with_reducible apply sendHostWrite_kept
    | with_reducible apply removeAccess_kept | with_reducible apply KeptOut.next | split | dsimp only

theorem execInterp_kept (slot : Nat) (w : Insn) (t : Stamp) (s : State) {s0 : State} (h0 : Kept s0 s) :
    KeptOut s0 (execInterp slot w t s) := by
  unfold execInterp
  repeat' first
    | with_reducible intro _ | with_reducible assumption | with_reducible apply putGroup_kept
    | with_reducible apply issue_kept | (simp only [kept_mk]; with_reducible apply Kept.conj) | split

theorem execOutv_kept (slot : Nat) (w : Insn) (t : Stamp) (s : State) {s0 : State} (h0 : Kept s0 s) :
    KeptOut s0 (execOutv slot w t s) := by
  unfold execOutv
  repeat' first
    | with_reducible intro _ | with_reducible assumption | with_reducible apply putGroup_kept
    | with_reducible apply issue_kept

theorem execOutf_kept (slot : Nat) (w : Insn) (t : Stamp) (s : State) {s0 : State} (h0 : Kept s0 s) :
    KeptOut s0 (execOutf slot w t s) := by
  unfold execOutf
  repeat' first
    | with_reducible intro _ | with_reducible assumption | with_reducible apply putGroup_kept
    | with_reducible apply issue_kept | (simp only [kept_mk]; with_reducible apply Kept.conj)

theorem execDiscard_kept (slot : Nat) (w : Insn) (t : Stamp) (s : State) {s0 : State} (h0 : Kept s0 s) :
    KeptOut s0 (execDiscard slot w t s) := by
  unfold execDiscard
  repeat' first
    | with_reducible intro _ | with_reducible assumption | with_reducible apply putGroup_kept
    | with_reducible apply issue_kept

end Sys2Proof.Laws
end

