-- ==== Sys2Proof/Laws/KeptMailbox.lean ====
section
/-!
SUPPORT. Every operation of the Governor, the Madder and the mailbox commands keeps the queue of commands, the fuses and the LPDDR cells, each lemma
for a state that another state leads to.
-/

namespace Sys2Proof.Laws

open Machine

theorem execGovernorSample_kept (counts activity : List Nat) (estDone : Bool) (t : Stamp) (s : State) {s0 : State}
    (h0 : Kept s0 s) :
    KeptOut s0 (execGovernorSample counts activity estDone t s) := by
  unfold execGovernorSample
  repeat' first
    | with_reducible intro _ | with_reducible assumption | with_reducible apply KeptOut.ite
    | with_reducible apply State_upTo_kept | with_reducible apply pushRecord_kept | with_reducible apply foldl_kept
    | (simp only [kept_mk]; with_reducible apply Kept.conj) | with_reducible apply KeptOut.next

theorem execGovernorOutput_kept (computed : Bool) (t : Stamp) (s : State) {s0 : State} (h0 : Kept s0 s) :
    KeptOut s0 (execGovernorOutput computed t s) := by
  unfold execGovernorOutput
  repeat' first
    | with_reducible assumption | with_reducible apply Kept.ite | with_reducible apply KeptOut.ite
    | with_reducible apply emit_kept | with_reducible apply State_upTo_kept | with_reducible apply pushRecord_kept
    | (simp only [kept_mk]; with_reducible apply Kept.conj) | with_reducible apply KeptOut.next | split | dsimp only

theorem execSpmiFrameDone_kept (ok : Bool) (t : Stamp) (s : State) {s0 : State} (h0 : Kept s0 s) :
    KeptOut s0 (execSpmiFrameDone ok t s) := by
  unfold execSpmiFrameDone
  repeat' first
    | with_reducible assumption | with_reducible apply Kept.ite | with_reducible apply KeptOut.ite
    | with_reducible apply State_upTo_kept | with_reducible apply pushRecord_kept
    | (simp only [kept_mk]; with_reducible apply Kept.conj) | with_reducible apply KeptOut.next

theorem execGovSaturation_kept (t : Stamp) (s : State) {s0 : State} (h0 : Kept s0 s) :
    KeptOut s0 (execGovSaturation t s) := by
  unfold execGovSaturation
  repeat' first
    | with_reducible assumption | with_reducible apply KeptOut.ite | with_reducible apply State_upTo_kept
    | with_reducible apply pushRecord_kept | with_reducible apply decideSepia_kept
    | with_reducible apply KeptOut.next | split | dsimp only

theorem execGovFlagClear_kept (fn : Nat) (value : Word) (t : Stamp) (s : State) {s0 : State} (h0 : Kept s0 s) :
    KeptOut s0 (execGovFlagClear fn value t s) := by
  unfold execGovFlagClear
  repeat' first
    | with_reducible assumption | with_reducible apply KeptOut.ite | with_reducible apply State_upTo_kept
    | (simp only [kept_mk]; with_reducible apply Kept.conj) | with_reducible apply KeptOut.next

theorem execMetroLoRead_kept (fn size : Nat) (t : Stamp) (s : State) {s0 : State} (h0 : Kept s0 s) :
    KeptOut s0 (execMetroLoRead fn size t s) := by
  unfold execMetroLoRead
  repeat' first
    | with_reducible assumption | with_reducible apply KeptOut.ite | with_reducible apply emit_kept
    | with_reducible apply State_upTo_kept | with_reducible apply modFn_kept | with_reducible apply KeptOut.next

theorem integrityFault_kept (s : State) (cause : Nat) {s0 : State} (h0 : Kept s0 s) :
    Kept s0 (integrityFault s cause) := by
  unfold integrityFault
  repeat' first
    | with_reducible assumption | with_reducible apply Kept.ite | with_reducible apply pushRecord_kept
    | with_reducible apply faultEdge_kept | with_reducible apply fatal_kept | with_reducible apply decideSepia_kept

theorem execComparatorSelftest_kept (parityOk : Bool) (t : Stamp) (s : State) {s0 : State} (h0 : Kept s0 s) :
    KeptOut s0 (execComparatorSelftest parityOk t s) := by
  unfold execComparatorSelftest
  repeat' first
    | with_reducible assumption | with_reducible apply KeptOut.ite | with_reducible apply State_upTo_kept
    | with_reducible apply integrityFault_kept | (simp only [kept_mk]; with_reducible apply Kept.conj)
    | with_reducible apply KeptOut.next

theorem execSelftestAlarm_kept (t : Stamp) (s : State) {s0 : State} (h0 : Kept s0 s) :
    KeptOut s0 (execSelftestAlarm t s) := by
  unfold execSelftestAlarm
  repeat' first
    | with_reducible assumption | with_reducible apply KeptOut.ite | with_reducible apply State_upTo_kept
    | (simp only [kept_mk]; with_reducible apply Kept.conj) | with_reducible apply KeptOut.next | split | dsimp only

theorem execComparatorUnverified_kept (t : Stamp) (s : State) {s0 : State} (h0 : Kept s0 s) :
    KeptOut s0 (execComparatorUnverified t s) := by
  unfold execComparatorUnverified
  repeat' first
    | with_reducible assumption | with_reducible apply KeptOut.ite | with_reducible apply State_upTo_kept
    | with_reducible apply integrityFault_kept | (simp only [kept_mk]; with_reducible apply Kept.conj)
    | with_reducible apply KeptOut.next | split | dsimp only

theorem confirmedMismatch_kept (s : State) (iface : Nat) {s0 : State} (h0 : Kept s0 s) :
    Kept s0 (confirmedMismatch s iface) := by
  unfold confirmedMismatch
  repeat' first
    | with_reducible assumption | with_reducible apply Kept.ite | with_reducible apply pushRecord_kept
    | with_reducible apply integrityFault_kept | (simp only [kept_mk]; with_reducible apply Kept.conj)

theorem replayFails_kept (s : State) {s0 : State} (h0 : Kept s0 s) :
    Kept s0 (replayFails s) := by
  unfold replayFails
  repeat' first
    | with_reducible assumption | with_reducible apply Kept.ite | with_reducible apply integrityFault_kept
    | (simp only [kept_mk]; with_reducible apply Kept.conj)

theorem execLockstepMismatch_kept (kind : MismatchKind) (t : Stamp) (s : State) {s0 : State} (h0 : Kept s0 s) :
    KeptOut s0 (execLockstepMismatch kind t s) := by
  unfold execLockstepMismatch
  repeat' first
    | with_reducible assumption | with_reducible apply Kept.ite | with_reducible apply KeptOut.ite
    | with_reducible apply State_upTo_kept | with_reducible apply confirmedMismatch_kept
    | with_reducible apply integrityFault_kept | with_reducible apply replayFails_kept
    | with_reducible apply KeptOut.next | split

theorem execReplayComplete_kept (t : Stamp) (s : State) {s0 : State} (h0 : Kept s0 s) :
    KeptOut s0 (execReplayComplete t s) := by
  unfold execReplayComplete
  repeat' first
    | with_reducible assumption | with_reducible apply State_upTo_kept
    | (simp only [kept_mk]; with_reducible apply Kept.conj) | with_reducible apply KeptOut.next

theorem execMordantCheckpoint_kept (t : Stamp) (s : State) {s0 : State} (h0 : Kept s0 s) :
    KeptOut s0 (execMordantCheckpoint t s) := by
  unfold execMordantCheckpoint
  repeat' first
    | with_reducible assumption | with_reducible apply takeCheckpoint_kept | with_reducible apply State_upTo_kept
    | with_reducible apply KeptOut.next

theorem execSepiaEntryComplete_kept (t : Stamp) (s : State) {s0 : State} (h0 : Kept s0 s) :
    KeptOut s0 (execSepiaEntryComplete t s) := by
  unfold execSepiaEntryComplete
  repeat' first
    | with_reducible assumption | with_reducible apply Kept.ite | with_reducible apply State_upTo_kept
    | with_reducible apply completeSepia_kept | with_reducible apply KeptOut.next | split | dsimp only

theorem execWatchdogHeartbeat_kept (t : Stamp) (s : State) {s0 : State} (h0 : Kept s0 s) :
    KeptOut s0 (execWatchdogHeartbeat t s) := by
  unfold execWatchdogHeartbeat
  repeat' first
    | with_reducible assumption | with_reducible apply KeptOut.ite | with_reducible apply State_upTo_kept
    | (simp only [kept_mk]; with_reducible apply Kept.conj) | with_reducible apply KeptOut.next

theorem execWatchdogExpire_kept (t : Stamp) (s : State) {s0 : State} (h0 : Kept s0 s) :
    KeptOut s0 (execWatchdogExpire t s) := by
  unfold execWatchdogExpire
  repeat' first
    | with_reducible assumption | with_reducible apply KeptOut.ite | with_reducible apply State_upTo_kept
    | (simp only [kept_mk]; with_reducible apply Kept.conj) | with_reducible apply KeptOut.next

theorem madderIssue_kept (slot : Nat) (w : Insn) (t : Stamp) (s : State) (op : Nat) (kind : Group → IWord → MKind)
    {s0 : State} (h0 : Kept s0 s) :
    KeptOut s0 (madderIssue slot w t s op kind) := by
  unfold madderIssue
  repeat' first
    | with_reducible intro _ | with_reducible assumption | with_reducible apply Kept.ite
    | with_reducible apply putGroup_kept | with_reducible apply issue_kept | with_reducible apply requestWake_kept
    | (simp only [kept_mk]; with_reducible apply Kept.conj)

theorem execMload_kept (slot : Nat) (w : Insn) (t : Stamp) (s : State) {s0 : State} (h0 : Kept s0 s) :
    KeptOut s0 (execMload slot w t s) := by
  unfold execMload
  repeat' first | with_reducible assumption | with_reducible apply madderIssue_kept

theorem execMma_kept (slot : Nat) (w : Insn) (t : Stamp) (s : State) {s0 : State} (h0 : Kept s0 s) :
    KeptOut s0 (execMma slot w t s) := by
  unfold execMma
  repeat' first | with_reducible assumption | with_reducible apply madderIssue_kept

theorem execMstore_kept (slot : Nat) (w : Insn) (t : Stamp) (s : State) {s0 : State} (h0 : Kept s0 s) :
    KeptOut s0 (execMstore slot w t s) := by
  unfold execMstore
  repeat' first | with_reducible assumption | with_reducible apply madderIssue_kept

theorem execMzero_kept (slot : Nat) (w : Insn) (t : Stamp) (s : State) {s0 : State} (h0 : Kept s0 s) :
    KeptOut s0 (execMzero slot w t s) := by
  unfold execMzero
  repeat' first | with_reducible assumption | with_reducible apply madderIssue_kept

theorem execMmaf_kept (slot : Nat) (w : Insn) (t : Stamp) (s : State) {s0 : State} (h0 : Kept s0 s) :
    KeptOut s0 (execMmaf slot w t s) := by
  unfold execMmaf
  repeat' first | with_reducible assumption | with_reducible apply madderIssue_kept

theorem execMsync_kept (slot : Nat) (w : Insn) (t : Stamp) (s : State) {s0 : State} (h0 : Kept s0 s) :
    KeptOut s0 (execMsync slot w t s) := by
  unfold execMsync
  repeat' first
    | with_reducible intro _ | with_reducible assumption | with_reducible apply Kept.ite
    | with_reducible apply putGroup_kept | with_reducible refine publish_kept_done (by assumption) ?_
    | with_reducible refine publish_kept_held (by assumption) ?_
    | with_reducible refine publish_kept_killed (by assumption) ?_ | with_reducible apply issue_kept | split

theorem removeOp_kept (s : State) (op : Nat) {s0 : State} (h0 : Kept s0 s) :
    Kept s0 (removeOp s op) := by
  unfold removeOp
  repeat' first | with_reducible assumption | (simp only [kept_mk]; with_reducible apply Kept.conj)

theorem mloadReads_kept (s : State) (op : Nat) (o : MOp) (g : Group) (base stride len : Nat) {s0 : State} (h0 :
    Kept s0 s) :
    Kept s0 (mloadReads s op o g base stride len) := by
  unfold mloadReads
  repeat' first
    | with_reducible intro _ | with_reducible assumption | with_reducible apply Kept.ite
    | with_reducible apply enterFabric_kept | with_reducible apply modOp_kept | with_reducible apply foldl_kept
    | split

theorem execMadderHandoff_kept (op : Nat) (t : Stamp) (s : State) {s0 : State} (h0 : Kept s0 s) :
    KeptOut s0 (execMadderHandoff op t s) := by
  unfold execMadderHandoff
  repeat' first
    | with_reducible assumption | with_reducible apply KeptOut.ite | with_reducible apply State_upTo_kept
    | with_reducible apply mloadReads_kept | with_reducible apply modOp_kept | with_reducible apply KeptOut.next
    | split | dsimp only

theorem execMloadDataReturn_kept (op : Nat) (t : Stamp) (s : State) {s0 : State} (h0 : Kept s0 s) :
    KeptOut s0 (execMloadDataReturn op t s) := by
  unfold execMloadDataReturn
  repeat' first
    | with_reducible intro _ | with_reducible assumption | with_reducible apply KeptOut.ite
    | with_reducible apply State_upTo_kept | with_reducible apply modOp_kept
    | with_reducible apply removeAccess_kept | with_reducible apply foldl_kept | with_reducible apply KeptOut.next
    | split | dsimp only

theorem madderFault_kept (s : State) (o : MOp) (g : Group) (code : Nat) (addr : RecAddr) (unitNo row : Nat) (reason :
    Nat) {s0 : State} (h0 : Kept s0 s) :
    Kept s0 (madderFault s o g code addr unitNo row reason) := by
  unfold madderFault
  repeat' first | with_reducible assumption | with_reducible apply killContext_kept

theorem commitStore_kept (s : State) (o : MOp) (g : Group) (n base stride code mode : Nat) {s0 : State} (h0 :
    Kept s0 s) :
    Kept s0 (commitStore s o g n base stride code mode) := by
  unfold commitStore
  repeat' first
    | with_reducible intro _ | with_reducible assumption | with_reducible apply madderFault_kept
    | with_reducible apply enterFabric_kept | with_reducible apply putGroup_kept | with_reducible apply foldl_kept
    | split | dsimp only

theorem commitOp_kept (s : State) (o : MOp) (g : Group) {s0 : State} (h0 : Kept s0 s) :
    Kept s0 (commitOp s o g) := by
  unfold commitOp
  repeat' first
    | with_reducible assumption | with_reducible apply putGroup_kept | with_reducible apply commitStore_kept | split

theorem execRetireCommit_kept (op : Nat) (ue : Bool) (t : Stamp) (s : State) {s0 : State} (h0 : Kept s0 s) :
    KeptOut s0 (execRetireCommit op ue t s) := by
  unfold execRetireCommit
  repeat' first
    | with_reducible assumption | with_reducible apply KeptOut.ite | with_reducible apply madderFault_kept
    | with_reducible apply removeOp_kept | with_reducible apply State_upTo_kept | with_reducible apply commitOp_kept
    | with_reducible apply reapGroup_kept | with_reducible apply KeptOut.next | split | dsimp only

theorem execRetireSquash_kept (op : Nat) (t : Stamp) (s : State) {s0 : State} (h0 : Kept s0 s) :
    KeptOut s0 (execRetireSquash op t s) := by
  unfold execRetireSquash
  repeat' first
    | with_reducible assumption | with_reducible apply KeptOut.ite | with_reducible apply removeOp_kept
    | with_reducible apply State_upTo_kept | with_reducible apply reapGroup_kept
    | (simp only [kept_mk]; with_reducible apply Kept.conj) | with_reducible apply KeptOut.next | split | dsimp only

theorem refuseGo_kept (s : State) (k : SlotId) (value : Word) (cause : Nat) {s0 : State} (h0 : Kept s0 s) :
    Kept s0 (refuseGo s k value cause) := by
  unfold refuseGo
  repeat' first
    | with_reducible assumption | with_reducible apply pushRecord_kept | with_reducible apply setSlot_kept

theorem acceptGo_kept (s : State) (k : SlotId) (value : Word) {s0 : State} (h0 : Kept s0 s) :
    Kept s0 (acceptGo s k value) := by
  unfold acceptGo
  repeat' first | with_reducible assumption | with_reducible apply setSlot_kept

theorem execMbxAck_kept (k : SlotId) (value : Word) (t : Stamp) (s : State) {s0 : State} (h0 : Kept s0 s) :
    KeptOut s0 (execMbxAck k value t s) := by
  unfold execMbxAck
  repeat' first
    | with_reducible assumption | with_reducible apply Kept.ite | with_reducible apply State_upTo_kept
    | with_reducible apply setSlot_kept | with_reducible apply KeptOut.next

theorem execUnknownCmd_kept (k : SlotId) (t : Stamp) (s : State) {s0 : State} (h0 : Kept s0 s) :
    KeptOut s0 (execUnknownCmd k t s) := by
  unfold execUnknownCmd
  repeat' first
    | with_reducible assumption | with_reducible apply Kept.ite | with_reducible apply State_upTo_kept
    | with_reducible apply slotRefuse_kept | with_reducible apply KeptOut.next

theorem execNop_kept (k : SlotId) (t : Stamp) (s : State) {s0 : State} (h0 : Kept s0 s) :
    KeptOut s0 (execNop k t s) := by
  unfold execNop
  repeat' first
    | with_reducible intro _ | with_reducible assumption | with_reducible apply State_upTo_kept
    | with_reducible apply slotDone_kept | with_reducible apply mbxRow_kept | with_reducible apply noResume_kept
    | with_reducible apply KeptOut.next

theorem execTenantInfo_kept (k : SlotId) (t : Stamp) (s : State) {s0 : State} (h0 : Kept s0 s) :
    KeptOut s0 (execTenantInfo k t s) := by
  unfold execTenantInfo
  repeat' first
    | with_reducible intro _ | with_reducible assumption | with_reducible apply State_upTo_kept
    | with_reducible apply slotDone_kept | with_reducible apply mbxRow_kept | with_reducible apply noResume_kept
    | with_reducible apply KeptOut.next

theorem execAdmTenantInfo_kept (k : SlotId) (t : Stamp) (s : State) {s0 : State} (h0 : Kept s0 s) :
    KeptOut s0 (execAdmTenantInfo k t s) := by
  unfold execAdmTenantInfo
  repeat' first
    | with_reducible intro _ | with_reducible assumption | with_reducible apply State_upTo_kept
    | with_reducible apply noResume_kept | with_reducible apply slotDone_kept | with_reducible apply mbxRow_kept
    | with_reducible apply KeptOut.next

theorem takeUnits_kept (s : State) (n : Nat) {s0 : State} (h0 : Kept s0 s) :
    Kept s0 (takeUnits s n).2 := by
  unfold takeUnits
  repeat' first | with_reducible assumption | (simp only [kept_mk]; with_reducible apply Kept.conj)

theorem takeUnits_kept_eq {s : State} {n : Nat} {s0 sv : State} {r : List Nat} (hEq : takeUnits s n = (r, sv)) (h0 :
    Kept s0 s) : Kept s0 sv := by
  have k := takeUnits_kept s n h0
  rw [hEq] at k
  exact k

theorem createCtx_kept (s : State) (k : SlotId) (cmd : List Word) {s0 : State} (h0 : Kept s0 s) :
    Kept s0 (createCtx s k cmd) := by
  unfold createCtx
  repeat' first
    | with_reducible assumption | with_reducible apply slotDone_kept | with_reducible apply addTable_kept
    | with_reducible apply takeUnits_kept | (simp only [kept_mk]; with_reducible apply Kept.conj)

theorem execCtxCreate_kept (k : SlotId) (t : Stamp) (s : State) {s0 : State} (h0 : Kept s0 s) :
    KeptOut s0 (execCtxCreate k t s) := by
  unfold execCtxCreate
  repeat' first
    | with_reducible intro _ | with_reducible assumption | with_reducible apply noResume_kept
    | with_reducible apply State_upTo_kept | with_reducible apply mbxRow_kept | with_reducible apply createCtx_kept
    | with_reducible apply KeptOut.next

theorem endDestroy_kept (s : State) (k : SlotId) (cmd : List Word) {s0 : State} (h0 : Kept s0 s) :
    Kept s0 (endDestroy s k cmd) := by
  unfold endDestroy
  repeat' first
    | with_reducible assumption | with_reducible apply Kept.ite | with_reducible apply finishHeld_kept
    | with_reducible apply reapObjects_kept | with_reducible apply destroyContext_kept

theorem startDestroy_kept (s : State) (k : SlotId) (cmd : List Word) {s0 : State} (h0 : Kept s0 s) :
    Kept s0 (startDestroy s k cmd) := by
  unfold startDestroy
  repeat' first
    | with_reducible assumption | with_reducible apply stopWork_kept | with_reducible apply endDestroy_kept
    | with_reducible apply modCtx_kept | with_reducible apply holdResult_kept
    | (simp only [kept_mk]; with_reducible apply Kept.conj)

theorem execCtxDestroy_kept (k : SlotId) (t : Stamp) (s : State) {s0 : State} (h0 : Kept s0 s) :
    KeptOut s0 (execCtxDestroy k t s) := by
  unfold execCtxDestroy
  repeat' first
    | with_reducible intro _ | with_reducible assumption | with_reducible apply State_upTo_kept
    | with_reducible apply endDestroy_kept | with_reducible apply mbxRow_kept
    | with_reducible apply startDestroy_kept | with_reducible apply KeptOut.next

theorem execCtxReset_kept (k : SlotId) (t : Stamp) (s : State) {s0 : State} (h0 : Kept s0 s) :
    KeptOut s0 (execCtxReset k t s) := by
  unfold execCtxReset
  repeat' first
    | with_reducible intro _ | with_reducible assumption | with_reducible apply State_upTo_kept
    | with_reducible apply startForfeit_kept | with_reducible apply mbxRow_kept | with_reducible apply noResume_kept
    | with_reducible apply KeptOut.next

theorem execCtxSet_kept (k : SlotId) (t : Stamp) (s : State) {s0 : State} (h0 : Kept s0 s) :
    KeptOut s0 (execCtxSet k t s) := by
  unfold execCtxSet
  repeat' first
    | with_reducible intro _ | with_reducible assumption | with_reducible apply State_upTo_kept
    | with_reducible apply noResume_kept | with_reducible apply slotDone_kept | with_reducible apply modCtx_kept
    | with_reducible apply mbxRow_kept | with_reducible apply KeptOut.next

theorem execQCreate_kept (k : SlotId) (t : Stamp) (s : State) {s0 : State} (h0 : Kept s0 s) :
    KeptOut s0 (execQCreate k t s) := by
  unfold execQCreate
  repeat' first
    | with_reducible intro _ | with_reducible assumption | with_reducible apply settleQueue_kept
    | with_reducible apply State_upTo_kept | with_reducible apply noResume_kept | with_reducible apply slotDone_kept
    | with_reducible apply mbxRow_kept | (simp only [kept_mk]; with_reducible apply Kept.conj)
    | with_reducible apply KeptOut.next

theorem endQDestroy_kept (s : State) (k : SlotId) (cmd : List Word) {s0 : State} (h0 : Kept s0 s) :
    Kept s0 (endQDestroy s k cmd) := by
  unfold endQDestroy
  repeat' first
    | with_reducible assumption | with_reducible apply Kept.ite | with_reducible apply finishHeld_kept
    | with_reducible apply modCtx_kept | (simp only [kept_mk]; with_reducible apply Kept.conj)

theorem startQDestroy_kept (s : State) (k : SlotId) (cmd : List Word) {s0 : State} (h0 : Kept s0 s) :
    Kept s0 (startQDestroy s k cmd) := by
  unfold startQDestroy
  repeat' first
    | with_reducible assumption | with_reducible apply endQDestroy_kept | with_reducible apply discardBins_kept
    | with_reducible apply stopQueues_kept | with_reducible apply holdResult_kept
    | with_reducible apply modQueue_kept | split

theorem execQDestroy_kept (k : SlotId) (t : Stamp) (s : State) {s0 : State} (h0 : Kept s0 s) :
    KeptOut s0 (execQDestroy k t s) := by
  unfold execQDestroy
  repeat' first
    | with_reducible intro _ | with_reducible assumption | with_reducible apply startQDestroy_kept
    | with_reducible apply endQDestroy_kept | with_reducible apply State_upTo_kept
    | with_reducible apply mbxRow_kept | with_reducible apply KeptOut.next

theorem execQSet_kept (k : SlotId) (t : Stamp) (s : State) {s0 : State} (h0 : Kept s0 s) :
    KeptOut s0 (execQSet k t s) := by
  unfold execQSet
  repeat' first
    | with_reducible intro _ | with_reducible assumption | with_reducible apply State_upTo_kept
    | with_reducible apply noResume_kept | with_reducible apply slotDone_kept | with_reducible apply modQueue_kept
    | with_reducible apply mbxRow_kept | with_reducible apply KeptOut.next

theorem sendRecord_kept (s : State) (k : SlotId) (c : CtxId) (va : Nat) (h : Home) (l : Leaf) (bs : List Byte) {s0 :
    State} (h0 : Kept s0 s) :
    Kept s0 (sendRecord s k c va h l bs) := by
  unfold sendRecord
  repeat' first
    | with_reducible intro _ | with_reducible assumption | with_reducible apply enterFabric_kept
    | with_reducible apply foldl_kept

theorem endQuery_kept (s : State) (k : SlotId) (y20 : List Word) {s0 : State} (h0 : Kept s0 s) :
    Kept s0 (endQuery s k y20) := by
  unfold endQuery
  repeat' first
    | with_reducible assumption | with_reducible apply Kept.ite | with_reducible apply finishHeld_kept
    | (simp only [kept_mk]; with_reducible apply Kept.conj)

theorem startQuery_kept (s : State) (k : SlotId) (cmd : List Word) {s0 : State} (h0 : Kept s0 s) :
    Kept s0 (startQuery s k cmd) := by
  unfold startQuery
  extract_lets c
  split
  · exact slotDone_kept _ _ _ h0
  · exact slotDone_kept _ _ _ (tableKill_kept _ _ _ _ h0)
  · extract_lets s1
    have h1 : Kept s0 s1 := sendRecord_kept _ _ _ _ _ _ _ (holdResult_kept _ _ _ h0)
    refine endQuery_kept _ _ _ ?_
    split
    · exact modCtx_kept _ _ _ h1
    · exact h1

theorem execQueryCtx_kept (k : SlotId) (t : Stamp) (s : State) {s0 : State} (h0 : Kept s0 s) :
    KeptOut s0 (execQueryCtx k t s) := by
  unfold execQueryCtx
  repeat' first
    | with_reducible intro _ | with_reducible assumption | with_reducible apply endQuery_kept
    | with_reducible apply State_upTo_kept | with_reducible apply startQuery_kept | with_reducible apply mbxRow_kept
    | with_reducible apply KeptOut.next

theorem markZero_cells (l : Lpddr) (u : List Nat) : (markZero l u).cells = l.cells := rfl

theorem allocObject_kept (s : State) (k : SlotId) (cmd : List Word) {s0 : State} (h0 : Kept s0 s) :
    Kept s0 (allocObject s k cmd) := by
  unfold allocObject
  repeat' first
    | with_reducible assumption | (simp only [kept_mk, markZero_cells]; with_reducible apply Kept.conj)
    | with_reducible apply slotDone_kept | with_reducible apply takeUnits_kept

theorem execMemAlloc_kept (k : SlotId) (t : Stamp) (s : State) {s0 : State} (h0 : Kept s0 s) :
    KeptOut s0 (execMemAlloc k t s) := by
  unfold execMemAlloc
  repeat' first
    | with_reducible intro _ | with_reducible assumption | with_reducible apply allocObject_kept
    | with_reducible apply State_upTo_kept | with_reducible apply mbxRow_kept | with_reducible apply noResume_kept
    | with_reducible apply KeptOut.next

theorem endMemFree_kept (s : State) (k : SlotId) (cmd : List Word) {s0 : State} (h0 : Kept s0 s) :
    Kept s0 (endMemFree s k cmd) := by
  unfold endMemFree
  repeat' first
    | with_reducible assumption | with_reducible apply Kept.ite | with_reducible apply finishHeld_kept
    | with_reducible apply freeObject_kept

theorem execMemFree_kept (k : SlotId) (t : Stamp) (s : State) {s0 : State} (h0 : Kept s0 s) :
    KeptOut s0 (execMemFree k t s) := by
  unfold execMemFree
  repeat' first
    | with_reducible intro _ | with_reducible assumption | with_reducible apply State_upTo_kept
    | with_reducible apply endMemFree_kept | with_reducible apply holdResult_kept | with_reducible apply mbxRow_kept
    | with_reducible apply KeptOut.next

theorem addPages_kept (s : State) (c : CtxId) (lo hi : Nat) (ls : List Leaf) {s0 : State} (h0 : Kept s0 s) :
    Kept s0 (addPages s c lo hi ls) := by
  unfold addPages
  repeat' first
    | with_reducible intro _ | with_reducible assumption | with_reducible apply modCtx_kept
    | with_reducible apply addTable_kept | with_reducible apply foldl_kept

theorem runMap_kept (s : State) (k : SlotId) (cmd : List Word) {s0 : State} (h0 : Kept s0 s) :
    Kept s0 (runMap s k cmd) := by
  unfold runMap
  repeat' first
    | with_reducible assumption | with_reducible apply addPages_kept | with_reducible apply slotDone_kept
    | with_reducible apply slotRefuse_kept | split

theorem execMemMap_kept (k : SlotId) (t : Stamp) (s : State) {s0 : State} (h0 : Kept s0 s) :
    KeptOut s0 (execMemMap k t s) := by
  unfold execMemMap
  repeat' first
    | with_reducible intro _ | with_reducible assumption | with_reducible apply State_upTo_kept
    | with_reducible apply runMap_kept | with_reducible apply mbxRow_kept | with_reducible apply noResume_kept
    | with_reducible apply KeptOut.next

theorem endUnmap_kept (s : State) (k : SlotId) (cmd : List Word) {s0 : State} (h0 : Kept s0 s) :
    Kept s0 (endUnmap s k cmd) := by
  unfold endUnmap
  repeat' first | with_reducible assumption | with_reducible apply Kept.ite | with_reducible apply finishHeld_kept

theorem startUnmap_kept (s : State) (k : SlotId) (cmd : List Word) {s0 : State} (h0 : Kept s0 s) :
    Kept s0 (startUnmap s k cmd) := by
  unfold startUnmap
  repeat' first
    | with_reducible assumption | with_reducible apply modCtx_kept | with_reducible apply reapObjects_kept
    | with_reducible apply endUnmap_kept | with_reducible apply holdResult_kept
    | with_reducible apply recheckWaits_kept

theorem execMemUnmap_kept (k : SlotId) (t : Stamp) (s : State) {s0 : State} (h0 : Kept s0 s) :
    KeptOut s0 (execMemUnmap k t s) := by
  unfold execMemUnmap
  repeat' first
    | with_reducible intro _ | with_reducible assumption | with_reducible apply endUnmap_kept
    | with_reducible apply startUnmap_kept | with_reducible apply State_upTo_kept | with_reducible apply mbxRow_kept
    | with_reducible apply KeptOut.next

theorem runAcquire_kept (s : State) (k : SlotId) (cmd : List Word) {s0 : State} (h0 : Kept s0 s) :
    Kept s0 (runAcquire s k cmd) := by
  unfold runAcquire
  repeat' first
    | with_reducible assumption | with_reducible apply addPages_kept | with_reducible apply slotDone_kept
    | (simp only [kept_mk]; with_reducible apply Kept.conj)

theorem execSegAcquire_kept (k : SlotId) (t : Stamp) (s : State) {s0 : State} (h0 : Kept s0 s) :
    KeptOut s0 (execSegAcquire k t s) := by
  unfold execSegAcquire
  repeat' first
    | with_reducible intro _ | with_reducible assumption | with_reducible apply noResume_kept
    | with_reducible apply State_upTo_kept | with_reducible apply runAcquire_kept | with_reducible apply mbxRow_kept
    | with_reducible apply KeptOut.next

theorem freeReleased_kept (s : State) (k : SlotId) (cmd : List Word) {s0 : State} (h0 : Kept s0 s) :
    Kept s0 (freeReleased s k cmd) := by
  unfold freeReleased
  repeat' first
    | with_reducible assumption | with_reducible apply Kept.ite | with_reducible apply finishHeld_kept
    | (simp only [kept_mk]; with_reducible apply Kept.conj)

theorem endRelease_kept (s : State) (k : SlotId) (cmd : List Word) {s0 : State} (h0 : Kept s0 s) :
    Kept s0 (endRelease s k cmd) := by
  unfold endRelease
  repeat' first
    | with_reducible assumption | with_reducible apply Kept.ite | with_reducible apply recheckWaits_kept
    | with_reducible apply modCtx_kept | with_reducible apply freeReleased_kept

theorem startRelease_kept (s : State) (k : SlotId) (cmd : List Word) {s0 : State} (h0 : Kept s0 s) :
    Kept s0 (startRelease s k cmd) := by
  unfold startRelease
  repeat' first
    | with_reducible assumption | with_reducible apply setSlot_kept | with_reducible apply endRelease_kept
    | with_reducible apply holdResult_kept

theorem execSegRelease_kept (k : SlotId) (t : Stamp) (s : State) {s0 : State} (h0 : Kept s0 s) :
    KeptOut s0 (execSegRelease k t s) := by
  unfold execSegRelease
  repeat' first
    | with_reducible intro _ | with_reducible assumption | with_reducible apply State_upTo_kept
    | with_reducible apply startRelease_kept | with_reducible apply endRelease_kept
    | with_reducible apply mbxRow_kept | with_reducible apply KeptOut.next

theorem maintLine_kept (s : State) (op : Nat) (writable : Bool) (ln : Line) {s0 : State} (h0 : Kept s0 s) :
    Kept s0 (maintLine s op writable ln) := by
  unfold maintLine
  repeat' first
    | with_reducible assumption | with_reducible apply dropLine_kept | with_reducible apply writeBackLine_kept
    | with_reducible apply evictLine_kept | with_reducible apply setLine_kept | split

theorem endMaint_kept (s : State) (k : SlotId) (cmd : List Word) {s0 : State} (h0 : Kept s0 s) :
    Kept s0 (endMaint s k cmd) := by
  unfold endMaint
  repeat' first | with_reducible assumption | with_reducible apply Kept.ite | with_reducible apply finishHeld_kept

theorem startMaint_kept (s : State) (k : SlotId) (cmd : List Word) {s0 : State} (h0 : Kept s0 s) :
    Kept s0 (startMaint s k cmd) := by
  unfold startMaint
  repeat' first
    | with_reducible intro _ | with_reducible assumption | with_reducible apply endMaint_kept
    | with_reducible apply maintLine_kept | with_reducible apply holdResult_kept | with_reducible apply foldl_kept
    | split

theorem execVatMaintClean_kept (k : SlotId) (t : Stamp) (s : State) {s0 : State} (h0 : Kept s0 s) :
    KeptOut s0 (execVatMaintClean k t s) := by
  unfold execVatMaintClean
  repeat' first
    | with_reducible intro _ | with_reducible assumption | with_reducible apply State_upTo_kept
    | with_reducible apply startMaint_kept | with_reducible apply endMaint_kept | with_reducible apply mbxRow_kept
    | with_reducible apply KeptOut.next

theorem execVatMaintInvalidate_kept (k : SlotId) (t : Stamp) (s : State) {s0 : State} (h0 : Kept s0 s) :
    KeptOut s0 (execVatMaintInvalidate k t s) := by
  unfold execVatMaintInvalidate
  repeat' first
    | with_reducible intro _ | with_reducible assumption | with_reducible apply State_upTo_kept
    | with_reducible apply startMaint_kept | with_reducible apply endMaint_kept | with_reducible apply mbxRow_kept
    | with_reducible apply KeptOut.next

theorem execVatMaintCleanInvalidate_kept (k : SlotId) (t : Stamp) (s : State) {s0 : State} (h0 : Kept s0 s) :
    KeptOut s0 (execVatMaintCleanInvalidate k t s) := by
  unfold execVatMaintCleanInvalidate
  repeat' first
    | with_reducible intro _ | with_reducible assumption | with_reducible apply State_upTo_kept
    | with_reducible apply startMaint_kept | with_reducible apply endMaint_kept | with_reducible apply mbxRow_kept
    | with_reducible apply KeptOut.next

theorem execAdmGrant_kept (k : SlotId) (t : Stamp) (s : State) {s0 : State} (h0 : Kept s0 s) :
    KeptOut s0 (execAdmGrant k t s) := by
  unfold execAdmGrant
  repeat' first
    | with_reducible intro _ | with_reducible assumption | with_reducible apply State_upTo_kept
    | with_reducible apply noResume_kept | with_reducible apply slotDone_kept | with_reducible apply modFn_kept
    | with_reducible apply mbxRow_kept | with_reducible apply KeptOut.next

theorem clearPartitions_kept (s : State) (victims : List CtxId) {s0 : State} (h0 : Kept s0 s) :
    Kept s0 (clearPartitions s victims) := by
  unfold clearPartitions
  repeat' first
    | with_reducible intro _ | with_reducible assumption | with_reducible apply modCtx_kept
    | with_reducible apply foldl_kept

theorem runRevoke_kept (s : State) (k : SlotId) (cmd : List Word) {s0 : State} (h0 : Kept s0 s) :
    Kept s0 (runRevoke s k cmd) := by
  unfold runRevoke
  repeat' first
    | with_reducible assumption | with_reducible apply Kept.ite | with_reducible apply clearPartitions_kept
    | with_reducible apply startForfeit_kept | with_reducible apply slotDone_kept | with_reducible apply modFn_kept

theorem execAdmRevoke_kept (k : SlotId) (t : Stamp) (s : State) {s0 : State} (h0 : Kept s0 s) :
    KeptOut s0 (execAdmRevoke k t s) := by
  unfold execAdmRevoke
  repeat' first
    | with_reducible intro _ | with_reducible assumption | with_reducible apply State_upTo_kept
    | with_reducible apply runRevoke_kept | with_reducible apply mbxRow_kept | with_reducible apply noResume_kept
    | with_reducible apply KeptOut.next

theorem execAdmTenantReset_kept (k : SlotId) (t : Stamp) (s : State) {s0 : State} (h0 : Kept s0 s) :
    KeptOut s0 (execAdmTenantReset k t s) := by
  unfold execAdmTenantReset
  repeat' first
    | with_reducible intro _ | with_reducible assumption | with_reducible apply State_upTo_kept
    | with_reducible apply startForfeit_kept | with_reducible apply noResume_kept | with_reducible apply modFn_kept
    | with_reducible apply mbxRow_kept | with_reducible apply KeptOut.next

theorem execAdmPartCfg_kept (k : SlotId) (t : Stamp) (s : State) {s0 : State} (h0 : Kept s0 s) :
    KeptOut s0 (execAdmPartCfg k t s) := by
  unfold execAdmPartCfg
  repeat' first
    | with_reducible intro _ | with_reducible assumption | with_reducible apply State_upTo_kept
    | with_reducible apply noResume_kept | with_reducible apply slotDone_kept | with_reducible apply mbxRow_kept
    | (simp only [kept_mk]; with_reducible apply Kept.conj) | with_reducible apply KeptOut.next

theorem setShare_kept (s : State) (id : Nat) (sh : Share) {s0 : State} (h0 : Kept s0 s) :
    Kept s0 (setShare s id sh) := by
  unfold setShare
  repeat' first | with_reducible assumption | (simp only [kept_mk]; with_reducible apply Kept.conj)

theorem execAdmShareExport_kept (k : SlotId) (t : Stamp) (s : State) {s0 : State} (h0 : Kept s0 s) :
    KeptOut s0 (execAdmShareExport k t s) := by
  unfold execAdmShareExport
  repeat' first
    | with_reducible intro _ | with_reducible assumption | with_reducible apply State_upTo_kept
    | with_reducible apply noResume_kept | with_reducible apply slotDone_kept | with_reducible apply setShare_kept
    | with_reducible apply mbxRow_kept | with_reducible apply KeptOut.next

theorem execAdmShareImport_kept (k : SlotId) (t : Stamp) (s : State) {s0 : State} (h0 : Kept s0 s) :
    KeptOut s0 (execAdmShareImport k t s) := by
  unfold execAdmShareImport
  repeat' first
    | with_reducible intro _ | with_reducible assumption | with_reducible apply State_upTo_kept
    | with_reducible apply noResume_kept | with_reducible apply slotDone_kept | with_reducible apply setShare_kept
    | with_reducible apply mbxRow_kept | with_reducible apply KeptOut.next

theorem endShareRevoke_kept (s : State) (k : SlotId) (cmd : List Word) {s0 : State} (h0 : Kept s0 s) :
    Kept s0 (endShareRevoke s k cmd) := by
  unfold endShareRevoke
  repeat' first
    | with_reducible assumption | with_reducible apply Kept.ite | with_reducible apply finishHeld_kept
    | with_reducible apply resumeSepia_kept | with_reducible apply reapObjects_kept
    | (simp only [kept_mk]; with_reducible apply Kept.conj) | split

theorem startShareRevoke_kept (s : State) (k : SlotId) (cmd : List Word) {s0 : State} (h0 : Kept s0 s) :
    Kept s0 (startShareRevoke s k cmd) := by
  unfold startShareRevoke
  repeat' first
    | with_reducible assumption | with_reducible apply mapImporter_kept | with_reducible apply endShareRevoke_kept
    | with_reducible apply recheckWaits_kept | with_reducible apply holdResult_kept
    | (simp only [kept_mk]; with_reducible apply Kept.conj) | split | dsimp only

theorem execAdmShareRevoke_kept (k : SlotId) (t : Stamp) (s : State) {s0 : State} (h0 : Kept s0 s) :
    KeptOut s0 (execAdmShareRevoke k t s) := by
  unfold execAdmShareRevoke
  repeat' first
    | with_reducible intro _ | with_reducible assumption | with_reducible apply startShareRevoke_kept
    | with_reducible apply endShareRevoke_kept | with_reducible apply State_upTo_kept
    | with_reducible apply mbxRow_kept | with_reducible apply KeptOut.next

theorem withShares_kept (s : State) (x : PortShares) {s0 : State} (h0 : Kept s0 s) :
    Kept s0 (withShares s x) := by
  unfold withShares
  repeat' first | with_reducible assumption | (simp only [kept_mk]; with_reducible apply Kept.conj)

theorem execAdmPortShare_kept (k : SlotId) (t : Stamp) (s : State) {s0 : State} (h0 : Kept s0 s) :
    KeptOut s0 (execAdmPortShare k t s) := by
  unfold execAdmPortShare
  repeat' first
    | with_reducible intro _ | with_reducible assumption | with_reducible apply State_upTo_kept
    | with_reducible apply noResume_kept | with_reducible apply slotDone_kept | with_reducible apply withShares_kept
    | with_reducible apply mbxRow_kept | with_reducible apply KeptOut.next

theorem execGovSet_kept (k : SlotId) (t : Stamp) (s : State) {s0 : State} (h0 : Kept s0 s) :
    KeptOut s0 (execGovSet k t s) := by
  unfold execGovSet
  repeat' first
    | with_reducible intro _ | with_reducible assumption | with_reducible apply State_upTo_kept
    | with_reducible apply noResume_kept | with_reducible apply slotDone_kept | with_reducible apply mbxRow_kept
    | (simp only [kept_mk]; with_reducible apply Kept.conj) | with_reducible apply KeptOut.next

theorem execGovGet_kept (k : SlotId) (t : Stamp) (s : State) {s0 : State} (h0 : Kept s0 s) :
    KeptOut s0 (execGovGet k t s) := by
  unfold execGovGet
  repeat' first
    | with_reducible intro _ | with_reducible assumption | with_reducible apply State_upTo_kept
    | with_reducible apply slotDone_kept | with_reducible apply mbxRow_kept | with_reducible apply noResume_kept
    | with_reducible apply KeptOut.next

theorem startDrain_kept (s : State) (d : Nat) {s0 : State} (h0 : Kept s0 s) :
    Kept s0 (startDrain s d) := by
  unfold startDrain
  repeat' first
    | with_reducible assumption | with_reducible apply Kept.ite | with_reducible apply policyFirst_kept
    | with_reducible apply forceStop_kept | (simp only [kept_mk]; with_reducible apply Kept.conj) | split

theorem applyPolicy_kept (s : State) (d : Nat) (x0 : Policy) {s0 : State} (h0 : Kept s0 s) :
    Kept s0 (applyPolicy s d x0) := by
  unfold applyPolicy
  repeat' first
    | with_reducible assumption | with_reducible apply Kept.ite | with_reducible apply requestWake_kept
    | with_reducible apply startDrain_kept | split

theorem execPwrPolicy_kept (k : SlotId) (t : Stamp) (s : State) {s0 : State} (h0 : Kept s0 s) :
    KeptOut s0 (execPwrPolicy k t s) := by
  unfold execPwrPolicy
  repeat' first
    | with_reducible intro _ | with_reducible assumption | with_reducible apply State_upTo_kept
    | with_reducible apply applyPolicy_kept | with_reducible apply noResume_kept | with_reducible apply modDom_kept
    | with_reducible apply slotDone_kept | with_reducible apply mbxRow_kept | with_reducible apply KeptOut.next

theorem execPwrIdleOff_kept (k : SlotId) (t : Stamp) (s : State) {s0 : State} (h0 : Kept s0 s) :
    KeptOut s0 (execPwrIdleOff k t s) := by
  unfold execPwrIdleOff
  repeat' first
    | with_reducible intro _ | with_reducible assumption | with_reducible apply State_upTo_kept
    | with_reducible apply noResume_kept | with_reducible apply slotDone_kept | with_reducible apply mbxRow_kept
    | (simp only [kept_mk]; with_reducible apply Kept.conj) | with_reducible apply KeptOut.next

theorem startToScratch_kept (s : State) (_k : SlotId) (cmd : List Word) {s0 : State} (h0 : Kept s0 s) :
    Kept s0 (startToScratch s _k cmd) := by
  unfold startToScratch
  repeat' first
    | with_reducible intro _ | with_reducible assumption | with_reducible apply evictLine_kept
    | with_reducible apply foldl_kept | (simp only [kept_mk]; with_reducible apply Kept.conj)

theorem endToScratch_kept (s : State) (k : SlotId) (_cmd : List Word) {s0 : State} (h0 : Kept s0 s) :
    Kept s0 (endToScratch s k _cmd) := by
  unfold endToScratch
  repeat' first
    | with_reducible assumption | with_reducible apply slotDone_kept
    | (simp only [kept_mk]; with_reducible apply Kept.conj) | split

theorem execVatConvertToScratchpad_kept (k : SlotId) (t : Stamp) (s : State) {s0 : State} (h0 : Kept s0 s) :
    KeptOut s0 (execVatConvertToScratchpad k t s) := by
  unfold execVatConvertToScratchpad
  repeat' first
    | with_reducible intro _ | with_reducible assumption | with_reducible apply endToScratch_kept
    | with_reducible apply State_upTo_kept | with_reducible apply startToScratch_kept
    | with_reducible apply mbxRow_kept | with_reducible apply KeptOut.next

theorem runToCache_kept (s : State) (k : SlotId) (cmd : List Word) {s0 : State} (h0 : Kept s0 s) :
    Kept s0 (runToCache s k cmd) := by
  unfold runToCache
  repeat' first
    | with_reducible assumption | with_reducible apply slotDone_kept
    | (simp only [kept_mk]; with_reducible apply Kept.conj)

theorem execVatConvertToCache_kept (k : SlotId) (t : Stamp) (s : State) {s0 : State} (h0 : Kept s0 s) :
    KeptOut s0 (execVatConvertToCache k t s) := by
  unfold execVatConvertToCache
  repeat' first
    | with_reducible intro _ | with_reducible assumption | with_reducible apply State_upTo_kept
    | with_reducible apply runToCache_kept | with_reducible apply mbxRow_kept | with_reducible apply noResume_kept
    | with_reducible apply KeptOut.next

theorem setClusters_kept (s : State) (cmd : List Word) (h : Option CtxId) {s0 : State} (h0 : Kept s0 s) :
    Kept s0 (setClusters s cmd h) := by
  unfold setClusters
  repeat' first | with_reducible assumption | (simp only [kept_mk]; with_reducible apply Kept.conj)

theorem endExclusive_kept (s : State) (k : SlotId) (cmd : List Word) {s0 : State} (h0 : Kept s0 s) :
    Kept s0 (endExclusive s k cmd) := by
  unfold endExclusive
  repeat' first | with_reducible assumption | with_reducible apply Kept.ite | with_reducible apply slotDone_kept

theorem startExclusive_kept (s : State) (k : SlotId) (cmd : List Word) {s0 : State} (h0 : Kept s0 s) :
    Kept s0 (startExclusive s k cmd) := by
  unfold startExclusive
  repeat' first
    | with_reducible assumption | with_reducible apply setClusters_kept | with_reducible apply endExclusive_kept
    | with_reducible apply forceStop_kept

theorem execClusterModeExclusive_kept (k : SlotId) (t : Stamp) (s : State) {s0 : State} (h0 : Kept s0 s) :
    KeptOut s0 (execClusterModeExclusive k t s) := by
  unfold execClusterModeExclusive
  repeat' first
    | with_reducible intro _ | with_reducible assumption | with_reducible apply endExclusive_kept
    | with_reducible apply State_upTo_kept | with_reducible apply startExclusive_kept
    | with_reducible apply mbxRow_kept | with_reducible apply KeptOut.next

theorem execClusterModeShared_kept (k : SlotId) (t : Stamp) (s : State) {s0 : State} (h0 : Kept s0 s) :
    KeptOut s0 (execClusterModeShared k t s) := by
  unfold execClusterModeShared
  repeat' first
    | with_reducible intro _ | with_reducible assumption | with_reducible apply setClusters_kept
    | with_reducible apply State_upTo_kept | with_reducible apply slotDone_kept | with_reducible apply mbxRow_kept
    | with_reducible apply noResume_kept | with_reducible apply KeptOut.next

theorem execStreamCfg_kept (k : SlotId) (t : Stamp) (s : State) {s0 : State} (h0 : Kept s0 s) :
    KeptOut s0 (execStreamCfg k t s) := by
  unfold execStreamCfg
  repeat' first
    | with_reducible intro _ | with_reducible assumption | with_reducible apply State_upTo_kept
    | with_reducible apply noResume_kept | with_reducible apply slotDone_kept | with_reducible apply mbxRow_kept
    | (simp only [kept_mk]; with_reducible apply Kept.conj) | with_reducible apply KeptOut.next

theorem execWarmReset_kept (k : SlotId) (t : Stamp) (s : State) {s0 : State} (h0 : Kept s0 s) :
    KeptOut s0 (execWarmReset k t s) := by
  unfold execWarmReset
  repeat' first
    | with_reducible intro _ | with_reducible assumption | with_reducible apply startWarm_kept
    | with_reducible apply noResume_kept | with_reducible apply State_upTo_kept | with_reducible apply mbxRow_kept
    | with_reducible apply KeptOut.next

theorem execSepiaEnter_kept (k : SlotId) (t : Stamp) (s : State) {s0 : State} (h0 : Kept s0 s) :
    KeptOut s0 (execSepiaEnter k t s) := by
  unfold execSepiaEnter
  repeat' first
    | with_reducible intro _ | with_reducible assumption | with_reducible apply State_upTo_kept
    | with_reducible apply decideSepia_kept | with_reducible apply mbxRow_kept | with_reducible apply noResume_kept
    | with_reducible apply KeptOut.next

theorem refuseOverlapping_kept (s : State) (k : SlotId) {s0 : State} (h0 : Kept s0 s) :
    Kept s0 (refuseOverlapping s k) := by
  unfold refuseOverlapping
  repeat' first
    | with_reducible intro _ | with_reducible assumption | with_reducible apply Kept.ite
    | with_reducible apply slotRefuse_kept | with_reducible apply foldl_kept

theorem execMbxGo_kept (k : SlotId) (value : Word) (t : Stamp) (s : State) {s0 : State} (h0 : Kept s0 s) :
    KeptOut s0 (execMbxGo k value t s) := by
  unfold execMbxGo
  repeat' first
    | with_reducible assumption | with_reducible apply Kept.ite | with_reducible apply KeptOut.ite
    | with_reducible apply State_upTo_kept | with_reducible apply refuseOverlapping_kept
    | with_reducible apply refuseGo_kept | with_reducible apply acceptGo_kept
    | with_reducible apply mordantInput_kept | with_reducible apply KeptOut.next | split

end Sys2Proof.Laws
end

