-- ==== Sys2Proof/Laws/KeptUnits.lean ====
section
/-!
SUPPORT. Every operation of ports, registers, sideband, samplers, tiles and transfers keeps the queue of commands, the fuses and the LPDDR cells, each lemma
for a state that another state leads to.
-/

namespace Sys2Proof.Laws

open Machine

theorem dropBar2_kept (s : State) (p : PortId) {s0 : State} (h0 : Kept s0 s) :
    Kept s0 (dropBar2 s p) := by
  unfold dropBar2
  repeat' first
    | with_reducible assumption | with_reducible apply stopAccesses_kept
    | (simp only [kept_mk]; with_reducible apply Kept.conj)

theorem startPortReset_kept (s : State) (p : PortId) (cause : Nat) {s0 : State} (h0 : Kept s0 s) :
    Kept s0 (startPortReset s p cause) := by
  unfold startPortReset
  repeat' first
    | with_reducible intro _ | with_reducible assumption | with_reducible apply Kept.ite
    | with_reducible apply poisonWaiting_kept | with_reducible apply pushRecord_kept
    | with_reducible apply startForfeit_kept | with_reducible apply dropBar2_kept
    | with_reducible apply recheckWaits_kept | with_reducible apply modFn_kept
    | with_reducible apply quarantineAll_kept | with_reducible apply modPort_kept | with_reducible apply foldl_kept
    | (simp only [kept_mk]; with_reducible apply Kept.conj)

theorem setPerstPin_kept (s : State) (p : PortId) (high : Bool) {s0 : State} (h0 : Kept s0 s) :
    Kept s0 (setPerstPin s p high) := by
  unfold setPerstPin
  repeat' first | with_reducible assumption | (simp only [kept_mk]; with_reducible apply Kept.conj)

theorem execPerstAssert_kept (p : PortId) (t : Stamp) (s : State) {s0 : State} (h0 : Kept s0 s) :
    KeptOut s0 (execPerstAssert p t s) := by
  unfold execPerstAssert
  repeat' first
    | with_reducible assumption | with_reducible apply Kept.ite | with_reducible apply State_upTo_kept
    | with_reducible apply startPortReset_kept | with_reducible apply setPerstPin_kept
    | with_reducible apply modPort_kept | with_reducible apply KeptOut.next

theorem execPerstDeassert_kept (p : PortId) (t : Stamp) (s : State) {s0 : State} (h0 : Kept s0 s) :
    KeptOut s0 (execPerstDeassert p t s) := by
  unfold execPerstDeassert
  repeat' first
    | with_reducible assumption | with_reducible apply setPerstPin_kept | with_reducible apply State_upTo_kept
    | with_reducible apply modPort_kept | with_reducible apply KeptOut.next

theorem execDlDown_kept (p : PortId) (t : Stamp) (s : State) {s0 : State} (h0 : Kept s0 s) :
    KeptOut s0 (execDlDown p t s) := by
  unfold execDlDown
  repeat' first
    | with_reducible assumption | with_reducible apply Kept.ite | with_reducible apply State_upTo_kept
    | with_reducible apply startPortReset_kept | with_reducible apply KeptOut.next

theorem execLinkUp_kept (p : PortId) (speed width : Nat) (t : Stamp) (s : State) {s0 : State} (h0 : Kept s0 s) :
    KeptOut s0 (execLinkUp p speed width t s) := by
  unfold execLinkUp
  repeat' first
    | with_reducible assumption | with_reducible apply Kept.ite | with_reducible apply State_upTo_kept
    | with_reducible apply modPort_kept | with_reducible apply KeptOut.next

theorem execLinkRetrain_kept (p : PortId) (speed width : Nat) (t : Stamp) (s : State) {s0 : State} (h0 : Kept s0 s) :
    KeptOut s0 (execLinkRetrain p speed width t s) := by
  unfold execLinkRetrain
  repeat' first
    | with_reducible assumption | with_reducible apply Kept.ite | with_reducible apply State_upTo_kept
    | with_reducible apply modPort_kept | with_reducible apply KeptOut.next

theorem cfgWrite_kept (s : State) (fn : Nat) (x0 : CfgReq) {s0 : State} (h0 : Kept s0 s) :
    Kept s0 (cfgWrite s fn x0) := by
  unfold cfgWrite
  repeat' first
    | with_reducible assumption | with_reducible apply Kept.ite | with_reducible apply modAer_kept
    | with_reducible apply sendPending_kept | with_reducible apply modFn_kept | with_reducible apply modPort_kept
    | split

theorem cfgUsed_kept (s : State) (x0 : CfgReq) {s0 : State} (h0 : Kept s0 s) :
    Kept s0 (cfgUsed s x0) := by
  unfold cfgUsed
  repeat' first | with_reducible assumption | (simp only [kept_mk]; with_reducible apply Kept.conj) | split

theorem execConfigRequest_kept (fn : Nat) (req : CfgReq) (t : Stamp) (s : State) {s0 : State} (h0 : Kept s0 s) :
    KeptOut s0 (execConfigRequest fn req t s) := by
  unfold execConfigRequest
  repeat' first
    | with_reducible assumption | with_reducible apply KeptOut.ite | with_reducible apply emit_kept
    | with_reducible apply State_upTo_kept | with_reducible apply cfgWrite_kept | with_reducible apply cfgUsed_kept
    | with_reducible apply KeptOut.next

theorem execNumvfsWrite_kept (p : PortId) (n : Nat) (t : Stamp) (s : State) {s0 : State} (h0 : Kept s0 s) :
    KeptOut s0 (execNumvfsWrite p n t s) := by
  unfold execNumvfsWrite
  repeat' first
    | with_reducible assumption | with_reducible apply Kept.ite | with_reducible apply State_upTo_kept
    | with_reducible apply modPort_kept | with_reducible apply KeptOut.next

theorem execVfEnableSet_kept (p : PortId) (t : Stamp) (s : State) {s0 : State} (h0 : Kept s0 s) :
    KeptOut s0 (execVfEnableSet p t s) := by
  unfold execVfEnableSet
  repeat' first
    | with_reducible assumption | with_reducible apply Kept.ite | with_reducible apply State_upTo_kept
    | with_reducible apply enableVfs_kept | with_reducible apply modPort_kept | with_reducible apply KeptOut.next

theorem execVfReady_kept (fn : Nat) (t : Stamp) (s : State) {s0 : State} (h0 : Kept s0 s) :
    KeptOut s0 (execVfReady fn t s) := by
  unfold execVfReady
  repeat' first
    | with_reducible assumption | with_reducible apply Kept.ite | with_reducible apply State_upTo_kept
    | with_reducible apply modFn_kept | with_reducible apply KeptOut.next

theorem clearVfEnable_kept (s : State) (p : PortId) {s0 : State} (h0 : Kept s0 s) :
    Kept s0 (clearVfEnable s p) := by
  unfold clearVfEnable
  repeat' first
    | with_reducible intro _ | with_reducible assumption | with_reducible apply Kept.ite
    | with_reducible apply setFn_kept | with_reducible apply modFn_kept | with_reducible apply modPort_kept
    | with_reducible apply foldl_kept | split

theorem execVfEnableClear_kept (p : PortId) (t : Stamp) (s : State) {s0 : State} (h0 : Kept s0 s) :
    KeptOut s0 (execVfEnableClear p t s) := by
  unfold execVfEnableClear
  repeat' first
    | with_reducible assumption | with_reducible apply Kept.ite | with_reducible apply clearVfEnable_kept
    | with_reducible apply State_upTo_kept | with_reducible apply startForfeit_kept
    | with_reducible apply KeptOut.next

theorem execFlrInitiate_kept (fn : Nat) (t : Stamp) (s : State) {s0 : State} (h0 : Kept s0 s) :
    KeptOut s0 (execFlrInitiate fn t s) := by
  unfold execFlrInitiate
  repeat' first
    | with_reducible assumption | with_reducible apply KeptOut.ite | with_reducible apply State_upTo_kept
    | with_reducible apply startForfeit_kept | with_reducible apply clearVfEnable_kept
    | with_reducible apply modFn_kept | with_reducible apply quarantineAll_kept | with_reducible apply KeptOut.next

theorem execFlrComplete_kept (fn : Nat) (t : Stamp) (s : State) {s0 : State} (h0 : Kept s0 s) :
    KeptOut s0 (execFlrComplete fn t s) := by
  unfold execFlrComplete
  repeat' first
    | with_reducible assumption | with_reducible apply Kept.ite | with_reducible apply State_upTo_kept
    | with_reducible apply modFn_kept | with_reducible apply KeptOut.next

theorem modStops_kept (s : State) (fn : Nat) (g : List StopReason → List StopReason) {s0 : State} (h0 : Kept s0 s) :
    Kept s0 (modStops s fn g) := by
  unfold modStops
  repeat' first
    | with_reducible intro _ | with_reducible assumption | with_reducible apply settleQueue_kept
    | with_reducible apply foldl_kept | (simp only [kept_mk]; with_reducible apply Kept.conj)

theorem execD3hotEnter_kept (fn : Nat) (t : Stamp) (s : State) {s0 : State} (h0 : Kept s0 s) :
    KeptOut s0 (execD3hotEnter fn t s) := by
  unfold execD3hotEnter
  repeat' first
    | with_reducible assumption | with_reducible apply Kept.ite | with_reducible apply State_upTo_kept
    | with_reducible apply modStops_kept | with_reducible apply modFn_kept | with_reducible apply KeptOut.next

theorem execD3hotExit_kept (fn : Nat) (t : Stamp) (s : State) {s0 : State} (h0 : Kept s0 s) :
    KeptOut s0 (execD3hotExit fn t s) := by
  unfold execD3hotExit
  repeat' first
    | with_reducible assumption | with_reducible apply Kept.ite | with_reducible apply State_upTo_kept
    | with_reducible apply modStops_kept | with_reducible apply modFn_kept | with_reducible apply KeptOut.next

theorem execBusMasterEnable_kept (fn : Nat) (t : Stamp) (s : State) {s0 : State} (h0 : Kept s0 s) :
    KeptOut s0 (execBusMasterEnable fn t s) := by
  unfold execBusMasterEnable
  repeat' first
    | with_reducible assumption | with_reducible apply Kept.ite | with_reducible apply State_upTo_kept
    | with_reducible apply modFn_kept | with_reducible apply sendPending_kept | with_reducible apply KeptOut.next

theorem execMsixUnmask_kept (fn : Nat) (vector : Option Nat) (t : Stamp) (s : State) {s0 : State} (h0 : Kept s0 s) :
    KeptOut s0 (execMsixUnmask fn vector t s) := by
  unfold execMsixUnmask
  repeat' first
    | with_reducible assumption | with_reducible apply Kept.ite | with_reducible apply State_upTo_kept
    | with_reducible apply sendPending_kept | with_reducible apply modFn_kept | with_reducible apply KeptOut.next
    | split

theorem apertureFault_kept (s : State) (fn off : Nat) {s0 : State} (h0 : Kept s0 s) :
    Kept s0 (apertureFault s fn off) := by
  unfold apertureFault
  repeat' first
    | with_reducible assumption | with_reducible apply Kept.ite | with_reducible apply pushRecord_kept
    | with_reducible apply modFn_kept

theorem issueBar2_kept (s : State) (fn id : Nat) (e : Nat × (Nat × Nat × Nat)) (kind : AccKind) {s0 : State} (h0 :
    Kept s0 s) :
    Kept s0 (issueBar2 s fn id e kind) := by
  unfold issueBar2
  repeat' first
    | with_reducible assumption | with_reducible apply admitted_kept | with_reducible apply chargeUngated_kept
    | with_reducible apply addAccess_kept

theorem takeReq_kept (s : State) {s0 : State} (h0 : Kept s0 s) :
    Kept s0 (takeReq s).2 := by
  unfold takeReq
  repeat' first | with_reducible assumption | (simp only [kept_mk]; with_reducible apply Kept.conj)

theorem takeReq_kept_eq {s : State} {s0 sv : State} {r : Nat} (hEq : takeReq s = (r, sv)) (h0 : Kept s0 s) :
    Kept s0 sv := by
  have k := takeReq_kept s h0
  rw [hEq] at k
  exact k

theorem execBar2Read_kept (fn off len : Nat) (t : Stamp) (s : State) {s0 : State} (h0 : Kept s0 s) :
    KeptOut s0 (execBar2Read fn off len t s) := by
  unfold execBar2Read
  repeat' first
    | with_reducible intro _ | with_reducible assumption | with_reducible apply KeptOut.ite
    | with_reducible apply emit_kept | with_reducible apply State_upTo_kept | with_reducible apply takeReq_kept
    | with_reducible apply apertureFault_kept | with_reducible apply modFn_kept
    | with_reducible apply issueBar2_kept | with_reducible apply completeHostReq_kept
    | with_reducible apply foldl_kept | (simp only [kept_mk]; with_reducible apply Kept.conj)
    | with_reducible apply KeptOut.next | split

theorem execBar2Write_kept (fn off : Nat) (bytes : List Byte) (ep : Bool) (t : Stamp) (s : State) {s0 : State} (h0 :
    Kept s0 s) :
    KeptOut s0 (execBar2Write fn off bytes ep t s) := by
  unfold execBar2Write
  repeat' first
    | with_reducible intro _ | with_reducible assumption | with_reducible apply KeptOut.ite
    | with_reducible apply State_upTo_kept | with_reducible apply pushRecord_kept
    | with_reducible apply takeReq_kept | with_reducible apply aer_kept | with_reducible apply apertureFault_kept
    | with_reducible apply modFn_kept | with_reducible apply issueBar2_kept | with_reducible apply foldl_kept
    | with_reducible apply KeptOut.next | split | dsimp only

theorem execTagGrant_kept (n tag : Nat) (t : Stamp) (s : State) {s0 : State} (h0 : Kept s0 s) :
    KeptOut s0 (execTagGrant n tag t s) := by
  unfold execTagGrant
  repeat' first
    | with_reducible assumption | with_reducible apply KeptOut.ite | with_reducible apply emit_kept
    | with_reducible apply State_upTo_kept | with_reducible apply modAccess_kept | with_reducible apply KeptOut.next
    | split | dsimp only

theorem lateCompletion_kept (s : State) (p : PortId) (tag : Nat) {s0 : State} (h0 : Kept s0 s) :
    Kept s0 (lateCompletion s p tag) := by
  unfold lateCompletion
  repeat' first
    | with_reducible assumption | with_reducible apply pushRecord_kept | with_reducible apply aer_kept
    | (simp only [kept_mk]; with_reducible apply Kept.conj) | split

theorem execCompletionRx_kept (p : PortId) (tag : Nat) (status : CplRx) (bytes : List Byte) (t : Stamp) (s : State)
    {s0 : State} (h0 : Kept s0 s) :
    KeptOut s0 (execCompletionRx p tag status bytes t s) := by
  unfold execCompletionRx
  repeat' first
    | with_reducible assumption | with_reducible apply KeptOut.ite | with_reducible apply endRequest_kept
    | with_reducible apply State_upTo_kept | with_reducible apply pushRecord_kept
    | with_reducible apply lateCompletion_kept | with_reducible apply timeoutAccess_kept
    | with_reducible apply aer_kept | with_reducible apply takeCompletion_kept | with_reducible apply KeptOut.next
    | split | dsimp only

theorem execCompletionTimeout_kept (n : Nat) (t : Stamp) (s : State) {s0 : State} (h0 : Kept s0 s) :
    KeptOut s0 (execCompletionTimeout n t s) := by
  unfold execCompletionTimeout
  repeat' first
    | with_reducible assumption | with_reducible apply Kept.ite | with_reducible apply State_upTo_kept
    | with_reducible apply timeoutAccess_kept | with_reducible apply KeptOut.next | split | dsimp only

theorem execTagQuarantineExpire_kept (p : PortId) (tag : Nat) (t : Stamp) (s : State) {s0 : State} (h0 : Kept s0 s) :
    KeptOut s0 (execTagQuarantineExpire p tag t s) := by
  unfold execTagQuarantineExpire
  repeat' first
    | with_reducible assumption | with_reducible apply State_upTo_kept
    | (simp only [kept_mk]; with_reducible apply Kept.conj) | with_reducible apply KeptOut.next

theorem execMalformedTlp_kept (p : PortId) (kind : TlpError) (header : BitVec 128) (t : Stamp) (s : State) {s0 :
    State} (h0 : Kept s0 s) :
    KeptOut s0 (execMalformedTlp p kind header t s) := by
  unfold execMalformedTlp
  repeat' first
    | with_reducible assumption | with_reducible apply Kept.ite | with_reducible apply State_upTo_kept
    | with_reducible apply pushRecord_kept | with_reducible apply aer_kept | with_reducible apply KeptOut.next

theorem execLinkCorrectableError_kept (p : PortId) (s : State) {s0 : State} (h0 : Kept s0 s) :
    KeptOut s0 (execLinkCorrectableError p s) := by
  unfold execLinkCorrectableError
  repeat' first
    | with_reducible assumption | with_reducible apply Kept.ite | with_reducible apply aer_kept
    | with_reducible apply KeptOut.next

theorem writeBar0_kept (s : State) (fn off : Nat) (v : Word) {s0 : State} (h0 : Kept s0 s) :
    Kept s0 (writeBar0 s fn off v) := by
  unfold writeBar0
  repeat' first
    | with_reducible assumption | with_reducible apply Kept.ite | with_reducible apply sendPending_kept
    | with_reducible apply setSlot_kept | with_reducible apply modFn_kept

theorem execRegisterWrite_kept (fn : Nat) (bar4 : Bool) (off size : Nat) (value : Dword) (ep : Bool) (t : Stamp) (s :
    State) {s0 : State} (h0 : Kept s0 s) :
    KeptOut s0 (execRegisterWrite fn bar4 off size value ep t s) := by
  unfold execRegisterWrite
  repeat' first
    | with_reducible assumption | with_reducible apply Kept.ite | with_reducible apply KeptOut.ite
    | with_reducible apply State_upTo_kept | with_reducible apply pushRecord_kept
    | with_reducible apply writeBar0_kept | with_reducible apply aer_kept | with_reducible apply KeptOut.next

theorem execUnsupportedRequest_kept (fn bar off size : Nat) (write : Bool) (t : Stamp) (s : State) {s0 : State} (h0 :
    Kept s0 s) :
    KeptOut s0 (execUnsupportedRequest fn bar off size write t s) := by
  unfold execUnsupportedRequest
  repeat' first
    | with_reducible assumption | with_reducible apply Kept.ite | with_reducible apply KeptOut.ite
    | with_reducible apply emit_kept | with_reducible apply State_upTo_kept | with_reducible apply aer_kept
    | with_reducible apply KeptOut.next

theorem storeRecord_kept (s : State) (r : ErrRec) {s0 : State} (h0 : Kept s0 s) :
    Kept s0 (storeRecord s r) := by
  unfold storeRecord
  repeat' first
    | with_reducible intro _ | with_reducible assumption | with_reducible apply Kept.ite
    | with_reducible apply ibiCause_kept | with_reducible apply vectorEvent_kept | with_reducible apply foldl_kept
    | (simp only [kept_mk]; with_reducible apply Kept.conj)

theorem execErrorRecordStore_kept (t : Stamp) (s : State) {s0 : State} (h0 : Kept s0 s) :
    KeptOut s0 (execErrorRecordStore t s) := by
  unfold execErrorRecordStore
  repeat' first
    | with_reducible assumption | with_reducible apply KeptOut.ite | with_reducible apply mordantOutput_kept
    | with_reducible apply State_upTo_kept | with_reducible apply storeRecord_kept
    | (simp only [kept_mk]; with_reducible apply Kept.conj) | with_reducible apply KeptOut.next | split

theorem retake_kept (s : State) (fn : Nat) (e : Nat × Option Nat × ErrRec) {s0 : State} (h0 : Kept s0 s) :
    Kept s0 (retake s fn e) := by
  unfold retake
  repeat' first
    | with_reducible assumption | with_reducible apply Kept.ite | with_reducible apply vectorEvent_kept
    | with_reducible apply storeRecord_kept | (simp only [kept_mk]; with_reducible apply Kept.conj) | split
    | dsimp only

theorem execErrAck_kept (fn : Nat) (value : Word) (t : Stamp) (s : State) {s0 : State} (h0 : Kept s0 s) :
    KeptOut s0 (execErrAck fn value t s) := by
  unfold execErrAck
  repeat' first
    | with_reducible intro _ | with_reducible assumption | with_reducible apply KeptOut.ite
    | with_reducible apply State_upTo_kept | with_reducible apply retake_kept | with_reducible apply foldl_kept
    | (simp only [kept_mk]; with_reducible apply Kept.conj) | with_reducible apply KeptOut.next

theorem damageRecord_kept (s : State) (seq : Nat) {s0 : State} (h0 : Kept s0 s) :
    Kept s0 (damageRecord s seq) := by
  unfold damageRecord
  repeat' first
    | with_reducible assumption | with_reducible apply Kept.ite
    | (simp only [kept_mk]; with_reducible apply Kept.conj)

theorem execErrSel_kept (fn : Nat) (value : Word) (ue : Bool) (t : Stamp) (s : State) {s0 : State} (h0 : Kept s0 s) :
    KeptOut s0 (execErrSel fn value ue t s) := by
  unfold execErrSel
  repeat' first
    | with_reducible assumption | with_reducible apply KeptOut.ite | with_reducible apply State_upTo_kept
    | with_reducible apply damageRecord_kept | (simp only [kept_mk]; with_reducible apply Kept.conj)
    | with_reducible apply KeptOut.next | split | dsimp only

theorem modI3c_kept (s : State) (g : I3c → I3c) {s0 : State} (h0 : Kept s0 s) :
    Kept s0 (modI3c s g) := by
  unfold modI3c
  repeat' first | with_reducible assumption | (simp only [kept_mk]; with_reducible apply Kept.conj)

theorem warmOrder_kept (s : State) (v : Byte) {s0 : State} (h0 : Kept s0 s) :
    Kept s0 (warmOrder s v) := by
  unfold warmOrder
  repeat' first
    | with_reducible assumption | with_reducible apply Kept.ite | with_reducible apply startWarm_kept
    | with_reducible apply modI3c_kept

theorem clearPend_kept (s : State) (v : Byte) {s0 : State} (h0 : Kept s0 s) :
    Kept s0 (clearPend s v) := by
  unfold clearPend
  repeat' first
    | with_reducible assumption | with_reducible apply Kept.ite | with_reducible apply ibiRequest_kept
    | with_reducible apply modI3c_kept

theorem setTempAlert_kept (s : State) (v : Nat) {s0 : State} (h0 : Kept s0 s) :
    Kept s0 (setTempAlert s v) := by
  unfold setTempAlert
  repeat' first | with_reducible assumption | with_reducible apply modI3c_kept

theorem i3cPut_kept (s : State) (addr : Nat) (b : Byte) (held : Option Byte) {s0 : State} (h0 : Kept s0 s) :
    Kept s0 (i3cPut s addr b held).1 := by
  unfold i3cPut
  repeat' first
    | with_reducible assumption | with_reducible apply setTempAlert_kept | with_reducible apply clearPend_kept
    | with_reducible apply ibiRequest_kept | with_reducible apply modI3c_kept | with_reducible apply warmOrder_kept
    | split

theorem i3cPut_kept_eq {s : State} {addr : Nat} {b : Byte} {held : Option Byte} {s0 sv : State} {r : Option Byte}
    (hEq : i3cPut s addr b held = (sv, r)) (h0 : Kept s0 s) : Kept s0 sv := by
  have k := i3cPut_kept s addr b held h0
  rw [hEq] at k
  exact k

theorem i3cPuts_kept (s : State) (held : Option Byte) (x0 : List Byte) {s0 : State} (h0 : Kept s0 s) :
    Kept s0 (i3cPuts s held x0) := by
  induction x0 generalizing s held with
    | nil =>
      unfold i3cPuts
      repeat' first | with_reducible assumption | with_reducible apply i3cPut_kept | with_reducible apply modI3c_kept
    | cons a l ih =>
      unfold i3cPuts
      repeat' first
        | with_reducible assumption | with_reducible apply ih | with_reducible apply i3cPut_kept
        | with_reducible apply modI3c_kept

theorem privateWrite_kept (s : State) (x0 : List Byte) {s0 : State} (h0 : Kept s0 s) :
    Kept s0 (privateWrite s x0) := by
  unfold privateWrite
  repeat' first
    | with_reducible assumption | with_reducible apply Kept.ite | with_reducible apply i3cPuts_kept
    | with_reducible apply modI3c_kept | split

theorem execI3cPrivateWrite_kept (bytes : List Byte) (t : Stamp) (s : State) {s0 : State} (h0 : Kept s0 s) :
    KeptOut s0 (execI3cPrivateWrite bytes t s) := by
  unfold execI3cPrivateWrite
  repeat' first
    | with_reducible assumption | with_reducible apply State_upTo_kept | with_reducible apply privateWrite_kept
    | with_reducible apply KeptOut.next

theorem execI3cPrivateRead_kept (len : Nat) (t : Stamp) (s : State) {s0 : State} (h0 : Kept s0 s) :
    KeptOut s0 (execI3cPrivateRead len t s) := by
  unfold execI3cPrivateRead
  repeat' first
    | with_reducible assumption | with_reducible apply Kept.ite | with_reducible apply emit_kept
    | with_reducible apply State_upTo_kept | with_reducible apply modI3c_kept | with_reducible apply KeptOut.next

theorem execTempAlertWrite_kept (value : BitVec 16) (s : State) {s0 : State} (h0 : Kept s0 s) :
    KeptOut s0 (execTempAlertWrite value s) := by
  unfold execTempAlertWrite
  repeat' first
    | with_reducible assumption | with_reducible apply privateWrite_kept | with_reducible apply KeptOut.next

theorem execI3cWarmResetOrder_kept (value : Byte) (t : Stamp) (s : State) {s0 : State} (h0 : Kept s0 s) :
    KeptOut s0 (execI3cWarmResetOrder value t s) := by
  unfold execI3cWarmResetOrder
  repeat' first
    | with_reducible assumption | with_reducible apply State_upTo_kept | with_reducible apply privateWrite_kept
    | with_reducible apply KeptOut.next

theorem execIbiPendClear_kept (value : Byte) (t : Stamp) (s : State) {s0 : State} (h0 : Kept s0 s) :
    KeptOut s0 (execIbiPendClear value t s) := by
  unfold execIbiPendClear
  repeat' first
    | with_reducible assumption | with_reducible apply State_upTo_kept | with_reducible apply privateWrite_kept
    | with_reducible apply KeptOut.next

theorem execIbiAccept_kept (s : State) {s0 : State} (h0 : Kept s0 s) :
    KeptOut s0 (execIbiAccept s) := by
  unfold execIbiAccept
  repeat' first
    | with_reducible assumption | with_reducible apply emit_kept | with_reducible apply modI3c_kept
    | with_reducible apply KeptOut.next | split

theorem execEnec_kept (s : State) {s0 : State} (h0 : Kept s0 s) :
    KeptOut s0 (execEnec s) := by
  unfold execEnec
  repeat' first
    | with_reducible assumption | with_reducible apply Kept.ite | with_reducible apply ibiRequest_kept
    | with_reducible apply modI3c_kept | with_reducible apply KeptOut.next

theorem execDisec_kept (s : State) {s0 : State} (h0 : Kept s0 s) :
    KeptOut s0 (execDisec s) := by
  unfold execDisec
  repeat' first
    | with_reducible assumption | with_reducible apply Kept.ite | with_reducible apply ibiRequest_kept
    | with_reducible apply modI3c_kept | with_reducible apply KeptOut.next

theorem execRstdaa_kept (s : State) {s0 : State} (h0 : Kept s0 s) :
    KeptOut s0 (execRstdaa s) := by
  unfold execRstdaa
  repeat' first
    | with_reducible assumption | with_reducible apply Kept.ite | with_reducible apply ibiRequest_kept
    | with_reducible apply modI3c_kept | with_reducible apply KeptOut.next

theorem takeAddress_kept (s : State) (addr : Nat) {s0 : State} (h0 : Kept s0 s) :
    Kept s0 (takeAddress s addr) := by
  unfold takeAddress
  repeat' first
    | with_reducible assumption | with_reducible apply ibiRequest_kept | with_reducible apply modI3c_kept

theorem execEntdaa_kept (addr : Nat) (s : State) {s0 : State} (h0 : Kept s0 s) :
    KeptOut s0 (execEntdaa addr s) := by
  unfold execEntdaa
  repeat' first
    | with_reducible assumption | with_reducible apply Kept.ite | with_reducible apply emit_kept
    | with_reducible apply takeAddress_kept | with_reducible apply KeptOut.next

theorem execSetdasa_kept (addr : Nat) (s : State) {s0 : State} (h0 : Kept s0 s) :
    KeptOut s0 (execSetdasa addr s) := by
  unfold execSetdasa
  repeat' first
    | with_reducible assumption | with_reducible apply Kept.ite | with_reducible apply takeAddress_kept
    | with_reducible apply KeptOut.next

theorem answerCcc_kept (s : State) (bytes : List Byte) {s0 : State} (h0 : Kept s0 s) :
    Kept s0 (answerCcc s bytes) := by
  unfold answerCcc
  repeat' first | with_reducible assumption | with_reducible apply Kept.ite | with_reducible apply emit_kept

theorem execGetpid_kept (s : State) {s0 : State} (h0 : Kept s0 s) :
    KeptOut s0 (execGetpid s) := by
  unfold execGetpid
  repeat' first
    | with_reducible assumption | with_reducible apply answerCcc_kept | with_reducible apply KeptOut.next

theorem execGetbcr_kept (s : State) {s0 : State} (h0 : Kept s0 s) :
    KeptOut s0 (execGetbcr s) := by
  unfold execGetbcr
  repeat' first
    | with_reducible assumption | with_reducible apply answerCcc_kept | with_reducible apply KeptOut.next

theorem execGetdcr_kept (s : State) {s0 : State} (h0 : Kept s0 s) :
    KeptOut s0 (execGetdcr s) := by
  unfold execGetdcr
  repeat' first
    | with_reducible assumption | with_reducible apply answerCcc_kept | with_reducible apply KeptOut.next

theorem execGetstatus_kept (s : State) {s0 : State} (h0 : Kept s0 s) :
    KeptOut s0 (execGetstatus s) := by
  unfold execGetstatus
  repeat' first
    | with_reducible assumption | with_reducible apply answerCcc_kept
    | (simp only [kept_mk]; with_reducible apply Kept.conj) | with_reducible apply KeptOut.next

theorem modTap_kept (s : State) (g : Jtag → Jtag) {s0 : State} (h0 : Kept s0 s) :
    Kept s0 (modTap s g) := by
  unfold modTap
  repeat' first | with_reducible assumption | (simp only [kept_mk]; with_reducible apply Kept.conj)

theorem scanOut_kept (s : State) (bits : List Bool) {s0 : State} (h0 : Kept s0 s) :
    Kept s0 (scanOut s bits) := by
  unfold scanOut
  repeat' first | with_reducible assumption | with_reducible apply emit_kept | with_reducible apply modTap_kept

theorem selectInstr_kept (s : State) (i : JtagInstr) (b : BallControl) {s0 : State} (h0 : Kept s0 s) :
    Kept s0 (selectInstr s i b) := by
  unfold selectInstr
  repeat' first | with_reducible assumption | with_reducible apply modTap_kept

theorem bypassScan_kept (s : State) {s0 : State} (h0 : Kept s0 s) :
    Kept s0 (bypassScan s) := by
  unfold bypassScan
  repeat' first | with_reducible assumption | with_reducible apply scanOut_kept

theorem execExtest_kept (captured levels : List Bool) (s : State) {s0 : State} (h0 : Kept s0 s) :
    KeptOut s0 (execExtest captured levels s) := by
  unfold execExtest
  repeat' first
    | with_reducible assumption | with_reducible apply Kept.ite | with_reducible apply scanOut_kept
    | with_reducible apply bypassScan_kept | with_reducible apply modTap_kept
    | with_reducible apply selectInstr_kept | with_reducible apply KeptOut.next

theorem execSamplePreload_kept (captured levels : List Bool) (s : State) {s0 : State} (h0 : Kept s0 s) :
    KeptOut s0 (execSamplePreload captured levels s) := by
  unfold execSamplePreload
  repeat' first
    | with_reducible assumption | with_reducible apply scanOut_kept | with_reducible apply modTap_kept
    | with_reducible apply selectInstr_kept | with_reducible apply KeptOut.next

theorem execIdcode_kept (s : State) {s0 : State} (h0 : Kept s0 s) :
    KeptOut s0 (execIdcode s) := by
  unfold execIdcode
  repeat' first
    | with_reducible assumption | with_reducible apply scanOut_kept | with_reducible apply selectInstr_kept
    | with_reducible apply KeptOut.next

theorem execClamp_kept (s : State) {s0 : State} (h0 : Kept s0 s) :
    KeptOut s0 (execClamp s) := by
  unfold execClamp
  repeat' first
    | with_reducible assumption | with_reducible apply bypassScan_kept | with_reducible apply selectInstr_kept
    | with_reducible apply KeptOut.next

theorem execHighz_kept (s : State) {s0 : State} (h0 : Kept s0 s) :
    KeptOut s0 (execHighz s) := by
  unfold execHighz
  repeat' first
    | with_reducible assumption | with_reducible apply bypassScan_kept | with_reducible apply selectInstr_kept
    | with_reducible apply KeptOut.next

theorem execBypass_kept (s : State) {s0 : State} (h0 : Kept s0 s) :
    KeptOut s0 (execBypass s) := by
  unfold execBypass
  repeat' first
    | with_reducible assumption | with_reducible apply bypassScan_kept | with_reducible apply selectInstr_kept
    | with_reducible apply KeptOut.next

theorem execDapAccess_kept (s : State) {s0 : State} (h0 : Kept s0 s) :
    KeptOut s0 (execDapAccess s) := by
  unfold execDapAccess
  repeat' first
    | with_reducible assumption | with_reducible apply Kept.ite | with_reducible apply scanOut_kept
    | with_reducible apply bypassScan_kept | with_reducible apply modTap_kept
    | with_reducible apply selectInstr_kept | with_reducible apply KeptOut.next | split

theorem execDapCtrl_kept (value : BitVec 16) (s : State) {s0 : State} (h0 : Kept s0 s) :
    KeptOut s0 (execDapCtrl value s) := by
  unfold execDapCtrl
  repeat' first
    | with_reducible assumption | with_reducible apply Kept.ite | with_reducible apply scanOut_kept
    | with_reducible apply bypassScan_kept | with_reducible apply modTap_kept
    | with_reducible apply selectInstr_kept | with_reducible apply KeptOut.next

theorem execFuseRead_kept (vpp : Bool) (s : State) {s0 : State} (h0 : Kept s0 s) :
    KeptOut s0 (execFuseRead vpp s) := by
  unfold execFuseRead
  repeat' first
    | with_reducible assumption | with_reducible apply scanOut_kept | with_reducible apply selectInstr_kept
    | with_reducible apply KeptOut.next

theorem execTapReset_kept (s : State) {s0 : State} (h0 : Kept s0 s) :
    KeptOut s0 (execTapReset s) := by
  unfold execTapReset
  repeat' first
    | with_reducible assumption | with_reducible apply modTap_kept | with_reducible apply selectInstr_kept
    | with_reducible apply KeptOut.next

theorem samplerBody_kept (w : Insn) (x0 : State) (x1 : Nat) (x2 : Group) (x3 : IWord) (x4 : Nat) (x5 : Word) (x6 :
    Nat) {s0 : State} (h0 : Kept s0 x0) :
    Kept s0 (samplerBody w x0 x1 x2 x3 x4 x5 x6) := by
  unfold samplerBody
  repeat' first
    | with_reducible intro _ | with_reducible assumption | with_reducible apply Kept.ite
    | with_reducible apply enterFabric_kept | with_reducible apply putGroup_kept | with_reducible apply detect_kept
    | with_reducible apply groupFault_kept | with_reducible apply foldl_kept
    | (simp only [kept_mk]; with_reducible apply Kept.conj) | split | dsimp only

theorem execTex_kept (slot : Nat) (w : Insn) (t : Stamp) (s : State) {s0 : State} (h0 : Kept s0 s) :
    KeptOut s0 (execTex slot w t s) := by
  unfold execTex
  repeat' first
    | with_reducible intro _ | with_reducible assumption | with_reducible apply samplerBody_kept
    | with_reducible apply issue_kept

theorem execTld_kept (slot : Nat) (w : Insn) (t : Stamp) (s : State) {s0 : State} (h0 : Kept s0 s) :
    KeptOut s0 (execTld slot w t s) := by
  unfold execTld
  repeat' first
    | with_reducible intro _ | with_reducible assumption | with_reducible apply samplerBody_kept
    | with_reducible apply issue_kept

theorem execTg4_kept (slot : Nat) (w : Insn) (t : Stamp) (s : State) {s0 : State} (h0 : Kept s0 s) :
    KeptOut s0 (execTg4 slot w t s) := by
  unfold execTg4
  repeat' first
    | with_reducible intro _ | with_reducible assumption | with_reducible apply samplerBody_kept
    | with_reducible apply issue_kept

theorem execTqry_kept (slot : Nat) (w : Insn) (t : Stamp) (s : State) {s0 : State} (h0 : Kept s0 s) :
    KeptOut s0 (execTqry slot w t s) := by
  unfold execTqry
  repeat' first
    | with_reducible intro _ | with_reducible assumption | with_reducible apply Kept.ite
    | with_reducible apply putGroup_kept | with_reducible apply issue_kept | with_reducible apply detect_kept

theorem execSamplerReturn_kept (slot num : Nat) (t : Stamp) (s : State) {s0 : State} (h0 : Kept s0 s) :
    KeptOut s0 (execSamplerReturn slot num t s) := by
  unfold execSamplerReturn
  repeat' first
    | with_reducible intro _ | with_reducible assumption | with_reducible apply KeptOut.ite
    | with_reducible apply State_upTo_kept | with_reducible apply putGroup_kept
    | with_reducible apply reapGroup_kept | with_reducible apply removeAccess_kept
    | with_reducible apply noteOnce_kept | with_reducible apply foldl_kept | with_reducible apply KeptOut.next
    | split | dsimp only

theorem execTileAssign_kept (q : QueueId) (core : Nat) (t : Stamp) (s : State) {s0 : State} (h0 : Kept s0 s) :
    KeptOut s0 (execTileAssign q core t s) := by
  unfold execTileAssign
  repeat' first
    | with_reducible assumption | with_reducible apply KeptOut.ite | with_reducible apply State_upTo_kept
    | with_reducible apply modFrame_kept | with_reducible apply startBins_kept | with_reducible apply startLoad_kept
    | with_reducible apply useLocal_kept | with_reducible apply requestWake_kept | with_reducible apply putTile_kept
    | (simp only [kept_mk]; with_reducible apply Kept.conj) | with_reducible apply KeptOut.next | split

theorem launchQuads_kept (s : State) (core : Nat) (f : Frame) (tl : Tile) (d : Draw) (qs : List Quad) (args :
    List Byte) {s0 : State} (h0 : Kept s0 s) :
    Kept s0 (launchQuads s core f tl d qs args) := by
  unfold launchQuads
  repeat' first
    | with_reducible assumption | with_reducible apply putTile_kept
    | with_reducible refine placeGraphics_kept_eq (by assumption) ?_ | split | dsimp only

theorem execFragmentGroupLaunch_kept (core : Nat) (t : Stamp) (s : State) {s0 : State} (h0 : Kept s0 s) :
    KeptOut s0 (execFragmentGroupLaunch core t s) := by
  unfold execFragmentGroupLaunch
  repeat' first
    | with_reducible intro _ | with_reducible assumption | with_reducible apply KeptOut.ite
    | with_reducible apply State_upTo_kept | with_reducible apply launchQuads_kept
    | with_reducible apply withArgs_kept | with_reducible apply tileAdvance_kept | with_reducible apply KeptOut.next
    | split | dsimp only

theorem execTileFlushDone_kept (core : Nat) (t : Stamp) (s : State) {s0 : State} (h0 : Kept s0 s) :
    KeptOut s0 (execTileFlushDone core t s) := by
  unfold execTileFlushDone
  repeat' first
    | with_reducible assumption | with_reducible apply Kept.ite | with_reducible apply KeptOut.ite
    | with_reducible apply State_upTo_kept | with_reducible apply flushWrites_kept
    | with_reducible apply finishTile_kept | with_reducible apply putTile_kept
    | with_reducible apply tileAdvance_kept | with_reducible apply KeptOut.next | split | dsimp only

theorem startXfer_kept (s : State) (q : QueueId) (p : Pkt) (bs : List Byte) {s0 : State} (h0 : Kept s0 s) :
    Kept s0 (startXfer s q p bs) := by
  unfold startXfer
  repeat' first
    | with_reducible assumption | with_reducible apply Kept.ite | with_reducible apply badField_kept
    | with_reducible apply requestWake_kept | with_reducible apply xferError_kept
    | (simp only [kept_mk]; with_reducible apply Kept.conj) | split

theorem execXferCopy_kept (q : QueueId) (t : Stamp) (s : State) {s0 : State} (h0 : Kept s0 s) :
    KeptOut s0 (execXferCopy q t s) := by
  unfold execXferCopy
  repeat' first
    | with_reducible intro _ | with_reducible assumption | with_reducible apply startXfer_kept
    | with_reducible apply State_upTo_kept | with_reducible apply anyTime_kept | with_reducible apply packetRow_kept
    | with_reducible apply KeptOut.next

theorem execXferCopy2d_kept (q : QueueId) (t : Stamp) (s : State) {s0 : State} (h0 : Kept s0 s) :
    KeptOut s0 (execXferCopy2d q t s) := by
  unfold execXferCopy2d
  repeat' first
    | with_reducible intro _ | with_reducible assumption | with_reducible apply startXfer_kept
    | with_reducible apply State_upTo_kept | with_reducible apply anyTime_kept | with_reducible apply packetRow_kept
    | with_reducible apply KeptOut.next

theorem execXferFill_kept (q : QueueId) (t : Stamp) (s : State) {s0 : State} (h0 : Kept s0 s) :
    KeptOut s0 (execXferFill q t s) := by
  unfold execXferFill
  repeat' first
    | with_reducible intro _ | with_reducible assumption | with_reducible apply startXfer_kept
    | with_reducible apply State_upTo_kept | with_reducible apply anyTime_kept | with_reducible apply packetRow_kept
    | with_reducible apply KeptOut.next

theorem execChannelAcquire_kept (ch : Nat) (t : Stamp) (s : State) {s0 : State} (h0 : Kept s0 s) :
    KeptOut s0 (execChannelAcquire ch t s) := by
  unfold execChannelAcquire
  repeat' first
    | with_reducible assumption | with_reducible apply Kept.ite | with_reducible apply takeChannel_kept
    | with_reducible apply State_upTo_kept | with_reducible apply KeptOut.next

theorem execXferReadReturn_kept (n : Nat) (bad : List Nat) (t : Stamp) (s : State) {s0 : State} (h0 : Kept s0 s) :
    KeptOut s0 (execXferReadReturn n bad t s) := by
  unfold execXferReadReturn
  repeat' first
    | with_reducible assumption | with_reducible apply KeptOut.ite | with_reducible apply State_upTo_kept
    | with_reducible apply pumpXfer_kept | with_reducible apply removeAccess_kept
    | with_reducible apply beatServed_kept | with_reducible apply putXfer_kept | with_reducible apply KeptOut.next
    | split | dsimp only

theorem execXferCompletionPulse_kept (ch : Nat) (t : Stamp) (s : State) {s0 : State} (h0 : Kept s0 s) :
    KeptOut s0 (execXferCompletionPulse ch t s) := by
  unfold execXferCompletionPulse
  repeat' first
    | with_reducible assumption | with_reducible apply KeptOut.ite | with_reducible apply State_upTo_kept
    | with_reducible apply pumpXfer_kept | with_reducible apply completePkt_kept
    | (simp only [kept_mk]; with_reducible apply Kept.conj) | with_reducible apply KeptOut.next | split | dsimp only

end Sys2Proof.Laws
end

