-- ==== Sys2Proof/Laws/State.lean ====
section
/-!
SUPPORT. What each update of the state leaves in every field, one lemma per field, and the laws of the tables that the
fields hold.
-/

namespace Sys2Proof.Laws

open Machine

/-! Tables -/

/-- A key just set reads its value, every other key reads as before. -/
theorem tblGet_tblSet {κ ν : Type} [DecidableEq κ] (t : List (κ × ν)) (k k' : κ) (v : ν) :
    tblGet (tblSet t k v) k' = if k = k' then some v else tblGet t k' := by
  induction t with
  | nil => rfl
  | cons e t ih => grind [tblSet, tblGet]

/-- A listed key that is changed reads the changed value, every other key reads as before. -/
theorem tblGet_tblModify {κ ν : Type} [DecidableEq κ] (t : List (κ × ν)) (k k' : κ) (f : ν → ν) :
    tblGet (tblModify t k f) k' = if k = k' then (tblGet t k').map f else tblGet t k' := by
  induction t with
  | nil => simp [tblModify, tblGet]
  | cons e t ih =>
    unfold tblModify at ih ⊢
    grind [tblGet]

/-- An erased key reads nothing, every other key reads as before. -/
theorem tblGet_tblErase {κ ν : Type} [DecidableEq κ] (t : List (κ × ν)) (k k' : κ) :
    tblGet (tblErase t k) k' = if k = k' then none else tblGet t k' := by
  induction t with
  | nil => simp [tblErase, tblGet]
  | cons e t ih =>
    unfold tblErase at ih ⊢
    grind [tblGet]

theorem getSlot_setSlot (s : State) (k j : SlotId) (v : Slot) :
    getSlot (setSlot s k v) j = if k = j then v else getSlot s j := by
  unfold getSlot setSlot tblGetD
  rw [tblGet_tblSet]
  split <;> rfl

theorem getFn_setFn (s : State) (k j : Nat) (f : Fn) : tblGet (setFn s k f).fns j = if k = j then some f else tblGet s.fns j :=
  tblGet_tblSet ..

theorem getCtx_modCtx (s : State) (k j : CtxId) (g : Ctx → Ctx) :
    getCtx (modCtx s k g) j = if k = j then (getCtx s j).map g else getCtx s j := tblGet_tblModify ..

theorem getQueue_modQueue (s : State) (k j : QueueId) (g : Queue → Queue) :
    getQueue (modQueue s k g) j = if k = j then (getQueue s j).map g else getQueue s j := tblGet_tblModify ..

theorem getGroup_putGroup (s : State) (k j : Nat) (g : Group) :
    getGroup (putGroup s k g) j = if k = j then (getGroup s j).map (fun _ => g) else getGroup s j :=
  tblGet_tblModify s.cores.groups k j fun _ => g

theorem getAccess_modAccess (s : State) (k j : Nat) (g : Access → Access) :
    getAccess (modAccess s k g) j = if k = j then (getAccess s j).map g else getAccess s j := tblGet_tblModify ..

/-! Updates, field by field -/

@[simp] theorem setFn_pending (s : State) (fn : Nat) (f : Fn) : (setFn s fn f).pending = s.pending := rfl
@[simp] theorem setFn_life (s : State) (fn : Nat) (f : Fn) : (setFn s fn f).life = s.life := rfl
@[simp] theorem setFn_metro (s : State) (fn : Nat) (f : Fn) : (setFn s fn f).metro = s.metro := rfl
@[simp] theorem setFn_gov (s : State) (fn : Nat) (f : Fn) : (setFn s fn f).gov = s.gov := rfl
@[simp] theorem setFn_power (s : State) (fn : Nat) (f : Fn) : (setFn s fn f).power = s.power := rfl
@[simp] theorem setFn_portA (s : State) (fn : Nat) (f : Fn) : (setFn s fn f).portA = s.portA := rfl
@[simp] theorem setFn_portB (s : State) (fn : Nat) (f : Fn) : (setFn s fn f).portB = s.portB := rfl
@[simp] theorem setFn_fns (s : State) (fn : Nat) (f : Fn) : (setFn s fn f).fns = tblSet s.fns fn f := rfl
@[simp] theorem setFn_slots (s : State) (fn : Nat) (f : Fn) : (setFn s fn f).slots = s.slots := rfl
@[simp] theorem setFn_alloc (s : State) (fn : Nat) (f : Fn) : (setFn s fn f).alloc = s.alloc := rfl
@[simp] theorem setFn_ctxs (s : State) (fn : Nat) (f : Fn) : (setFn s fn f).ctxs = s.ctxs := rfl
@[simp] theorem setFn_queues (s : State) (fn : Nat) (f : Fn) : (setFn s fn f).queues = s.queues := rfl
@[simp] theorem setFn_lpddr (s : State) (fn : Nat) (f : Fn) : (setFn s fn f).lpddr = s.lpddr := rfl
@[simp] theorem setFn_vat (s : State) (fn : Nat) (f : Fn) : (setFn s fn f).vat = s.vat := rfl
@[simp] theorem setFn_fabric (s : State) (fn : Nat) (f : Fn) : (setFn s fn f).fabric = s.fabric := rfl
@[simp] theorem setFn_traffic (s : State) (fn : Nat) (f : Fn) : (setFn s fn f).traffic = s.traffic := rfl
@[simp] theorem setFn_err (s : State) (fn : Nat) (f : Fn) : (setFn s fn f).err = s.err := rfl
@[simp] theorem setFn_forfeits (s : State) (fn : Nat) (f : Fn) : (setFn s fn f).forfeits = s.forfeits := rfl
@[simp] theorem setFn_lock (s : State) (fn : Nat) (f : Fn) : (setFn s fn f).lock = s.lock := rfl
@[simp] theorem setFn_cores (s : State) (fn : Nat) (f : Fn) : (setFn s fn f).cores = s.cores := rfl
@[simp] theorem setFn_madders (s : State) (fn : Nat) (f : Fn) : (setFn s fn f).madders = s.madders := rfl
@[simp] theorem setFn_gfx (s : State) (fn : Nat) (f : Fn) : (setFn s fn f).gfx = s.gfx := rfl
@[simp] theorem setFn_xfer (s : State) (fn : Nat) (f : Fn) : (setFn s fn f).xfer = s.xfer := rfl
@[simp] theorem setFn_compose (s : State) (fn : Nat) (f : Fn) : (setFn s fn f).compose = s.compose := rfl
@[simp] theorem setFn_sensors (s : State) (fn : Nat) (f : Fn) : (setFn s fn f).sensors = s.sensors := rfl
@[simp] theorem setFn_i3c (s : State) (fn : Nat) (f : Fn) : (setFn s fn f).i3c = s.i3c := rfl
@[simp] theorem setFn_jtag (s : State) (fn : Nat) (f : Fn) : (setFn s fn f).jtag = s.jtag := rfl
@[simp] theorem setFn_fuses (s : State) (fn : Nat) (f : Fn) : (setFn s fn f).fuses = s.fuses := rfl
@[simp] theorem setFn_out (s : State) (fn : Nat) (f : Fn) : (setFn s fn f).out = s.out := rfl
@[simp] theorem setFn_free (s : State) (fn : Nat) (f : Fn) : (setFn s fn f).free = s.free := rfl

@[simp] theorem modFn_pending (s : State) (fn : Nat) (g : Fn → Fn) : (modFn s fn g).pending = s.pending := rfl
@[simp] theorem modFn_life (s : State) (fn : Nat) (g : Fn → Fn) : (modFn s fn g).life = s.life := rfl
@[simp] theorem modFn_metro (s : State) (fn : Nat) (g : Fn → Fn) : (modFn s fn g).metro = s.metro := rfl
@[simp] theorem modFn_gov (s : State) (fn : Nat) (g : Fn → Fn) : (modFn s fn g).gov = s.gov := rfl
@[simp] theorem modFn_power (s : State) (fn : Nat) (g : Fn → Fn) : (modFn s fn g).power = s.power := rfl
@[simp] theorem modFn_portA (s : State) (fn : Nat) (g : Fn → Fn) : (modFn s fn g).portA = s.portA := rfl
@[simp] theorem modFn_portB (s : State) (fn : Nat) (g : Fn → Fn) : (modFn s fn g).portB = s.portB := rfl
@[simp] theorem modFn_fns (s : State) (fn : Nat) (g : Fn → Fn) : (modFn s fn g).fns = tblSet s.fns fn (g (getFn s fn)) :=
  rfl
@[simp] theorem modFn_slots (s : State) (fn : Nat) (g : Fn → Fn) : (modFn s fn g).slots = s.slots := rfl
@[simp] theorem modFn_alloc (s : State) (fn : Nat) (g : Fn → Fn) : (modFn s fn g).alloc = s.alloc := rfl
@[simp] theorem modFn_ctxs (s : State) (fn : Nat) (g : Fn → Fn) : (modFn s fn g).ctxs = s.ctxs := rfl
@[simp] theorem modFn_queues (s : State) (fn : Nat) (g : Fn → Fn) : (modFn s fn g).queues = s.queues := rfl
@[simp] theorem modFn_lpddr (s : State) (fn : Nat) (g : Fn → Fn) : (modFn s fn g).lpddr = s.lpddr := rfl
@[simp] theorem modFn_vat (s : State) (fn : Nat) (g : Fn → Fn) : (modFn s fn g).vat = s.vat := rfl
@[simp] theorem modFn_fabric (s : State) (fn : Nat) (g : Fn → Fn) : (modFn s fn g).fabric = s.fabric := rfl
@[simp] theorem modFn_traffic (s : State) (fn : Nat) (g : Fn → Fn) : (modFn s fn g).traffic = s.traffic := rfl
@[simp] theorem modFn_err (s : State) (fn : Nat) (g : Fn → Fn) : (modFn s fn g).err = s.err := rfl
@[simp] theorem modFn_forfeits (s : State) (fn : Nat) (g : Fn → Fn) : (modFn s fn g).forfeits = s.forfeits := rfl
@[simp] theorem modFn_lock (s : State) (fn : Nat) (g : Fn → Fn) : (modFn s fn g).lock = s.lock := rfl
@[simp] theorem modFn_cores (s : State) (fn : Nat) (g : Fn → Fn) : (modFn s fn g).cores = s.cores := rfl
@[simp] theorem modFn_madders (s : State) (fn : Nat) (g : Fn → Fn) : (modFn s fn g).madders = s.madders := rfl
@[simp] theorem modFn_gfx (s : State) (fn : Nat) (g : Fn → Fn) : (modFn s fn g).gfx = s.gfx := rfl
@[simp] theorem modFn_xfer (s : State) (fn : Nat) (g : Fn → Fn) : (modFn s fn g).xfer = s.xfer := rfl
@[simp] theorem modFn_compose (s : State) (fn : Nat) (g : Fn → Fn) : (modFn s fn g).compose = s.compose := rfl
@[simp] theorem modFn_sensors (s : State) (fn : Nat) (g : Fn → Fn) : (modFn s fn g).sensors = s.sensors := rfl
@[simp] theorem modFn_i3c (s : State) (fn : Nat) (g : Fn → Fn) : (modFn s fn g).i3c = s.i3c := rfl
@[simp] theorem modFn_jtag (s : State) (fn : Nat) (g : Fn → Fn) : (modFn s fn g).jtag = s.jtag := rfl
@[simp] theorem modFn_fuses (s : State) (fn : Nat) (g : Fn → Fn) : (modFn s fn g).fuses = s.fuses := rfl
@[simp] theorem modFn_out (s : State) (fn : Nat) (g : Fn → Fn) : (modFn s fn g).out = s.out := rfl
@[simp] theorem modFn_free (s : State) (fn : Nat) (g : Fn → Fn) : (modFn s fn g).free = s.free := rfl

@[simp] theorem setSlot_pending (s : State) (k : SlotId) (v : Slot) : (setSlot s k v).pending = s.pending := rfl
@[simp] theorem setSlot_life (s : State) (k : SlotId) (v : Slot) : (setSlot s k v).life = s.life := rfl
@[simp] theorem setSlot_metro (s : State) (k : SlotId) (v : Slot) : (setSlot s k v).metro = s.metro := rfl
@[simp] theorem setSlot_gov (s : State) (k : SlotId) (v : Slot) : (setSlot s k v).gov = s.gov := rfl
@[simp] theorem setSlot_power (s : State) (k : SlotId) (v : Slot) : (setSlot s k v).power = s.power := rfl
@[simp] theorem setSlot_portA (s : State) (k : SlotId) (v : Slot) : (setSlot s k v).portA = s.portA := rfl
@[simp] theorem setSlot_portB (s : State) (k : SlotId) (v : Slot) : (setSlot s k v).portB = s.portB := rfl
@[simp] theorem setSlot_fns (s : State) (k : SlotId) (v : Slot) : (setSlot s k v).fns = s.fns := rfl
@[simp] theorem setSlot_slots (s : State) (k : SlotId) (v : Slot) : (setSlot s k v).slots = tblSet s.slots k v := rfl
@[simp] theorem setSlot_alloc (s : State) (k : SlotId) (v : Slot) : (setSlot s k v).alloc = s.alloc := rfl
@[simp] theorem setSlot_ctxs (s : State) (k : SlotId) (v : Slot) : (setSlot s k v).ctxs = s.ctxs := rfl
@[simp] theorem setSlot_queues (s : State) (k : SlotId) (v : Slot) : (setSlot s k v).queues = s.queues := rfl
@[simp] theorem setSlot_lpddr (s : State) (k : SlotId) (v : Slot) : (setSlot s k v).lpddr = s.lpddr := rfl
@[simp] theorem setSlot_vat (s : State) (k : SlotId) (v : Slot) : (setSlot s k v).vat = s.vat := rfl
@[simp] theorem setSlot_fabric (s : State) (k : SlotId) (v : Slot) : (setSlot s k v).fabric = s.fabric := rfl
@[simp] theorem setSlot_traffic (s : State) (k : SlotId) (v : Slot) : (setSlot s k v).traffic = s.traffic := rfl
@[simp] theorem setSlot_err (s : State) (k : SlotId) (v : Slot) : (setSlot s k v).err = s.err := rfl
@[simp] theorem setSlot_forfeits (s : State) (k : SlotId) (v : Slot) : (setSlot s k v).forfeits = s.forfeits := rfl
@[simp] theorem setSlot_lock (s : State) (k : SlotId) (v : Slot) : (setSlot s k v).lock = s.lock := rfl
@[simp] theorem setSlot_cores (s : State) (k : SlotId) (v : Slot) : (setSlot s k v).cores = s.cores := rfl
@[simp] theorem setSlot_madders (s : State) (k : SlotId) (v : Slot) : (setSlot s k v).madders = s.madders := rfl
@[simp] theorem setSlot_gfx (s : State) (k : SlotId) (v : Slot) : (setSlot s k v).gfx = s.gfx := rfl
@[simp] theorem setSlot_xfer (s : State) (k : SlotId) (v : Slot) : (setSlot s k v).xfer = s.xfer := rfl
@[simp] theorem setSlot_compose (s : State) (k : SlotId) (v : Slot) : (setSlot s k v).compose = s.compose := rfl
@[simp] theorem setSlot_sensors (s : State) (k : SlotId) (v : Slot) : (setSlot s k v).sensors = s.sensors := rfl
@[simp] theorem setSlot_i3c (s : State) (k : SlotId) (v : Slot) : (setSlot s k v).i3c = s.i3c := rfl
@[simp] theorem setSlot_jtag (s : State) (k : SlotId) (v : Slot) : (setSlot s k v).jtag = s.jtag := rfl
@[simp] theorem setSlot_fuses (s : State) (k : SlotId) (v : Slot) : (setSlot s k v).fuses = s.fuses := rfl
@[simp] theorem setSlot_out (s : State) (k : SlotId) (v : Slot) : (setSlot s k v).out = s.out := rfl
@[simp] theorem setSlot_free (s : State) (k : SlotId) (v : Slot) : (setSlot s k v).free = s.free := rfl

@[simp] theorem emit_pending (s : State) (e : OutEvent) : (emit s e).pending = s.pending := rfl
@[simp] theorem emit_life (s : State) (e : OutEvent) : (emit s e).life = s.life := rfl
@[simp] theorem emit_metro (s : State) (e : OutEvent) : (emit s e).metro = s.metro := rfl
@[simp] theorem emit_gov (s : State) (e : OutEvent) : (emit s e).gov = s.gov := rfl
@[simp] theorem emit_power (s : State) (e : OutEvent) : (emit s e).power = s.power := rfl
@[simp] theorem emit_portA (s : State) (e : OutEvent) : (emit s e).portA = s.portA := rfl
@[simp] theorem emit_portB (s : State) (e : OutEvent) : (emit s e).portB = s.portB := rfl
@[simp] theorem emit_fns (s : State) (e : OutEvent) : (emit s e).fns = s.fns := rfl
@[simp] theorem emit_slots (s : State) (e : OutEvent) : (emit s e).slots = s.slots := rfl
@[simp] theorem emit_alloc (s : State) (e : OutEvent) : (emit s e).alloc = s.alloc := rfl
@[simp] theorem emit_ctxs (s : State) (e : OutEvent) : (emit s e).ctxs = s.ctxs := rfl
@[simp] theorem emit_queues (s : State) (e : OutEvent) : (emit s e).queues = s.queues := rfl
@[simp] theorem emit_lpddr (s : State) (e : OutEvent) : (emit s e).lpddr = s.lpddr := rfl
@[simp] theorem emit_vat (s : State) (e : OutEvent) : (emit s e).vat = s.vat := rfl
@[simp] theorem emit_fabric (s : State) (e : OutEvent) : (emit s e).fabric = s.fabric := rfl
@[simp] theorem emit_traffic (s : State) (e : OutEvent) : (emit s e).traffic = s.traffic := rfl
@[simp] theorem emit_err (s : State) (e : OutEvent) : (emit s e).err = s.err := rfl
@[simp] theorem emit_forfeits (s : State) (e : OutEvent) : (emit s e).forfeits = s.forfeits := rfl
@[simp] theorem emit_lock (s : State) (e : OutEvent) : (emit s e).lock = s.lock := rfl
@[simp] theorem emit_cores (s : State) (e : OutEvent) : (emit s e).cores = s.cores := rfl
@[simp] theorem emit_madders (s : State) (e : OutEvent) : (emit s e).madders = s.madders := rfl
@[simp] theorem emit_gfx (s : State) (e : OutEvent) : (emit s e).gfx = s.gfx := rfl
@[simp] theorem emit_xfer (s : State) (e : OutEvent) : (emit s e).xfer = s.xfer := rfl
@[simp] theorem emit_compose (s : State) (e : OutEvent) : (emit s e).compose = s.compose := rfl
@[simp] theorem emit_sensors (s : State) (e : OutEvent) : (emit s e).sensors = s.sensors := rfl
@[simp] theorem emit_i3c (s : State) (e : OutEvent) : (emit s e).i3c = s.i3c := rfl
@[simp] theorem emit_jtag (s : State) (e : OutEvent) : (emit s e).jtag = s.jtag := rfl
@[simp] theorem emit_fuses (s : State) (e : OutEvent) : (emit s e).fuses = s.fuses := rfl
@[simp] theorem emit_out (s : State) (e : OutEvent) : (emit s e).out = s.out ++ [e] := rfl
@[simp] theorem emit_free (s : State) (e : OutEvent) : (emit s e).free = s.free := rfl

@[simp] theorem pushRecord_pending (s : State) (r : ErrRec) : (pushRecord s r).pending = s.pending := rfl
@[simp] theorem pushRecord_life (s : State) (r : ErrRec) : (pushRecord s r).life = s.life := rfl
@[simp] theorem pushRecord_metro (s : State) (r : ErrRec) : (pushRecord s r).metro = s.metro := rfl
@[simp] theorem pushRecord_gov (s : State) (r : ErrRec) : (pushRecord s r).gov = s.gov := rfl
@[simp] theorem pushRecord_power (s : State) (r : ErrRec) : (pushRecord s r).power = s.power := rfl
@[simp] theorem pushRecord_portA (s : State) (r : ErrRec) : (pushRecord s r).portA = s.portA := rfl
@[simp] theorem pushRecord_portB (s : State) (r : ErrRec) : (pushRecord s r).portB = s.portB := rfl
@[simp] theorem pushRecord_fns (s : State) (r : ErrRec) : (pushRecord s r).fns = s.fns := rfl
@[simp] theorem pushRecord_slots (s : State) (r : ErrRec) : (pushRecord s r).slots = s.slots := rfl
@[simp] theorem pushRecord_alloc (s : State) (r : ErrRec) : (pushRecord s r).alloc = s.alloc := rfl
@[simp] theorem pushRecord_ctxs (s : State) (r : ErrRec) : (pushRecord s r).ctxs = s.ctxs := rfl
@[simp] theorem pushRecord_queues (s : State) (r : ErrRec) : (pushRecord s r).queues = s.queues := rfl
@[simp] theorem pushRecord_lpddr (s : State) (r : ErrRec) : (pushRecord s r).lpddr = s.lpddr := rfl
@[simp] theorem pushRecord_vat (s : State) (r : ErrRec) : (pushRecord s r).vat = s.vat := rfl
@[simp] theorem pushRecord_fabric (s : State) (r : ErrRec) : (pushRecord s r).fabric = s.fabric := rfl
@[simp] theorem pushRecord_traffic (s : State) (r : ErrRec) : (pushRecord s r).traffic = s.traffic := rfl
@[simp] theorem pushRecord_err (s : State) (r : ErrRec) :
    (pushRecord s r).err = { s.err with detected := s.err.detected ++ [r] } := rfl
@[simp] theorem pushRecord_forfeits (s : State) (r : ErrRec) : (pushRecord s r).forfeits = s.forfeits := rfl
@[simp] theorem pushRecord_lock (s : State) (r : ErrRec) :
    (pushRecord s r).lock = (mordantInput { s with err := { s.err with detected := s.err.detected ++ [r] } } 2).lock := rfl
@[simp] theorem pushRecord_cores (s : State) (r : ErrRec) : (pushRecord s r).cores = s.cores := rfl
@[simp] theorem pushRecord_madders (s : State) (r : ErrRec) : (pushRecord s r).madders = s.madders := rfl
@[simp] theorem pushRecord_gfx (s : State) (r : ErrRec) : (pushRecord s r).gfx = s.gfx := rfl
@[simp] theorem pushRecord_xfer (s : State) (r : ErrRec) : (pushRecord s r).xfer = s.xfer := rfl
@[simp] theorem pushRecord_compose (s : State) (r : ErrRec) : (pushRecord s r).compose = s.compose := rfl
@[simp] theorem pushRecord_sensors (s : State) (r : ErrRec) : (pushRecord s r).sensors = s.sensors := rfl
@[simp] theorem pushRecord_i3c (s : State) (r : ErrRec) : (pushRecord s r).i3c = s.i3c := rfl
@[simp] theorem pushRecord_jtag (s : State) (r : ErrRec) : (pushRecord s r).jtag = s.jtag := rfl
@[simp] theorem pushRecord_fuses (s : State) (r : ErrRec) : (pushRecord s r).fuses = s.fuses := rfl
@[simp] theorem pushRecord_out (s : State) (r : ErrRec) : (pushRecord s r).out = s.out := rfl
@[simp] theorem pushRecord_free (s : State) (r : ErrRec) : (pushRecord s r).free = s.free := rfl

@[simp] theorem mordantInput_pending (s : State) (i : Nat) : (mordantInput s i).pending = s.pending := rfl
@[simp] theorem mordantInput_life (s : State) (i : Nat) : (mordantInput s i).life = s.life := rfl
@[simp] theorem mordantInput_metro (s : State) (i : Nat) : (mordantInput s i).metro = s.metro := rfl
@[simp] theorem mordantInput_gov (s : State) (i : Nat) : (mordantInput s i).gov = s.gov := rfl
@[simp] theorem mordantInput_power (s : State) (i : Nat) : (mordantInput s i).power = s.power := rfl
@[simp] theorem mordantInput_portA (s : State) (i : Nat) : (mordantInput s i).portA = s.portA := rfl
@[simp] theorem mordantInput_portB (s : State) (i : Nat) : (mordantInput s i).portB = s.portB := rfl
@[simp] theorem mordantInput_fns (s : State) (i : Nat) : (mordantInput s i).fns = s.fns := rfl
@[simp] theorem mordantInput_slots (s : State) (i : Nat) : (mordantInput s i).slots = s.slots := rfl
@[simp] theorem mordantInput_alloc (s : State) (i : Nat) : (mordantInput s i).alloc = s.alloc := rfl
@[simp] theorem mordantInput_ctxs (s : State) (i : Nat) : (mordantInput s i).ctxs = s.ctxs := rfl
@[simp] theorem mordantInput_queues (s : State) (i : Nat) : (mordantInput s i).queues = s.queues := rfl
@[simp] theorem mordantInput_lpddr (s : State) (i : Nat) : (mordantInput s i).lpddr = s.lpddr := rfl
@[simp] theorem mordantInput_vat (s : State) (i : Nat) : (mordantInput s i).vat = s.vat := rfl
@[simp] theorem mordantInput_fabric (s : State) (i : Nat) : (mordantInput s i).fabric = s.fabric := rfl
@[simp] theorem mordantInput_traffic (s : State) (i : Nat) : (mordantInput s i).traffic = s.traffic := rfl
@[simp] theorem mordantInput_err (s : State) (i : Nat) : (mordantInput s i).err = s.err := rfl
@[simp] theorem mordantInput_forfeits (s : State) (i : Nat) : (mordantInput s i).forfeits = s.forfeits := rfl
@[simp] theorem mordantInput_cores (s : State) (i : Nat) : (mordantInput s i).cores = s.cores := rfl
@[simp] theorem mordantInput_madders (s : State) (i : Nat) : (mordantInput s i).madders = s.madders := rfl
@[simp] theorem mordantInput_gfx (s : State) (i : Nat) : (mordantInput s i).gfx = s.gfx := rfl
@[simp] theorem mordantInput_xfer (s : State) (i : Nat) : (mordantInput s i).xfer = s.xfer := rfl
@[simp] theorem mordantInput_compose (s : State) (i : Nat) : (mordantInput s i).compose = s.compose := rfl
@[simp] theorem mordantInput_sensors (s : State) (i : Nat) : (mordantInput s i).sensors = s.sensors := rfl
@[simp] theorem mordantInput_i3c (s : State) (i : Nat) : (mordantInput s i).i3c = s.i3c := rfl
@[simp] theorem mordantInput_jtag (s : State) (i : Nat) : (mordantInput s i).jtag = s.jtag := rfl
@[simp] theorem mordantInput_fuses (s : State) (i : Nat) : (mordantInput s i).fuses = s.fuses := rfl
@[simp] theorem mordantInput_out (s : State) (i : Nat) : (mordantInput s i).out = s.out := rfl
@[simp] theorem mordantInput_free (s : State) (i : Nat) : (mordantInput s i).free = s.free := rfl

@[simp] theorem modCtx_pending (s : State) (c : CtxId) (g : Ctx → Ctx) : (modCtx s c g).pending = s.pending := rfl
@[simp] theorem modCtx_life (s : State) (c : CtxId) (g : Ctx → Ctx) : (modCtx s c g).life = s.life := rfl
@[simp] theorem modCtx_metro (s : State) (c : CtxId) (g : Ctx → Ctx) : (modCtx s c g).metro = s.metro := rfl
@[simp] theorem modCtx_gov (s : State) (c : CtxId) (g : Ctx → Ctx) : (modCtx s c g).gov = s.gov := rfl
@[simp] theorem modCtx_power (s : State) (c : CtxId) (g : Ctx → Ctx) : (modCtx s c g).power = s.power := rfl
@[simp] theorem modCtx_portA (s : State) (c : CtxId) (g : Ctx → Ctx) : (modCtx s c g).portA = s.portA := rfl
@[simp] theorem modCtx_portB (s : State) (c : CtxId) (g : Ctx → Ctx) : (modCtx s c g).portB = s.portB := rfl
@[simp] theorem modCtx_fns (s : State) (c : CtxId) (g : Ctx → Ctx) : (modCtx s c g).fns = s.fns := rfl
@[simp] theorem modCtx_slots (s : State) (c : CtxId) (g : Ctx → Ctx) : (modCtx s c g).slots = s.slots := rfl
@[simp] theorem modCtx_alloc (s : State) (c : CtxId) (g : Ctx → Ctx) : (modCtx s c g).alloc = s.alloc := rfl
@[simp] theorem modCtx_ctxs (s : State) (c : CtxId) (g : Ctx → Ctx) : (modCtx s c g).ctxs = tblModify s.ctxs c g := rfl
@[simp] theorem modCtx_queues (s : State) (c : CtxId) (g : Ctx → Ctx) : (modCtx s c g).queues = s.queues := rfl
@[simp] theorem modCtx_lpddr (s : State) (c : CtxId) (g : Ctx → Ctx) : (modCtx s c g).lpddr = s.lpddr := rfl
@[simp] theorem modCtx_vat (s : State) (c : CtxId) (g : Ctx → Ctx) : (modCtx s c g).vat = s.vat := rfl
@[simp] theorem modCtx_fabric (s : State) (c : CtxId) (g : Ctx → Ctx) : (modCtx s c g).fabric = s.fabric := rfl
@[simp] theorem modCtx_traffic (s : State) (c : CtxId) (g : Ctx → Ctx) : (modCtx s c g).traffic = s.traffic := rfl
@[simp] theorem modCtx_err (s : State) (c : CtxId) (g : Ctx → Ctx) : (modCtx s c g).err = s.err := rfl
@[simp] theorem modCtx_forfeits (s : State) (c : CtxId) (g : Ctx → Ctx) : (modCtx s c g).forfeits = s.forfeits := rfl
@[simp] theorem modCtx_lock (s : State) (c : CtxId) (g : Ctx → Ctx) : (modCtx s c g).lock = s.lock := rfl
@[simp] theorem modCtx_cores (s : State) (c : CtxId) (g : Ctx → Ctx) : (modCtx s c g).cores = s.cores := rfl
@[simp] theorem modCtx_madders (s : State) (c : CtxId) (g : Ctx → Ctx) : (modCtx s c g).madders = s.madders := rfl
@[simp] theorem modCtx_gfx (s : State) (c : CtxId) (g : Ctx → Ctx) : (modCtx s c g).gfx = s.gfx := rfl
@[simp] theorem modCtx_xfer (s : State) (c : CtxId) (g : Ctx → Ctx) : (modCtx s c g).xfer = s.xfer := rfl
@[simp] theorem modCtx_compose (s : State) (c : CtxId) (g : Ctx → Ctx) : (modCtx s c g).compose = s.compose := rfl
@[simp] theorem modCtx_sensors (s : State) (c : CtxId) (g : Ctx → Ctx) : (modCtx s c g).sensors = s.sensors := rfl
@[simp] theorem modCtx_i3c (s : State) (c : CtxId) (g : Ctx → Ctx) : (modCtx s c g).i3c = s.i3c := rfl
@[simp] theorem modCtx_jtag (s : State) (c : CtxId) (g : Ctx → Ctx) : (modCtx s c g).jtag = s.jtag := rfl
@[simp] theorem modCtx_fuses (s : State) (c : CtxId) (g : Ctx → Ctx) : (modCtx s c g).fuses = s.fuses := rfl
@[simp] theorem modCtx_out (s : State) (c : CtxId) (g : Ctx → Ctx) : (modCtx s c g).out = s.out := rfl
@[simp] theorem modCtx_free (s : State) (c : CtxId) (g : Ctx → Ctx) : (modCtx s c g).free = s.free := rfl

@[simp] theorem modQueue_pending (s : State) (q : QueueId) (g : Queue → Queue) : (modQueue s q g).pending = s.pending :=
  rfl
@[simp] theorem modQueue_life (s : State) (q : QueueId) (g : Queue → Queue) : (modQueue s q g).life = s.life := rfl
@[simp] theorem modQueue_metro (s : State) (q : QueueId) (g : Queue → Queue) : (modQueue s q g).metro = s.metro := rfl
@[simp] theorem modQueue_gov (s : State) (q : QueueId) (g : Queue → Queue) : (modQueue s q g).gov = s.gov := rfl
@[simp] theorem modQueue_power (s : State) (q : QueueId) (g : Queue → Queue) : (modQueue s q g).power = s.power := rfl
@[simp] theorem modQueue_portA (s : State) (q : QueueId) (g : Queue → Queue) : (modQueue s q g).portA = s.portA := rfl
@[simp] theorem modQueue_portB (s : State) (q : QueueId) (g : Queue → Queue) : (modQueue s q g).portB = s.portB := rfl
@[simp] theorem modQueue_fns (s : State) (q : QueueId) (g : Queue → Queue) : (modQueue s q g).fns = s.fns := rfl
@[simp] theorem modQueue_slots (s : State) (q : QueueId) (g : Queue → Queue) : (modQueue s q g).slots = s.slots := rfl
@[simp] theorem modQueue_alloc (s : State) (q : QueueId) (g : Queue → Queue) : (modQueue s q g).alloc = s.alloc := rfl
@[simp] theorem modQueue_ctxs (s : State) (q : QueueId) (g : Queue → Queue) : (modQueue s q g).ctxs = s.ctxs := rfl
@[simp] theorem modQueue_queues (s : State) (q : QueueId) (g : Queue → Queue) :
    (modQueue s q g).queues = tblModify s.queues q g := rfl
@[simp] theorem modQueue_lpddr (s : State) (q : QueueId) (g : Queue → Queue) : (modQueue s q g).lpddr = s.lpddr := rfl
@[simp] theorem modQueue_vat (s : State) (q : QueueId) (g : Queue → Queue) : (modQueue s q g).vat = s.vat := rfl
@[simp] theorem modQueue_fabric (s : State) (q : QueueId) (g : Queue → Queue) : (modQueue s q g).fabric = s.fabric :=
  rfl
@[simp] theorem modQueue_traffic (s : State) (q : QueueId) (g : Queue → Queue) : (modQueue s q g).traffic = s.traffic :=
  rfl
@[simp] theorem modQueue_err (s : State) (q : QueueId) (g : Queue → Queue) : (modQueue s q g).err = s.err := rfl
@[simp] theorem modQueue_forfeits (s : State) (q : QueueId) (g : Queue → Queue) : (modQueue s q g).forfeits = s.forfeits :=
  rfl
@[simp] theorem modQueue_lock (s : State) (q : QueueId) (g : Queue → Queue) : (modQueue s q g).lock = s.lock := rfl
@[simp] theorem modQueue_cores (s : State) (q : QueueId) (g : Queue → Queue) : (modQueue s q g).cores = s.cores := rfl
@[simp] theorem modQueue_madders (s : State) (q : QueueId) (g : Queue → Queue) : (modQueue s q g).madders = s.madders :=
  rfl
@[simp] theorem modQueue_gfx (s : State) (q : QueueId) (g : Queue → Queue) : (modQueue s q g).gfx = s.gfx := rfl
@[simp] theorem modQueue_xfer (s : State) (q : QueueId) (g : Queue → Queue) : (modQueue s q g).xfer = s.xfer := rfl
@[simp] theorem modQueue_compose (s : State) (q : QueueId) (g : Queue → Queue) : (modQueue s q g).compose = s.compose :=
  rfl
@[simp] theorem modQueue_sensors (s : State) (q : QueueId) (g : Queue → Queue) : (modQueue s q g).sensors = s.sensors :=
  rfl
@[simp] theorem modQueue_i3c (s : State) (q : QueueId) (g : Queue → Queue) : (modQueue s q g).i3c = s.i3c := rfl
@[simp] theorem modQueue_jtag (s : State) (q : QueueId) (g : Queue → Queue) : (modQueue s q g).jtag = s.jtag := rfl
@[simp] theorem modQueue_fuses (s : State) (q : QueueId) (g : Queue → Queue) : (modQueue s q g).fuses = s.fuses := rfl
@[simp] theorem modQueue_out (s : State) (q : QueueId) (g : Queue → Queue) : (modQueue s q g).out = s.out := rfl
@[simp] theorem modQueue_free (s : State) (q : QueueId) (g : Queue → Queue) : (modQueue s q g).free = s.free := rfl

@[simp] theorem modDom_pending (s : State) (d : Nat) (g : Domain → Domain) : (modDom s d g).pending = s.pending := rfl
@[simp] theorem modDom_life (s : State) (d : Nat) (g : Domain → Domain) : (modDom s d g).life = s.life := rfl
@[simp] theorem modDom_metro (s : State) (d : Nat) (g : Domain → Domain) : (modDom s d g).metro = s.metro := rfl
@[simp] theorem modDom_gov (s : State) (d : Nat) (g : Domain → Domain) : (modDom s d g).gov = s.gov := rfl
@[simp] theorem modDom_power (s : State) (d : Nat) (g : Domain → Domain) :
    (modDom s d g).power = { s.power with domains := s.power.domains.modify d g } := rfl
@[simp] theorem modDom_portA (s : State) (d : Nat) (g : Domain → Domain) : (modDom s d g).portA = s.portA := rfl
@[simp] theorem modDom_portB (s : State) (d : Nat) (g : Domain → Domain) : (modDom s d g).portB = s.portB := rfl
@[simp] theorem modDom_fns (s : State) (d : Nat) (g : Domain → Domain) : (modDom s d g).fns = s.fns := rfl
@[simp] theorem modDom_slots (s : State) (d : Nat) (g : Domain → Domain) : (modDom s d g).slots = s.slots := rfl
@[simp] theorem modDom_alloc (s : State) (d : Nat) (g : Domain → Domain) : (modDom s d g).alloc = s.alloc := rfl
@[simp] theorem modDom_ctxs (s : State) (d : Nat) (g : Domain → Domain) : (modDom s d g).ctxs = s.ctxs := rfl
@[simp] theorem modDom_queues (s : State) (d : Nat) (g : Domain → Domain) : (modDom s d g).queues = s.queues := rfl
@[simp] theorem modDom_lpddr (s : State) (d : Nat) (g : Domain → Domain) : (modDom s d g).lpddr = s.lpddr := rfl
@[simp] theorem modDom_vat (s : State) (d : Nat) (g : Domain → Domain) : (modDom s d g).vat = s.vat := rfl
@[simp] theorem modDom_fabric (s : State) (d : Nat) (g : Domain → Domain) : (modDom s d g).fabric = s.fabric := rfl
@[simp] theorem modDom_traffic (s : State) (d : Nat) (g : Domain → Domain) : (modDom s d g).traffic = s.traffic := rfl
@[simp] theorem modDom_err (s : State) (d : Nat) (g : Domain → Domain) : (modDom s d g).err = s.err := rfl
@[simp] theorem modDom_forfeits (s : State) (d : Nat) (g : Domain → Domain) : (modDom s d g).forfeits = s.forfeits :=
  rfl
@[simp] theorem modDom_lock (s : State) (d : Nat) (g : Domain → Domain) : (modDom s d g).lock = s.lock := rfl
@[simp] theorem modDom_cores (s : State) (d : Nat) (g : Domain → Domain) : (modDom s d g).cores = s.cores := rfl
@[simp] theorem modDom_madders (s : State) (d : Nat) (g : Domain → Domain) : (modDom s d g).madders = s.madders := rfl
@[simp] theorem modDom_gfx (s : State) (d : Nat) (g : Domain → Domain) : (modDom s d g).gfx = s.gfx := rfl
@[simp] theorem modDom_xfer (s : State) (d : Nat) (g : Domain → Domain) : (modDom s d g).xfer = s.xfer := rfl
@[simp] theorem modDom_compose (s : State) (d : Nat) (g : Domain → Domain) : (modDom s d g).compose = s.compose := rfl
@[simp] theorem modDom_sensors (s : State) (d : Nat) (g : Domain → Domain) : (modDom s d g).sensors = s.sensors := rfl
@[simp] theorem modDom_i3c (s : State) (d : Nat) (g : Domain → Domain) : (modDom s d g).i3c = s.i3c := rfl
@[simp] theorem modDom_jtag (s : State) (d : Nat) (g : Domain → Domain) : (modDom s d g).jtag = s.jtag := rfl
@[simp] theorem modDom_fuses (s : State) (d : Nat) (g : Domain → Domain) : (modDom s d g).fuses = s.fuses := rfl
@[simp] theorem modDom_out (s : State) (d : Nat) (g : Domain → Domain) : (modDom s d g).out = s.out := rfl
@[simp] theorem modDom_free (s : State) (d : Nat) (g : Domain → Domain) : (modDom s d g).free = s.free := rfl

@[simp] theorem modAccess_pending (s : State) (n : Nat) (g : Access → Access) : (modAccess s n g).pending = s.pending :=
  rfl
@[simp] theorem modAccess_life (s : State) (n : Nat) (g : Access → Access) : (modAccess s n g).life = s.life := rfl
@[simp] theorem modAccess_metro (s : State) (n : Nat) (g : Access → Access) : (modAccess s n g).metro = s.metro := rfl
@[simp] theorem modAccess_gov (s : State) (n : Nat) (g : Access → Access) : (modAccess s n g).gov = s.gov := rfl
@[simp] theorem modAccess_power (s : State) (n : Nat) (g : Access → Access) : (modAccess s n g).power = s.power := rfl
@[simp] theorem modAccess_portA (s : State) (n : Nat) (g : Access → Access) : (modAccess s n g).portA = s.portA := rfl
@[simp] theorem modAccess_portB (s : State) (n : Nat) (g : Access → Access) : (modAccess s n g).portB = s.portB := rfl
@[simp] theorem modAccess_fns (s : State) (n : Nat) (g : Access → Access) : (modAccess s n g).fns = s.fns := rfl
@[simp] theorem modAccess_slots (s : State) (n : Nat) (g : Access → Access) : (modAccess s n g).slots = s.slots := rfl
@[simp] theorem modAccess_alloc (s : State) (n : Nat) (g : Access → Access) : (modAccess s n g).alloc = s.alloc := rfl
@[simp] theorem modAccess_ctxs (s : State) (n : Nat) (g : Access → Access) : (modAccess s n g).ctxs = s.ctxs := rfl
@[simp] theorem modAccess_queues (s : State) (n : Nat) (g : Access → Access) : (modAccess s n g).queues = s.queues :=
  rfl
@[simp] theorem modAccess_lpddr (s : State) (n : Nat) (g : Access → Access) : (modAccess s n g).lpddr = s.lpddr := rfl
@[simp] theorem modAccess_vat (s : State) (n : Nat) (g : Access → Access) : (modAccess s n g).vat = s.vat := rfl
@[simp] theorem modAccess_fabric (s : State) (n : Nat) (g : Access → Access) : (modAccess s n g).fabric = s.fabric :=
  rfl
@[simp] theorem modAccess_traffic (s : State) (n : Nat) (g : Access → Access) :
    (modAccess s n g).traffic = { s.traffic with accesses := tblModify s.traffic.accesses n g } := rfl
@[simp] theorem modAccess_err (s : State) (n : Nat) (g : Access → Access) : (modAccess s n g).err = s.err := rfl
@[simp] theorem modAccess_forfeits (s : State) (n : Nat) (g : Access → Access) : (modAccess s n g).forfeits = s.forfeits :=
  rfl
@[simp] theorem modAccess_lock (s : State) (n : Nat) (g : Access → Access) : (modAccess s n g).lock = s.lock := rfl
@[simp] theorem modAccess_cores (s : State) (n : Nat) (g : Access → Access) : (modAccess s n g).cores = s.cores := rfl
@[simp] theorem modAccess_madders (s : State) (n : Nat) (g : Access → Access) : (modAccess s n g).madders = s.madders :=
  rfl
@[simp] theorem modAccess_gfx (s : State) (n : Nat) (g : Access → Access) : (modAccess s n g).gfx = s.gfx := rfl
@[simp] theorem modAccess_xfer (s : State) (n : Nat) (g : Access → Access) : (modAccess s n g).xfer = s.xfer := rfl
@[simp] theorem modAccess_compose (s : State) (n : Nat) (g : Access → Access) : (modAccess s n g).compose = s.compose :=
  rfl
@[simp] theorem modAccess_sensors (s : State) (n : Nat) (g : Access → Access) : (modAccess s n g).sensors = s.sensors :=
  rfl
@[simp] theorem modAccess_i3c (s : State) (n : Nat) (g : Access → Access) : (modAccess s n g).i3c = s.i3c := rfl
@[simp] theorem modAccess_jtag (s : State) (n : Nat) (g : Access → Access) : (modAccess s n g).jtag = s.jtag := rfl
@[simp] theorem modAccess_fuses (s : State) (n : Nat) (g : Access → Access) : (modAccess s n g).fuses = s.fuses := rfl
@[simp] theorem modAccess_out (s : State) (n : Nat) (g : Access → Access) : (modAccess s n g).out = s.out := rfl
@[simp] theorem modAccess_free (s : State) (n : Nat) (g : Access → Access) : (modAccess s n g).free = s.free := rfl

@[simp] theorem removeAccess_pending (s : State) (n : Nat) : (removeAccess s n).pending = s.pending := rfl
@[simp] theorem removeAccess_life (s : State) (n : Nat) : (removeAccess s n).life = s.life := rfl
@[simp] theorem removeAccess_metro (s : State) (n : Nat) : (removeAccess s n).metro = s.metro := rfl
@[simp] theorem removeAccess_gov (s : State) (n : Nat) : (removeAccess s n).gov = s.gov := rfl
@[simp] theorem removeAccess_power (s : State) (n : Nat) : (removeAccess s n).power = s.power := rfl
@[simp] theorem removeAccess_portA (s : State) (n : Nat) : (removeAccess s n).portA = s.portA := rfl
@[simp] theorem removeAccess_portB (s : State) (n : Nat) : (removeAccess s n).portB = s.portB := rfl
@[simp] theorem removeAccess_fns (s : State) (n : Nat) : (removeAccess s n).fns = s.fns := rfl
@[simp] theorem removeAccess_slots (s : State) (n : Nat) : (removeAccess s n).slots = s.slots := rfl
@[simp] theorem removeAccess_alloc (s : State) (n : Nat) : (removeAccess s n).alloc = s.alloc := rfl
@[simp] theorem removeAccess_ctxs (s : State) (n : Nat) : (removeAccess s n).ctxs = s.ctxs := rfl
@[simp] theorem removeAccess_queues (s : State) (n : Nat) : (removeAccess s n).queues = s.queues := rfl
@[simp] theorem removeAccess_lpddr (s : State) (n : Nat) : (removeAccess s n).lpddr = s.lpddr := rfl
@[simp] theorem removeAccess_vat (s : State) (n : Nat) : (removeAccess s n).vat = s.vat := rfl
@[simp] theorem removeAccess_fabric (s : State) (n : Nat) : (removeAccess s n).fabric = s.fabric := rfl
@[simp] theorem removeAccess_traffic (s : State) (n : Nat) :
    (removeAccess s n).traffic = { s.traffic with accesses := tblErase s.traffic.accesses n } := rfl
@[simp] theorem removeAccess_err (s : State) (n : Nat) : (removeAccess s n).err = s.err := rfl
@[simp] theorem removeAccess_forfeits (s : State) (n : Nat) : (removeAccess s n).forfeits = s.forfeits := rfl
@[simp] theorem removeAccess_lock (s : State) (n : Nat) : (removeAccess s n).lock = s.lock := rfl
@[simp] theorem removeAccess_cores (s : State) (n : Nat) : (removeAccess s n).cores = s.cores := rfl
@[simp] theorem removeAccess_madders (s : State) (n : Nat) : (removeAccess s n).madders = s.madders := rfl
@[simp] theorem removeAccess_gfx (s : State) (n : Nat) : (removeAccess s n).gfx = s.gfx := rfl
@[simp] theorem removeAccess_xfer (s : State) (n : Nat) : (removeAccess s n).xfer = s.xfer := rfl
@[simp] theorem removeAccess_compose (s : State) (n : Nat) : (removeAccess s n).compose = s.compose := rfl
@[simp] theorem removeAccess_sensors (s : State) (n : Nat) : (removeAccess s n).sensors = s.sensors := rfl
@[simp] theorem removeAccess_i3c (s : State) (n : Nat) : (removeAccess s n).i3c = s.i3c := rfl
@[simp] theorem removeAccess_jtag (s : State) (n : Nat) : (removeAccess s n).jtag = s.jtag := rfl
@[simp] theorem removeAccess_fuses (s : State) (n : Nat) : (removeAccess s n).fuses = s.fuses := rfl
@[simp] theorem removeAccess_out (s : State) (n : Nat) : (removeAccess s n).out = s.out := rfl
@[simp] theorem removeAccess_free (s : State) (n : Nat) : (removeAccess s n).free = s.free := rfl

@[simp] theorem sendWriteBack_pending (s : State) (w : WriteBack) : (sendWriteBack s w).pending = s.pending := rfl
@[simp] theorem sendWriteBack_life (s : State) (w : WriteBack) : (sendWriteBack s w).life = s.life := rfl
@[simp] theorem sendWriteBack_metro (s : State) (w : WriteBack) : (sendWriteBack s w).metro = s.metro := rfl
@[simp] theorem sendWriteBack_gov (s : State) (w : WriteBack) : (sendWriteBack s w).gov = s.gov := rfl
@[simp] theorem sendWriteBack_power (s : State) (w : WriteBack) : (sendWriteBack s w).power = s.power := rfl
@[simp] theorem sendWriteBack_portA (s : State) (w : WriteBack) : (sendWriteBack s w).portA = s.portA := rfl
@[simp] theorem sendWriteBack_portB (s : State) (w : WriteBack) : (sendWriteBack s w).portB = s.portB := rfl
@[simp] theorem sendWriteBack_fns (s : State) (w : WriteBack) : (sendWriteBack s w).fns = s.fns := rfl
@[simp] theorem sendWriteBack_slots (s : State) (w : WriteBack) : (sendWriteBack s w).slots = s.slots := rfl
@[simp] theorem sendWriteBack_alloc (s : State) (w : WriteBack) : (sendWriteBack s w).alloc = s.alloc := rfl
@[simp] theorem sendWriteBack_ctxs (s : State) (w : WriteBack) : (sendWriteBack s w).ctxs = s.ctxs := rfl
@[simp] theorem sendWriteBack_queues (s : State) (w : WriteBack) : (sendWriteBack s w).queues = s.queues := rfl
@[simp] theorem sendWriteBack_lpddr (s : State) (w : WriteBack) : (sendWriteBack s w).lpddr = s.lpddr := rfl
@[simp] theorem sendWriteBack_vat (s : State) (w : WriteBack) : (sendWriteBack s w).vat = s.vat := rfl
@[simp] theorem sendWriteBack_fabric (s : State) (w : WriteBack) : (sendWriteBack s w).fabric = s.fabric := rfl
@[simp] theorem sendWriteBack_traffic (s : State) (w : WriteBack) :
    (sendWriteBack s w).traffic = { s.traffic with
      writeBacks := s.traffic.writeBacks ++ [(s.traffic.nextAccess, { w with stamp := s.stamp })], nextAccess := s.traffic.nextAccess + 1 } := rfl
@[simp] theorem sendWriteBack_err (s : State) (w : WriteBack) : (sendWriteBack s w).err = s.err := rfl
@[simp] theorem sendWriteBack_forfeits (s : State) (w : WriteBack) : (sendWriteBack s w).forfeits = s.forfeits := rfl
@[simp] theorem sendWriteBack_lock (s : State) (w : WriteBack) : (sendWriteBack s w).lock = s.lock := rfl
@[simp] theorem sendWriteBack_cores (s : State) (w : WriteBack) : (sendWriteBack s w).cores = s.cores := rfl
@[simp] theorem sendWriteBack_madders (s : State) (w : WriteBack) : (sendWriteBack s w).madders = s.madders := rfl
@[simp] theorem sendWriteBack_gfx (s : State) (w : WriteBack) : (sendWriteBack s w).gfx = s.gfx := rfl
@[simp] theorem sendWriteBack_xfer (s : State) (w : WriteBack) : (sendWriteBack s w).xfer = s.xfer := rfl
@[simp] theorem sendWriteBack_compose (s : State) (w : WriteBack) : (sendWriteBack s w).compose = s.compose := rfl
@[simp] theorem sendWriteBack_sensors (s : State) (w : WriteBack) : (sendWriteBack s w).sensors = s.sensors := rfl
@[simp] theorem sendWriteBack_i3c (s : State) (w : WriteBack) : (sendWriteBack s w).i3c = s.i3c := rfl
@[simp] theorem sendWriteBack_jtag (s : State) (w : WriteBack) : (sendWriteBack s w).jtag = s.jtag := rfl
@[simp] theorem sendWriteBack_fuses (s : State) (w : WriteBack) : (sendWriteBack s w).fuses = s.fuses := rfl
@[simp] theorem sendWriteBack_out (s : State) (w : WriteBack) : (sendWriteBack s w).out = s.out := rfl
@[simp] theorem sendWriteBack_free (s : State) (w : WriteBack) : (sendWriteBack s w).free = s.free := rfl

@[simp] theorem setLine_pending (s : State) (l : Line) : (setLine s l).pending = s.pending := rfl
@[simp] theorem setLine_life (s : State) (l : Line) : (setLine s l).life = s.life := rfl
@[simp] theorem setLine_metro (s : State) (l : Line) : (setLine s l).metro = s.metro := rfl
@[simp] theorem setLine_gov (s : State) (l : Line) : (setLine s l).gov = s.gov := rfl
@[simp] theorem setLine_power (s : State) (l : Line) : (setLine s l).power = s.power := rfl
@[simp] theorem setLine_portA (s : State) (l : Line) : (setLine s l).portA = s.portA := rfl
@[simp] theorem setLine_portB (s : State) (l : Line) : (setLine s l).portB = s.portB := rfl
@[simp] theorem setLine_fns (s : State) (l : Line) : (setLine s l).fns = s.fns := rfl
@[simp] theorem setLine_slots (s : State) (l : Line) : (setLine s l).slots = s.slots := rfl
@[simp] theorem setLine_alloc (s : State) (l : Line) : (setLine s l).alloc = s.alloc := rfl
@[simp] theorem setLine_ctxs (s : State) (l : Line) : (setLine s l).ctxs = s.ctxs := rfl
@[simp] theorem setLine_queues (s : State) (l : Line) : (setLine s l).queues = s.queues := rfl
@[simp] theorem setLine_lpddr (s : State) (l : Line) : (setLine s l).lpddr = s.lpddr := rfl
@[simp] theorem setLine_vat (s : State) (l : Line) : (setLine s l).vat = { s.vat with lines := putLine s.vat.lines l } :=
  rfl
@[simp] theorem setLine_fabric (s : State) (l : Line) : (setLine s l).fabric = s.fabric := rfl
@[simp] theorem setLine_traffic (s : State) (l : Line) : (setLine s l).traffic = s.traffic := rfl
@[simp] theorem setLine_err (s : State) (l : Line) : (setLine s l).err = s.err := rfl
@[simp] theorem setLine_forfeits (s : State) (l : Line) : (setLine s l).forfeits = s.forfeits := rfl
@[simp] theorem setLine_lock (s : State) (l : Line) : (setLine s l).lock = s.lock := rfl
@[simp] theorem setLine_cores (s : State) (l : Line) : (setLine s l).cores = s.cores := rfl
@[simp] theorem setLine_madders (s : State) (l : Line) : (setLine s l).madders = s.madders := rfl
@[simp] theorem setLine_gfx (s : State) (l : Line) : (setLine s l).gfx = s.gfx := rfl
@[simp] theorem setLine_xfer (s : State) (l : Line) : (setLine s l).xfer = s.xfer := rfl
@[simp] theorem setLine_compose (s : State) (l : Line) : (setLine s l).compose = s.compose := rfl
@[simp] theorem setLine_sensors (s : State) (l : Line) : (setLine s l).sensors = s.sensors := rfl
@[simp] theorem setLine_i3c (s : State) (l : Line) : (setLine s l).i3c = s.i3c := rfl
@[simp] theorem setLine_jtag (s : State) (l : Line) : (setLine s l).jtag = s.jtag := rfl
@[simp] theorem setLine_fuses (s : State) (l : Line) : (setLine s l).fuses = s.fuses := rfl
@[simp] theorem setLine_out (s : State) (l : Line) : (setLine s l).out = s.out := rfl
@[simp] theorem setLine_free (s : State) (l : Line) : (setLine s l).free = s.free := rfl

@[simp] theorem putGroup_pending (s : State) (k : Nat) (g : Group) : (putGroup s k g).pending = s.pending := rfl
@[simp] theorem putGroup_life (s : State) (k : Nat) (g : Group) : (putGroup s k g).life = s.life := rfl
@[simp] theorem putGroup_metro (s : State) (k : Nat) (g : Group) : (putGroup s k g).metro = s.metro := rfl
@[simp] theorem putGroup_gov (s : State) (k : Nat) (g : Group) : (putGroup s k g).gov = s.gov := rfl
@[simp] theorem putGroup_power (s : State) (k : Nat) (g : Group) : (putGroup s k g).power = s.power := rfl
@[simp] theorem putGroup_portA (s : State) (k : Nat) (g : Group) : (putGroup s k g).portA = s.portA := rfl
@[simp] theorem putGroup_portB (s : State) (k : Nat) (g : Group) : (putGroup s k g).portB = s.portB := rfl
@[simp] theorem putGroup_fns (s : State) (k : Nat) (g : Group) : (putGroup s k g).fns = s.fns := rfl
@[simp] theorem putGroup_slots (s : State) (k : Nat) (g : Group) : (putGroup s k g).slots = s.slots := rfl
@[simp] theorem putGroup_alloc (s : State) (k : Nat) (g : Group) : (putGroup s k g).alloc = s.alloc := rfl
@[simp] theorem putGroup_ctxs (s : State) (k : Nat) (g : Group) : (putGroup s k g).ctxs = s.ctxs := rfl
@[simp] theorem putGroup_queues (s : State) (k : Nat) (g : Group) : (putGroup s k g).queues = s.queues := rfl
@[simp] theorem putGroup_lpddr (s : State) (k : Nat) (g : Group) : (putGroup s k g).lpddr = s.lpddr := rfl
@[simp] theorem putGroup_vat (s : State) (k : Nat) (g : Group) : (putGroup s k g).vat = s.vat := rfl
@[simp] theorem putGroup_fabric (s : State) (k : Nat) (g : Group) : (putGroup s k g).fabric = s.fabric := rfl
@[simp] theorem putGroup_traffic (s : State) (k : Nat) (g : Group) : (putGroup s k g).traffic = s.traffic := rfl
@[simp] theorem putGroup_err (s : State) (k : Nat) (g : Group) : (putGroup s k g).err = s.err := rfl
@[simp] theorem putGroup_forfeits (s : State) (k : Nat) (g : Group) : (putGroup s k g).forfeits = s.forfeits := rfl
@[simp] theorem putGroup_lock (s : State) (k : Nat) (g : Group) : (putGroup s k g).lock = s.lock := rfl
@[simp] theorem putGroup_cores (s : State) (k : Nat) (g : Group) :
    (putGroup s k g).cores = { s.cores with groups := tblModify s.cores.groups k fun _ => g } := rfl
@[simp] theorem putGroup_madders (s : State) (k : Nat) (g : Group) : (putGroup s k g).madders = s.madders := rfl
@[simp] theorem putGroup_gfx (s : State) (k : Nat) (g : Group) : (putGroup s k g).gfx = s.gfx := rfl
@[simp] theorem putGroup_xfer (s : State) (k : Nat) (g : Group) : (putGroup s k g).xfer = s.xfer := rfl
@[simp] theorem putGroup_compose (s : State) (k : Nat) (g : Group) : (putGroup s k g).compose = s.compose := rfl
@[simp] theorem putGroup_sensors (s : State) (k : Nat) (g : Group) : (putGroup s k g).sensors = s.sensors := rfl
@[simp] theorem putGroup_i3c (s : State) (k : Nat) (g : Group) : (putGroup s k g).i3c = s.i3c := rfl
@[simp] theorem putGroup_jtag (s : State) (k : Nat) (g : Group) : (putGroup s k g).jtag = s.jtag := rfl
@[simp] theorem putGroup_fuses (s : State) (k : Nat) (g : Group) : (putGroup s k g).fuses = s.fuses := rfl
@[simp] theorem putGroup_out (s : State) (k : Nat) (g : Group) : (putGroup s k g).out = s.out := rfl
@[simp] theorem putGroup_free (s : State) (k : Nat) (g : Group) : (putGroup s k g).free = s.free := rfl

@[simp] theorem putWg_pending (s : State) (k : Nat) (x : Workgroup) : (putWg s k x).pending = s.pending := rfl
@[simp] theorem putWg_life (s : State) (k : Nat) (x : Workgroup) : (putWg s k x).life = s.life := rfl
@[simp] theorem putWg_metro (s : State) (k : Nat) (x : Workgroup) : (putWg s k x).metro = s.metro := rfl
@[simp] theorem putWg_gov (s : State) (k : Nat) (x : Workgroup) : (putWg s k x).gov = s.gov := rfl
@[simp] theorem putWg_power (s : State) (k : Nat) (x : Workgroup) : (putWg s k x).power = s.power := rfl
@[simp] theorem putWg_portA (s : State) (k : Nat) (x : Workgroup) : (putWg s k x).portA = s.portA := rfl
@[simp] theorem putWg_portB (s : State) (k : Nat) (x : Workgroup) : (putWg s k x).portB = s.portB := rfl
@[simp] theorem putWg_fns (s : State) (k : Nat) (x : Workgroup) : (putWg s k x).fns = s.fns := rfl
@[simp] theorem putWg_slots (s : State) (k : Nat) (x : Workgroup) : (putWg s k x).slots = s.slots := rfl
@[simp] theorem putWg_alloc (s : State) (k : Nat) (x : Workgroup) : (putWg s k x).alloc = s.alloc := rfl
@[simp] theorem putWg_ctxs (s : State) (k : Nat) (x : Workgroup) : (putWg s k x).ctxs = s.ctxs := rfl
@[simp] theorem putWg_queues (s : State) (k : Nat) (x : Workgroup) : (putWg s k x).queues = s.queues := rfl
@[simp] theorem putWg_lpddr (s : State) (k : Nat) (x : Workgroup) : (putWg s k x).lpddr = s.lpddr := rfl
@[simp] theorem putWg_vat (s : State) (k : Nat) (x : Workgroup) : (putWg s k x).vat = s.vat := rfl
@[simp] theorem putWg_fabric (s : State) (k : Nat) (x : Workgroup) : (putWg s k x).fabric = s.fabric := rfl
@[simp] theorem putWg_traffic (s : State) (k : Nat) (x : Workgroup) : (putWg s k x).traffic = s.traffic := rfl
@[simp] theorem putWg_err (s : State) (k : Nat) (x : Workgroup) : (putWg s k x).err = s.err := rfl
@[simp] theorem putWg_forfeits (s : State) (k : Nat) (x : Workgroup) : (putWg s k x).forfeits = s.forfeits := rfl
@[simp] theorem putWg_lock (s : State) (k : Nat) (x : Workgroup) : (putWg s k x).lock = s.lock := rfl
@[simp] theorem putWg_cores (s : State) (k : Nat) (x : Workgroup) :
    (putWg s k x).cores = { s.cores with wgs := tblModify s.cores.wgs k fun _ => x } := rfl
@[simp] theorem putWg_madders (s : State) (k : Nat) (x : Workgroup) : (putWg s k x).madders = s.madders := rfl
@[simp] theorem putWg_gfx (s : State) (k : Nat) (x : Workgroup) : (putWg s k x).gfx = s.gfx := rfl
@[simp] theorem putWg_xfer (s : State) (k : Nat) (x : Workgroup) : (putWg s k x).xfer = s.xfer := rfl
@[simp] theorem putWg_compose (s : State) (k : Nat) (x : Workgroup) : (putWg s k x).compose = s.compose := rfl
@[simp] theorem putWg_sensors (s : State) (k : Nat) (x : Workgroup) : (putWg s k x).sensors = s.sensors := rfl
@[simp] theorem putWg_i3c (s : State) (k : Nat) (x : Workgroup) : (putWg s k x).i3c = s.i3c := rfl
@[simp] theorem putWg_jtag (s : State) (k : Nat) (x : Workgroup) : (putWg s k x).jtag = s.jtag := rfl
@[simp] theorem putWg_fuses (s : State) (k : Nat) (x : Workgroup) : (putWg s k x).fuses = s.fuses := rfl
@[simp] theorem putWg_out (s : State) (k : Nat) (x : Workgroup) : (putWg s k x).out = s.out := rfl
@[simp] theorem putWg_free (s : State) (k : Nat) (x : Workgroup) : (putWg s k x).free = s.free := rfl

@[simp] theorem modOp_pending (s : State) (n : Nat) (f : MOp → MOp) : (modOp s n f).pending = s.pending := rfl
@[simp] theorem modOp_life (s : State) (n : Nat) (f : MOp → MOp) : (modOp s n f).life = s.life := rfl
@[simp] theorem modOp_metro (s : State) (n : Nat) (f : MOp → MOp) : (modOp s n f).metro = s.metro := rfl
@[simp] theorem modOp_gov (s : State) (n : Nat) (f : MOp → MOp) : (modOp s n f).gov = s.gov := rfl
@[simp] theorem modOp_power (s : State) (n : Nat) (f : MOp → MOp) : (modOp s n f).power = s.power := rfl
@[simp] theorem modOp_portA (s : State) (n : Nat) (f : MOp → MOp) : (modOp s n f).portA = s.portA := rfl
@[simp] theorem modOp_portB (s : State) (n : Nat) (f : MOp → MOp) : (modOp s n f).portB = s.portB := rfl
@[simp] theorem modOp_fns (s : State) (n : Nat) (f : MOp → MOp) : (modOp s n f).fns = s.fns := rfl
@[simp] theorem modOp_slots (s : State) (n : Nat) (f : MOp → MOp) : (modOp s n f).slots = s.slots := rfl
@[simp] theorem modOp_alloc (s : State) (n : Nat) (f : MOp → MOp) : (modOp s n f).alloc = s.alloc := rfl
@[simp] theorem modOp_ctxs (s : State) (n : Nat) (f : MOp → MOp) : (modOp s n f).ctxs = s.ctxs := rfl
@[simp] theorem modOp_queues (s : State) (n : Nat) (f : MOp → MOp) : (modOp s n f).queues = s.queues := rfl
@[simp] theorem modOp_lpddr (s : State) (n : Nat) (f : MOp → MOp) : (modOp s n f).lpddr = s.lpddr := rfl
@[simp] theorem modOp_vat (s : State) (n : Nat) (f : MOp → MOp) : (modOp s n f).vat = s.vat := rfl
@[simp] theorem modOp_fabric (s : State) (n : Nat) (f : MOp → MOp) : (modOp s n f).fabric = s.fabric := rfl
@[simp] theorem modOp_traffic (s : State) (n : Nat) (f : MOp → MOp) : (modOp s n f).traffic = s.traffic := rfl
@[simp] theorem modOp_err (s : State) (n : Nat) (f : MOp → MOp) : (modOp s n f).err = s.err := rfl
@[simp] theorem modOp_forfeits (s : State) (n : Nat) (f : MOp → MOp) : (modOp s n f).forfeits = s.forfeits := rfl
@[simp] theorem modOp_lock (s : State) (n : Nat) (f : MOp → MOp) : (modOp s n f).lock = s.lock := rfl
@[simp] theorem modOp_cores (s : State) (n : Nat) (f : MOp → MOp) : (modOp s n f).cores = s.cores := rfl
@[simp] theorem modOp_madders (s : State) (n : Nat) (f : MOp → MOp) :
    (modOp s n f).madders = { s.madders with ops := tblModify s.madders.ops n f } := rfl
@[simp] theorem modOp_gfx (s : State) (n : Nat) (f : MOp → MOp) : (modOp s n f).gfx = s.gfx := rfl
@[simp] theorem modOp_xfer (s : State) (n : Nat) (f : MOp → MOp) : (modOp s n f).xfer = s.xfer := rfl
@[simp] theorem modOp_compose (s : State) (n : Nat) (f : MOp → MOp) : (modOp s n f).compose = s.compose := rfl
@[simp] theorem modOp_sensors (s : State) (n : Nat) (f : MOp → MOp) : (modOp s n f).sensors = s.sensors := rfl
@[simp] theorem modOp_i3c (s : State) (n : Nat) (f : MOp → MOp) : (modOp s n f).i3c = s.i3c := rfl
@[simp] theorem modOp_jtag (s : State) (n : Nat) (f : MOp → MOp) : (modOp s n f).jtag = s.jtag := rfl
@[simp] theorem modOp_fuses (s : State) (n : Nat) (f : MOp → MOp) : (modOp s n f).fuses = s.fuses := rfl
@[simp] theorem modOp_out (s : State) (n : Nat) (f : MOp → MOp) : (modOp s n f).out = s.out := rfl
@[simp] theorem modOp_free (s : State) (n : Nat) (f : MOp → MOp) : (modOp s n f).free = s.free := rfl

@[simp] theorem modFrame_pending (s : State) (q : QueueId) (f : Frame → Frame) : (modFrame s q f).pending = s.pending :=
  rfl
@[simp] theorem modFrame_life (s : State) (q : QueueId) (f : Frame → Frame) : (modFrame s q f).life = s.life := rfl
@[simp] theorem modFrame_metro (s : State) (q : QueueId) (f : Frame → Frame) : (modFrame s q f).metro = s.metro := rfl
@[simp] theorem modFrame_gov (s : State) (q : QueueId) (f : Frame → Frame) : (modFrame s q f).gov = s.gov := rfl
@[simp] theorem modFrame_power (s : State) (q : QueueId) (f : Frame → Frame) : (modFrame s q f).power = s.power := rfl
@[simp] theorem modFrame_portA (s : State) (q : QueueId) (f : Frame → Frame) : (modFrame s q f).portA = s.portA := rfl
@[simp] theorem modFrame_portB (s : State) (q : QueueId) (f : Frame → Frame) : (modFrame s q f).portB = s.portB := rfl
@[simp] theorem modFrame_fns (s : State) (q : QueueId) (f : Frame → Frame) : (modFrame s q f).fns = s.fns := rfl
@[simp] theorem modFrame_slots (s : State) (q : QueueId) (f : Frame → Frame) : (modFrame s q f).slots = s.slots := rfl
@[simp] theorem modFrame_alloc (s : State) (q : QueueId) (f : Frame → Frame) : (modFrame s q f).alloc = s.alloc := rfl
@[simp] theorem modFrame_ctxs (s : State) (q : QueueId) (f : Frame → Frame) : (modFrame s q f).ctxs = s.ctxs := rfl
@[simp] theorem modFrame_queues (s : State) (q : QueueId) (f : Frame → Frame) : (modFrame s q f).queues = s.queues :=
  rfl
@[simp] theorem modFrame_lpddr (s : State) (q : QueueId) (f : Frame → Frame) : (modFrame s q f).lpddr = s.lpddr := rfl
@[simp] theorem modFrame_vat (s : State) (q : QueueId) (f : Frame → Frame) : (modFrame s q f).vat = s.vat := rfl
@[simp] theorem modFrame_fabric (s : State) (q : QueueId) (f : Frame → Frame) : (modFrame s q f).fabric = s.fabric :=
  rfl
@[simp] theorem modFrame_traffic (s : State) (q : QueueId) (f : Frame → Frame) : (modFrame s q f).traffic = s.traffic :=
  rfl
@[simp] theorem modFrame_err (s : State) (q : QueueId) (f : Frame → Frame) : (modFrame s q f).err = s.err := rfl
@[simp] theorem modFrame_forfeits (s : State) (q : QueueId) (f : Frame → Frame) : (modFrame s q f).forfeits = s.forfeits :=
  rfl
@[simp] theorem modFrame_lock (s : State) (q : QueueId) (f : Frame → Frame) : (modFrame s q f).lock = s.lock := rfl
@[simp] theorem modFrame_cores (s : State) (q : QueueId) (f : Frame → Frame) : (modFrame s q f).cores = s.cores := rfl
@[simp] theorem modFrame_madders (s : State) (q : QueueId) (f : Frame → Frame) : (modFrame s q f).madders = s.madders :=
  rfl
@[simp] theorem modFrame_gfx (s : State) (q : QueueId) (f : Frame → Frame) :
    (modFrame s q f).gfx = { s.gfx with frames := tblModify s.gfx.frames q f } := rfl
@[simp] theorem modFrame_xfer (s : State) (q : QueueId) (f : Frame → Frame) : (modFrame s q f).xfer = s.xfer := rfl
@[simp] theorem modFrame_compose (s : State) (q : QueueId) (f : Frame → Frame) : (modFrame s q f).compose = s.compose :=
  rfl
@[simp] theorem modFrame_sensors (s : State) (q : QueueId) (f : Frame → Frame) : (modFrame s q f).sensors = s.sensors :=
  rfl
@[simp] theorem modFrame_i3c (s : State) (q : QueueId) (f : Frame → Frame) : (modFrame s q f).i3c = s.i3c := rfl
@[simp] theorem modFrame_jtag (s : State) (q : QueueId) (f : Frame → Frame) : (modFrame s q f).jtag = s.jtag := rfl
@[simp] theorem modFrame_fuses (s : State) (q : QueueId) (f : Frame → Frame) : (modFrame s q f).fuses = s.fuses := rfl
@[simp] theorem modFrame_out (s : State) (q : QueueId) (f : Frame → Frame) : (modFrame s q f).out = s.out := rfl
@[simp] theorem modFrame_free (s : State) (q : QueueId) (f : Frame → Frame) : (modFrame s q f).free = s.free := rfl

@[simp] theorem putTile_pending (s : State) (k : Nat) (x : Tile) : (putTile s k x).pending = s.pending := rfl
@[simp] theorem putTile_life (s : State) (k : Nat) (x : Tile) : (putTile s k x).life = s.life := rfl
@[simp] theorem putTile_metro (s : State) (k : Nat) (x : Tile) : (putTile s k x).metro = s.metro := rfl
@[simp] theorem putTile_gov (s : State) (k : Nat) (x : Tile) : (putTile s k x).gov = s.gov := rfl
@[simp] theorem putTile_power (s : State) (k : Nat) (x : Tile) : (putTile s k x).power = s.power := rfl
@[simp] theorem putTile_portA (s : State) (k : Nat) (x : Tile) : (putTile s k x).portA = s.portA := rfl
@[simp] theorem putTile_portB (s : State) (k : Nat) (x : Tile) : (putTile s k x).portB = s.portB := rfl
@[simp] theorem putTile_fns (s : State) (k : Nat) (x : Tile) : (putTile s k x).fns = s.fns := rfl
@[simp] theorem putTile_slots (s : State) (k : Nat) (x : Tile) : (putTile s k x).slots = s.slots := rfl
@[simp] theorem putTile_alloc (s : State) (k : Nat) (x : Tile) : (putTile s k x).alloc = s.alloc := rfl
@[simp] theorem putTile_ctxs (s : State) (k : Nat) (x : Tile) : (putTile s k x).ctxs = s.ctxs := rfl
@[simp] theorem putTile_queues (s : State) (k : Nat) (x : Tile) : (putTile s k x).queues = s.queues := rfl
@[simp] theorem putTile_lpddr (s : State) (k : Nat) (x : Tile) : (putTile s k x).lpddr = s.lpddr := rfl
@[simp] theorem putTile_vat (s : State) (k : Nat) (x : Tile) : (putTile s k x).vat = s.vat := rfl
@[simp] theorem putTile_fabric (s : State) (k : Nat) (x : Tile) : (putTile s k x).fabric = s.fabric := rfl
@[simp] theorem putTile_traffic (s : State) (k : Nat) (x : Tile) : (putTile s k x).traffic = s.traffic := rfl
@[simp] theorem putTile_err (s : State) (k : Nat) (x : Tile) : (putTile s k x).err = s.err := rfl
@[simp] theorem putTile_forfeits (s : State) (k : Nat) (x : Tile) : (putTile s k x).forfeits = s.forfeits := rfl
@[simp] theorem putTile_lock (s : State) (k : Nat) (x : Tile) : (putTile s k x).lock = s.lock := rfl
@[simp] theorem putTile_cores (s : State) (k : Nat) (x : Tile) : (putTile s k x).cores = s.cores := rfl
@[simp] theorem putTile_madders (s : State) (k : Nat) (x : Tile) : (putTile s k x).madders = s.madders := rfl
@[simp] theorem putTile_gfx (s : State) (k : Nat) (x : Tile) :
    (putTile s k x).gfx = { s.gfx with tiles := tblSet s.gfx.tiles k x } := rfl
@[simp] theorem putTile_xfer (s : State) (k : Nat) (x : Tile) : (putTile s k x).xfer = s.xfer := rfl
@[simp] theorem putTile_compose (s : State) (k : Nat) (x : Tile) : (putTile s k x).compose = s.compose := rfl
@[simp] theorem putTile_sensors (s : State) (k : Nat) (x : Tile) : (putTile s k x).sensors = s.sensors := rfl
@[simp] theorem putTile_i3c (s : State) (k : Nat) (x : Tile) : (putTile s k x).i3c = s.i3c := rfl
@[simp] theorem putTile_jtag (s : State) (k : Nat) (x : Tile) : (putTile s k x).jtag = s.jtag := rfl
@[simp] theorem putTile_fuses (s : State) (k : Nat) (x : Tile) : (putTile s k x).fuses = s.fuses := rfl
@[simp] theorem putTile_out (s : State) (k : Nat) (x : Tile) : (putTile s k x).out = s.out := rfl
@[simp] theorem putTile_free (s : State) (k : Nat) (x : Tile) : (putTile s k x).free = s.free := rfl

@[simp] theorem putXfer_pending (s : State) (o : XferOp) : (putXfer s o).pending = s.pending := rfl
@[simp] theorem putXfer_life (s : State) (o : XferOp) : (putXfer s o).life = s.life := rfl
@[simp] theorem putXfer_metro (s : State) (o : XferOp) : (putXfer s o).metro = s.metro := rfl
@[simp] theorem putXfer_gov (s : State) (o : XferOp) : (putXfer s o).gov = s.gov := rfl
@[simp] theorem putXfer_power (s : State) (o : XferOp) : (putXfer s o).power = s.power := rfl
@[simp] theorem putXfer_portA (s : State) (o : XferOp) : (putXfer s o).portA = s.portA := rfl
@[simp] theorem putXfer_portB (s : State) (o : XferOp) : (putXfer s o).portB = s.portB := rfl
@[simp] theorem putXfer_fns (s : State) (o : XferOp) : (putXfer s o).fns = s.fns := rfl
@[simp] theorem putXfer_slots (s : State) (o : XferOp) : (putXfer s o).slots = s.slots := rfl
@[simp] theorem putXfer_alloc (s : State) (o : XferOp) : (putXfer s o).alloc = s.alloc := rfl
@[simp] theorem putXfer_ctxs (s : State) (o : XferOp) : (putXfer s o).ctxs = s.ctxs := rfl
@[simp] theorem putXfer_queues (s : State) (o : XferOp) : (putXfer s o).queues = s.queues := rfl
@[simp] theorem putXfer_lpddr (s : State) (o : XferOp) : (putXfer s o).lpddr = s.lpddr := rfl
@[simp] theorem putXfer_vat (s : State) (o : XferOp) : (putXfer s o).vat = s.vat := rfl
@[simp] theorem putXfer_fabric (s : State) (o : XferOp) : (putXfer s o).fabric = s.fabric := rfl
@[simp] theorem putXfer_traffic (s : State) (o : XferOp) : (putXfer s o).traffic = s.traffic := rfl
@[simp] theorem putXfer_err (s : State) (o : XferOp) : (putXfer s o).err = s.err := rfl
@[simp] theorem putXfer_forfeits (s : State) (o : XferOp) : (putXfer s o).forfeits = s.forfeits := rfl
@[simp] theorem putXfer_lock (s : State) (o : XferOp) : (putXfer s o).lock = s.lock := rfl
@[simp] theorem putXfer_cores (s : State) (o : XferOp) : (putXfer s o).cores = s.cores := rfl
@[simp] theorem putXfer_madders (s : State) (o : XferOp) : (putXfer s o).madders = s.madders := rfl
@[simp] theorem putXfer_gfx (s : State) (o : XferOp) : (putXfer s o).gfx = s.gfx := rfl
@[simp] theorem putXfer_xfer (s : State) (o : XferOp) :
    (putXfer s o).xfer = { s.xfer with active := tblSet s.xfer.active o.ch o } := rfl
@[simp] theorem putXfer_compose (s : State) (o : XferOp) : (putXfer s o).compose = s.compose := rfl
@[simp] theorem putXfer_sensors (s : State) (o : XferOp) : (putXfer s o).sensors = s.sensors := rfl
@[simp] theorem putXfer_i3c (s : State) (o : XferOp) : (putXfer s o).i3c = s.i3c := rfl
@[simp] theorem putXfer_jtag (s : State) (o : XferOp) : (putXfer s o).jtag = s.jtag := rfl
@[simp] theorem putXfer_fuses (s : State) (o : XferOp) : (putXfer s o).fuses = s.fuses := rfl
@[simp] theorem putXfer_out (s : State) (o : XferOp) : (putXfer s o).out = s.out := rfl
@[simp] theorem putXfer_free (s : State) (o : XferOp) : (putXfer s o).free = s.free := rfl

@[simp] theorem modI3c_pending (s : State) (g : I3c → I3c) : (modI3c s g).pending = s.pending := rfl
@[simp] theorem modI3c_life (s : State) (g : I3c → I3c) : (modI3c s g).life = s.life := rfl
@[simp] theorem modI3c_metro (s : State) (g : I3c → I3c) : (modI3c s g).metro = s.metro := rfl
@[simp] theorem modI3c_gov (s : State) (g : I3c → I3c) : (modI3c s g).gov = s.gov := rfl
@[simp] theorem modI3c_power (s : State) (g : I3c → I3c) : (modI3c s g).power = s.power := rfl
@[simp] theorem modI3c_portA (s : State) (g : I3c → I3c) : (modI3c s g).portA = s.portA := rfl
@[simp] theorem modI3c_portB (s : State) (g : I3c → I3c) : (modI3c s g).portB = s.portB := rfl
@[simp] theorem modI3c_fns (s : State) (g : I3c → I3c) : (modI3c s g).fns = s.fns := rfl
@[simp] theorem modI3c_slots (s : State) (g : I3c → I3c) : (modI3c s g).slots = s.slots := rfl
@[simp] theorem modI3c_alloc (s : State) (g : I3c → I3c) : (modI3c s g).alloc = s.alloc := rfl
@[simp] theorem modI3c_ctxs (s : State) (g : I3c → I3c) : (modI3c s g).ctxs = s.ctxs := rfl
@[simp] theorem modI3c_queues (s : State) (g : I3c → I3c) : (modI3c s g).queues = s.queues := rfl
@[simp] theorem modI3c_lpddr (s : State) (g : I3c → I3c) : (modI3c s g).lpddr = s.lpddr := rfl
@[simp] theorem modI3c_vat (s : State) (g : I3c → I3c) : (modI3c s g).vat = s.vat := rfl
@[simp] theorem modI3c_fabric (s : State) (g : I3c → I3c) : (modI3c s g).fabric = s.fabric := rfl
@[simp] theorem modI3c_traffic (s : State) (g : I3c → I3c) : (modI3c s g).traffic = s.traffic := rfl
@[simp] theorem modI3c_err (s : State) (g : I3c → I3c) : (modI3c s g).err = s.err := rfl
@[simp] theorem modI3c_forfeits (s : State) (g : I3c → I3c) : (modI3c s g).forfeits = s.forfeits := rfl
@[simp] theorem modI3c_lock (s : State) (g : I3c → I3c) : (modI3c s g).lock = s.lock := rfl
@[simp] theorem modI3c_cores (s : State) (g : I3c → I3c) : (modI3c s g).cores = s.cores := rfl
@[simp] theorem modI3c_madders (s : State) (g : I3c → I3c) : (modI3c s g).madders = s.madders := rfl
@[simp] theorem modI3c_gfx (s : State) (g : I3c → I3c) : (modI3c s g).gfx = s.gfx := rfl
@[simp] theorem modI3c_xfer (s : State) (g : I3c → I3c) : (modI3c s g).xfer = s.xfer := rfl
@[simp] theorem modI3c_compose (s : State) (g : I3c → I3c) : (modI3c s g).compose = s.compose := rfl
@[simp] theorem modI3c_sensors (s : State) (g : I3c → I3c) : (modI3c s g).sensors = s.sensors := rfl
@[simp] theorem modI3c_i3c (s : State) (g : I3c → I3c) : (modI3c s g).i3c = g s.i3c := rfl
@[simp] theorem modI3c_jtag (s : State) (g : I3c → I3c) : (modI3c s g).jtag = s.jtag := rfl
@[simp] theorem modI3c_fuses (s : State) (g : I3c → I3c) : (modI3c s g).fuses = s.fuses := rfl
@[simp] theorem modI3c_out (s : State) (g : I3c → I3c) : (modI3c s g).out = s.out := rfl
@[simp] theorem modI3c_free (s : State) (g : I3c → I3c) : (modI3c s g).free = s.free := rfl

@[simp] theorem modTap_pending (s : State) (g : Jtag → Jtag) : (modTap s g).pending = s.pending := rfl
@[simp] theorem modTap_life (s : State) (g : Jtag → Jtag) : (modTap s g).life = s.life := rfl
@[simp] theorem modTap_metro (s : State) (g : Jtag → Jtag) : (modTap s g).metro = s.metro := rfl
@[simp] theorem modTap_gov (s : State) (g : Jtag → Jtag) : (modTap s g).gov = s.gov := rfl
@[simp] theorem modTap_power (s : State) (g : Jtag → Jtag) : (modTap s g).power = s.power := rfl
@[simp] theorem modTap_portA (s : State) (g : Jtag → Jtag) : (modTap s g).portA = s.portA := rfl
@[simp] theorem modTap_portB (s : State) (g : Jtag → Jtag) : (modTap s g).portB = s.portB := rfl
@[simp] theorem modTap_fns (s : State) (g : Jtag → Jtag) : (modTap s g).fns = s.fns := rfl
@[simp] theorem modTap_slots (s : State) (g : Jtag → Jtag) : (modTap s g).slots = s.slots := rfl
@[simp] theorem modTap_alloc (s : State) (g : Jtag → Jtag) : (modTap s g).alloc = s.alloc := rfl
@[simp] theorem modTap_ctxs (s : State) (g : Jtag → Jtag) : (modTap s g).ctxs = s.ctxs := rfl
@[simp] theorem modTap_queues (s : State) (g : Jtag → Jtag) : (modTap s g).queues = s.queues := rfl
@[simp] theorem modTap_lpddr (s : State) (g : Jtag → Jtag) : (modTap s g).lpddr = s.lpddr := rfl
@[simp] theorem modTap_vat (s : State) (g : Jtag → Jtag) : (modTap s g).vat = s.vat := rfl
@[simp] theorem modTap_fabric (s : State) (g : Jtag → Jtag) : (modTap s g).fabric = s.fabric := rfl
@[simp] theorem modTap_traffic (s : State) (g : Jtag → Jtag) : (modTap s g).traffic = s.traffic := rfl
@[simp] theorem modTap_err (s : State) (g : Jtag → Jtag) : (modTap s g).err = s.err := rfl
@[simp] theorem modTap_forfeits (s : State) (g : Jtag → Jtag) : (modTap s g).forfeits = s.forfeits := rfl
@[simp] theorem modTap_lock (s : State) (g : Jtag → Jtag) : (modTap s g).lock = s.lock := rfl
@[simp] theorem modTap_cores (s : State) (g : Jtag → Jtag) : (modTap s g).cores = s.cores := rfl
@[simp] theorem modTap_madders (s : State) (g : Jtag → Jtag) : (modTap s g).madders = s.madders := rfl
@[simp] theorem modTap_gfx (s : State) (g : Jtag → Jtag) : (modTap s g).gfx = s.gfx := rfl
@[simp] theorem modTap_xfer (s : State) (g : Jtag → Jtag) : (modTap s g).xfer = s.xfer := rfl
@[simp] theorem modTap_compose (s : State) (g : Jtag → Jtag) : (modTap s g).compose = s.compose := rfl
@[simp] theorem modTap_sensors (s : State) (g : Jtag → Jtag) : (modTap s g).sensors = s.sensors := rfl
@[simp] theorem modTap_i3c (s : State) (g : Jtag → Jtag) : (modTap s g).i3c = s.i3c := rfl
@[simp] theorem modTap_jtag (s : State) (g : Jtag → Jtag) : (modTap s g).jtag = g s.jtag := rfl
@[simp] theorem modTap_fuses (s : State) (g : Jtag → Jtag) : (modTap s g).fuses = s.fuses := rfl
@[simp] theorem modTap_out (s : State) (g : Jtag → Jtag) : (modTap s g).out = s.out := rfl
@[simp] theorem modTap_free (s : State) (g : Jtag → Jtag) : (modTap s g).free = s.free := rfl

end Sys2Proof.Laws
end

