-- ==== Sys2Proof/Laws/MemoryRead.lean ====
section
/-!
SUPPORT. What a write of one LPDDR sector leaves for later reads: the merged bytes at its own sector, the old bytes
everywhere else.
-/

namespace Sys2Proof.Laws
open Machine

/-- A byte of a masked sector write. -/
theorem cellGet_writeUpTo {l : List Host.Cell} (pa n : Nat) (d : Sector) (mask : BitVec 32) (h : Memory.wf l = true) (x : Nat) :
    Memory.wf ((List.range n).foldl (fun l k => if mask.getLsbD k then cellSet l (pa + k) (sectorByte d k) else l) l) = true ∧
    cellGet ((List.range n).foldl (fun l k => if mask.getLsbD k then cellSet l (pa + k) (sectorByte d k) else l) l) x =
      if pa ≤ x ∧ x < pa + n ∧ mask.getLsbD (x - pa) = true then sectorByte d (x - pa) else cellGet l x := by
  induction n with
  | zero =>
    refine ⟨h, ?_⟩
    rw [if_neg (by omega)]
    rfl
  | succ n ih =>
    obtain ⟨hw, hg⟩ := ih
    rw [List.range_succ, List.foldl_append, List.foldl_cons, List.foldl_nil]
    split
    · rename_i hm
      refine ⟨cellSet_wf _ _ hw, ?_⟩
      rw [cellGet_cellSet hw]
      by_cases hx : x = pa + n
      · subst hx
        simp [hm]
      · rw [if_neg hx, hg]
        by_cases hc : pa ≤ x ∧ x < pa + n ∧ mask.getLsbD (x - pa) = true
        · rw [if_pos hc, if_pos ⟨hc.1, by omega, hc.2.2⟩]
        · rw [if_neg hc, if_neg fun hd => hc ⟨hd.1, by omega, hd.2.2⟩]
    · rename_i hm
      refine ⟨hw, ?_⟩
      rw [hg]
      by_cases hc : pa ≤ x ∧ x < pa + n ∧ mask.getLsbD (x - pa) = true
      · rw [if_pos hc, if_pos ⟨hc.1, by omega, hc.2.2⟩]
      · rw [if_neg hc, if_neg]
        rintro ⟨h1, h2, h3⟩
        by_cases hx : x = pa + n
        · subst hx
          rw [Nat.add_sub_cancel_left] at h3
          exact hm h3
        · exact hc ⟨h1, by omega, h3⟩

/-- A byte after a masked sector write: the new byte where the mask has 1, the old byte everywhere else. -/
theorem cellGet_cellsWriteSector {l : List Host.Cell} (pa : Nat) (d : Sector) (mask : BitVec 32) (h : Memory.wf l = true)
    (x : Nat) :
    cellGet (cellsWriteSector l pa d mask) x =
      if pa ≤ x ∧ x < pa + 32 ∧ mask.getLsbD (x - pa) = true then sectorByte d (x - pa) else cellGet l x :=
  (cellGet_writeUpTo pa 32 d mask h x).2

/-- A byte after a range was zeroed. -/
theorem cellGet_cellsZero (l : List Host.Cell) (base len x : Nat) :
    cellGet (cellsZero l base len) x = if base ≤ x ∧ x < base + len then 0#8 else cellGet l x := by
  unfold cellsZero
  induction l with
  | nil => simp [cellGet]
  | cons c l ih =>
    obtain ⟨a, b⟩ := c
    rw [List.filter_cons]
    by_cases hx : a = x
    · subst hx
      by_cases hc : base ≤ a ∧ a < base + len
      · rw [if_neg (by simp; exact hc), ih, if_pos hc, if_pos hc]
      · rw [if_pos (by simp; omega), if_neg hc]
        simp [cellGet]
    · split <;> simp only [cellGet, if_neg hx, ih]

/-- Whether a block is marked once the first write to another block, or to it, has come. -/
theorem zeroMarked_zeroBlock (l : Lpddr) (pa x : Nat) :
    zeroMarked (zeroBlock l pa) x = (zeroMarked l x && !decide (x / 4096 = pa / 4096)) := by
  unfold zeroBlock
  split
  · rename_i hm
    unfold zeroMarked at hm ⊢
    simp only [tblGet_tblModify]
    by_cases hk : pa / 2 ^ 21 = x / 2 ^ 21
    · rw [if_pos hk]
      rw [hk] at hm
      cases hg : tblGet l.zeroMap (x / 2 ^ 21) with
      | none => simp
      | some c =>
        rw [hg] at hm
        simp only [Bool.not_eq_true', List.contains_eq_mem, decide_eq_false_iff_not] at hm
        simp only [Option.map_some, insertOnce, if_neg hm, List.contains_eq_mem, List.mem_append, List.mem_singleton,
          Bool.decide_or, Bool.not_or]
        congr 2
        apply decide_eq_decide.mpr
        omega
    · rw [if_neg hk]
      have : ¬ x / 4096 = pa / 4096 := by omega
      cases tblGet l.zeroMap (x / 2 ^ 21) <;> simp [this]
  · rename_i hm
    by_cases hx : x / 4096 = pa / 4096
    · simp only [hx, decide_true, Bool.not_true, Bool.and_false]
      have h2 : x / 2 ^ 21 = pa / 2 ^ 21 := by omega
      unfold zeroMarked at hm ⊢
      rw [h2, hx]
      simpa using hm
    · simp [hx]

/-- A byte as the DRAM returns it, once the first write to a block has come, is as before. -/
theorem zeroBlock_byte (l : Lpddr) (pa x : Nat) :
    (if zeroMarked (zeroBlock l pa) x then 0#8 else cellGet (zeroBlock l pa).cells x) =
      if zeroMarked l x then 0#8 else cellGet l.cells x := by
  rw [zeroMarked_zeroBlock]
  unfold zeroBlock
  by_cases hm : zeroMarked l pa = true
  · rw [if_pos hm]
    dsimp only
    rw [cellGet_cellsZero]
    by_cases hx : x / 4096 = pa / 4096
    · have h2 : x / 2 ^ 21 = pa / 2 ^ 21 := by omega
      have hz : zeroMarked l x = true := by unfold zeroMarked at hm ⊢; rw [h2, hx]; exact hm
      rw [if_pos hz, if_neg (by simp [hx]), if_pos (by omega)]
    · rw [if_neg (show ¬(pa / 4096 * 4096 ≤ x ∧ x < pa / 4096 * 4096 + 4096) by omega)]
      simp [hx]
  · rw [if_neg hm]
    by_cases hx : x / 4096 = pa / 4096
    · have h2 : x / 2 ^ 21 = pa / 2 ^ 21 := by omega
      have hz : zeroMarked l x = false := by
        unfold zeroMarked at hm ⊢; rw [h2, hx]; simpa using hm
      simp [hz]
    · simp [hx]

/-- The bytes of a list, as a number, shifted down. -/
theorem leNat_div (bs : List Byte) (k : Nat) : leNat bs / 2 ^ (8 * k) % 256 = (bs.getD k 0#8).toNat := by
  induction bs generalizing k with
  | nil => simp [leNat]
  | cons b bs ih =>
    cases k with
    | zero => simp [leNat]; have := b.isLt; omega
    | succ k =>
      rw [leNat, List.getD_cons_succ, ← ih k, show 8 * (k + 1) = 8 + 8 * k by omega, Nat.pow_add, ← Nat.div_div_eq_div_mul]
      have := b.isLt
      congr 2
      omega

theorem sectorByte_sectorOfBytes {bs : List Byte} (h : bs.length = 32) {k : Nat} (hk : k < 32) :
    sectorByte (sectorOfBytes bs) k = bs.getD k 0#8 := by
  apply BitVec.eq_of_toNat_eq
  rw [← leNat_div bs k]
  simp only [sectorByte, sectorOfBytes, BitVec.extractLsb'_toNat, BitVec.toNat_ofNat, List.take_of_length_le (Nat.le_of_eq h)]
  rw [Nat.shiftRight_eq_div_pow, show (256 : Nat) = 8 * k + (256 - 8 * k) by omega, Nat.pow_add,
    Nat.mod_mul_right_div_self, Nat.mod_mod_of_dvd _ (Nat.pow_dvd_pow 2 (by omega : 8 ≤ 256 - 8 * k))]
  rw [show 8 * k + (256 - 8 * k) = 256 by omega]

/-- A byte as the DRAM returns it while in service. -/
def dramByte (l : Lpddr) (x : Nat) : Byte := if zeroMarked l x then 0#8 else cellGet l.cells x

theorem zeros_sector : sectorOfBytes (List.replicate 32 0#8) = 0#256 := by decide

/-- The data of a sector as the DRAM returns it, byte by byte. -/
theorem dramRead_data {l : Lpddr} {a : Nat} (ha : a % 32 = 0) (hs : l.inService = true) :
    (dramRead l a).1 = sectorOfBytes ((rangeFrom a 32).map (dramByte l)) := by
  have same : ∀ x ∈ rangeFrom a 32, dramByte l x = if zeroMarked l a then 0#8 else cellGet l.cells x := by
    intro x hx
    obtain ⟨k, hk, rfl⟩ := List.mem_map.mp hx
    have hk := List.mem_range.mp hk
    unfold dramByte zeroMarked
    rw [show (a + k) / 2 ^ 21 = a / 2 ^ 21 by omega, show (a + k) / 4096 = a / 4096 by omega]
  rw [List.map_congr_left same]
  unfold dramRead
  simp only [hs, Bool.not_true, Bool.false_eq_true, if_false]
  by_cases hz : zeroMarked l a = true
  · simp only [hz, if_true, List.map_const', rangeFrom, List.length_map, List.length_range, zeros_sector]
  · simp only [hz, if_false, Bool.false_eq_true, cellsSector]

theorem markPoison_zeroMap (l : Lpddr) (pa : Nat) : (markPoison l pa).1.zeroMap = l.zeroMap := by
  unfold markPoison; split
  · rfl
  · split <;> rfl

theorem markPoison_inService (l : Lpddr) (pa : Nat) : (markPoison l pa).1.inService = l.inService := by
  unfold markPoison; split
  · rfl
  · split <;> rfl

theorem zeroBlock_inService (l : Lpddr) (pa : Nat) : (zeroBlock l pa).inService = l.inService := by
  unfold zeroBlock; split <;> rfl

theorem dramWrite_inService (l : Lpddr) (pa : Nat) (d : Sector) (mask : BitVec 32) (poison : Bool) :
    (dramWrite l pa d mask poison).1.inService = l.inService := by
  unfold dramWrite
  split
  · rfl
  · dsimp only
    split
    · rw [markPoison_inService]; exact zeroBlock_inService l pa
    · split <;> exact zeroBlock_inService l pa

theorem dramWrite_cells {l : Lpddr} (hs : l.inService = true) (pa : Nat) (d : Sector) (mask : BitVec 32) (poison : Bool) :
    (dramWrite l pa d mask poison).1.cells = cellsWriteSector (zeroBlock l pa).cells pa d mask := by
  unfold dramWrite
  rw [if_neg (by simp [hs])]
  dsimp only
  split
  · rw [markPoison_cells]
  · split <;> rfl

theorem dramWrite_zeroMap {l : Lpddr} (hs : l.inService = true) (pa : Nat) (d : Sector) (mask : BitVec 32) (poison : Bool) :
    (dramWrite l pa d mask poison).1.zeroMap = (zeroBlock l pa).zeroMap := by
  unfold dramWrite
  rw [if_neg (by simp [hs])]
  dsimp only
  split
  · rw [markPoison_zeroMap]
  · split <;> rfl

/-- A byte after a write: the new byte where the mask has 1, the old byte everywhere else. -/
theorem dramByte_dramWrite {l : Lpddr} (h : Memory.wf l.cells = true) (hs : l.inService = true) {pa : Nat} (hp : pa % 32 = 0)
    (d : Sector) (mask : BitVec 32) (poison : Bool) (x : Nat) :
    dramByte (dramWrite l pa d mask poison).1 x =
      if pa ≤ x ∧ x < pa + 32 ∧ mask.getLsbD (x - pa) = true then sectorByte d (x - pa) else dramByte l x := by
  have hz : zeroMarked (dramWrite l pa d mask poison).1 x = zeroMarked (zeroBlock l pa) x := by
    unfold zeroMarked
    rw [dramWrite_zeroMap hs]
  unfold dramByte
  rw [hz, dramWrite_cells hs, cellGet_cellsWriteSector pa d mask (zeroBlock_wf pa h) x, ← zeroBlock_byte l pa x]
  by_cases hc : pa ≤ x ∧ x < pa + 32 ∧ mask.getLsbD (x - pa) = true
  · simp only [zeroMarked_zeroBlock, show x / 4096 = pa / 4096 by omega, decide_true, Bool.not_true, Bool.and_false,
      Bool.false_eq_true, if_false]
  · rw [if_neg hc, if_neg hc]

/-- The data of the sectors after a write: the merged bytes at its own sector, the old bytes everywhere else; nothing while out
of service (R311, R965). -/
theorem dramRead_dramWrite {l : Lpddr} (h : Memory.wf l.cells = true) {pa a : Nat} (hp : pa % 32 = 0) (ha : a % 32 = 0)
    (d : Sector) (mask : BitVec 32) (poison : Bool) :
    (dramRead (dramWrite l pa d mask poison).1 a).1 =
      if a = pa ∧ l.inService = true then mergeSector (dramRead l pa).1 d mask else (dramRead l a).1 := by
  cases hs : l.inService with
  | false => simp [dramWrite, hs]
  | true =>
    rw [dramRead_data ha ((dramWrite_inService ..).trans hs), dramRead_data ha hs, dramRead_data hp hs]
    by_cases hap : a = pa
    · subst hap
      rw [if_pos ⟨rfl, rfl⟩, mergeSector]
      congr 1
      unfold rangeFrom
      rw [List.map_map]
      apply List.map_congr_left
      intro k hk
      have hk := List.mem_range.mp hk
      rw [sectorByte_sectorOfBytes (by simp) hk, Function.comp_apply, dramByte_dramWrite h hs hp]
      simp [hk]
    · rw [if_neg fun e => hap e.1]
      congr 1
      apply List.map_congr_left
      intro x hx
      obtain ⟨k, hk, rfl⟩ := List.mem_map.mp hx
      have hk := List.mem_range.mp hk
      rw [dramByte_dramWrite h hs hp, if_neg (by omega)]

end Sys2Proof.Laws
end

