-- ==== Sys2Proof/Laws/Packets.lean ====
section
/-!
SUPPORT. What starting a packet does, said once: the law that statements about packets cite.
-/

namespace Sys2Proof.Laws

open Machine

/-- A packet that starts runs its body from the started state, and its units have been used. -/
theorem packetRow_of_starting {s : State} {q : QueueId} {t : Stamp} {type : Nat} {mine : List Byte → Bool}
    {hold : State → List Byte → Option State} {x : Started} (h : starting s q t type mine hold = some x)
    (body : State → Pkt → List Byte → State) :
    packetRow (s.upTo t) q type mine hold body = useReads (body x.s x.p x.bytes) (.queue q) := by
  cases hq : getQueue (s.upTo t) q with
  | none => simp [starting, hq] at h
  | some r =>
    simp only [starting, packetRow, hq] at h ⊢
    grind

end Sys2Proof.Laws
end

