-- ==== Sys2Proof/Laws/Shared.lean ====
section
/-!
SUPPORT. What each shared operation can change, said once: every field that a lemma does not name is as before.
-/

namespace Sys2Proof.Laws

open Machine

/-- Time passing moves the Metronome, settles idle times and busy times, and nothing else. -/
theorem upTo_frame (s : State) (t : Stamp) :
    s.upTo t = { s with
      metro := s.metro.upTo t
      power := settlePower s
      ctxs := accrueBusy s ((s.metro.upTo t).now - s.metro.now)
      cores := { s.cores with classSince := settleClasses s } } := rfl

/-- A message on a vector changes a pending array or leaves the device. -/
theorem vectorEvent_frame (s : State) (fn v : Nat) : ∃ f o, vectorEvent s fn v = { s with fns := f, out := o } := by
  unfold vectorEvent
  dsimp only
  split
  · exact ⟨s.fns, s.out, rfl⟩
  · split
    · exact ⟨_, s.out, rfl⟩
    · exact ⟨s.fns, _, rfl⟩

/-- An interrupt cause changes the I3C target alone. -/
theorem ibiCause_frame (s : State) (bit : Nat) : ∃ i, ibiCause s bit = { s with i3c := i } := by
  unfold ibiCause ibiRequest
  dsimp only
  repeat' split
  all_goals exact ⟨_, rfl⟩

/-- An edge of FAULT_N changes the I3C target alone. -/
theorem faultEdge_frame (s v : State) : ∃ i, faultEdge s v = { v with i3c := i } := by
  unfold faultEdge
  split
  · exact ibiCause_frame v 1
  · exact ⟨v.i3c, rfl⟩

/-- A token of the Mordant's outputs and the checkpoint after it change the lockstep pair alone. -/
theorem slotOutput_frame (s : State) : ∃ l, slotOutput s = { s with lock := l } := by
  unfold slotOutput takeCheckpoint mordantOutput
  dsimp only
  split
  · exact ⟨_, rfl⟩
  · exact ⟨_, rfl⟩

/-- A detected condition joins the records detected and is an input of the Mordant, or is counted in the forfeit that covers its
context. -/
theorem detect_frame (s : State) (r : ErrRec) : ∃ e f l, detect s r = { s with err := e, forfeits := f, lock := l } := by
  have pushed : ∃ e f l, pushRecord s r = { s with err := e, forfeits := f, lock := l } := ⟨_, s.forfeits, _, rfl⟩
  unfold detect
  split
  · split
    · exact ⟨s.err, _, s.lock, rfl⟩
    · exact pushed
  · exact pushed

/-- A message of NOTIFY changes a pending array or leaves the device. -/
theorem slotNotify_frame (s : State) (k : SlotId) : ∃ f o, slotNotify s k = { s with fns := f, out := o } := by
  unfold slotNotify
  split
  · exact vectorEvent_frame ..
  · exact ⟨s.fns, s.out, rfl⟩

/-- A slot after its command has completed with results: DONE, or IDLE where a reset of its tenant is in progress. -/
def doneSlot (s : State) (k : SlotId) (res : List Word) : Slot :=
  if slotHidden s k then slotIdle (getSlot s k)
  else
    { getSlot s k with
      res := (res ++ List.replicate 6 0#32).take 6, st := .done, cause := 0, started := false }

/-- A slot after its command was refused with a cause: REFUSED, or IDLE where a reset of its tenant is in progress. -/
def refusedSlot (s : State) (k : SlotId) (cause : Nat) : Slot :=
  if slotHidden s k then slotIdle (getSlot s k)
  else { getSlot s k with st := .refused, cause := cause, started := false }

/-- What a completion and a refusal share: the Mordant's output, the slot, and the message. -/
theorem slotNotify_output (s : State) (k : SlotId) (v : Slot) :
    ∃ f l o, slotNotify (setSlot (slotOutput s) k v) k =
      { s with
        slots := tblSet s.slots k v
        fns := f, lock := l, out := o } := by
  obtain ⟨l, hl⟩ := slotOutput_frame s
  obtain ⟨f, o, h⟩ := slotNotify_frame (setSlot (slotOutput s) k v) k
  rw [h, hl]
  exact ⟨f, l, o, rfl⟩

/-- A command that completes changes its slot, sends its message and is an output of the Mordant; nothing else. -/
theorem slotDone_frame (s : State) (k : SlotId) (res : List Word) :
    ∃ f l o, slotDone s k res =
      { s with
        slots := tblSet s.slots k (doneSlot s k res)
        fns := f, lock := l, out := o } := by
  unfold slotDone doneSlot
  dsimp only
  split
  · exact ⟨s.fns, s.lock, s.out, rfl⟩
  · exact slotNotify_output ..

/-- A command that is refused changes its slot, sends its message and is an output of the Mordant; nothing else. -/
theorem slotRefuse_frame (s : State) (k : SlotId) (cause : Nat) :
    ∃ f l o, slotRefuse s k cause =
      { s with
        slots := tblSet s.slots k (refusedSlot s k cause)
        fns := f, lock := l, out := o } := by
  unfold slotRefuse refusedSlot
  dsimp only
  split
  · exact ⟨s.fns, s.lock, s.out, rfl⟩
  · exact slotNotify_output ..

/-- The slot of a completed command is DONE with its results, and the other slots are as before. -/
theorem getSlot_slotDone (s : State) (k j : SlotId) (res : List Word) :
    getSlot (slotDone s k res) j = if k = j then doneSlot s k res else getSlot s j := by
  obtain ⟨f, l, o, h⟩ := slotDone_frame s k res
  rw [h]
  exact getSlot_setSlot s k j _

/-- An event of a queue changes a pending array or leaves the device. -/
theorem queueEvent_frame (s : State) (q : QueueId) : ∃ f o, queueEvent s q = { s with fns := f, out := o } := by
  have waits : ∀ fn v, ∃ f, afterWrites s fn v = { s with fns := f } := by
    intro fn v
    unfold afterWrites
    split
    · exact ⟨_, rfl⟩
    · exact ⟨s.fns, rfl⟩
  unfold queueEvent
  split
  · rename_i r _
    split
    · exact ⟨s.fns, s.out, rfl⟩
    · obtain ⟨f, hf⟩ := waits q.ctx.tenant r.vector
      rw [hf]
      exact vectorEvent_frame ..
  · exact ⟨s.fns, s.out, rfl⟩

/-- A submission that closes changes contexts' counts, queues, pending arrays and what leaves the device. -/
theorem closeSubmission_frame (s : State) (q : QueueId) :
    ∃ c r f o, closeSubmission s q = { s with ctxs := c, queues := r, fns := f, out := o } := by
  have same : ∃ c r f o, s = { s with ctxs := c, queues := r, fns := f, out := o } := ⟨s.ctxs, s.queues, s.fns, s.out, rfl⟩
  unfold closeSubmission
  split
  · exact same
  · split
    · split
      · exact same
      · dsimp only
        split
        · exact ⟨s.ctxs, _, s.fns, s.out, rfl⟩
        · split
          · exact ⟨_, _, s.fns, s.out, rfl⟩
          · obtain ⟨f, o, h⟩ := queueEvent_frame (modQueue (modQueue s q fun r => { r with sub := none, subMissed := false })
              q fun r => { r with missed := true }) q
            rw [h]
            exact ⟨_, _, _, _, rfl⟩
    · exact same

/-- A queue brought up to date changes nothing but queues, counts of contexts, pending arrays and what leaves the device. -/
theorem settleQueue_frame (s : State) (q : QueueId) :
    ∃ c r f o, settleQueue s q = { s with ctxs := c, queues := r, fns := f, out := o } := by
  obtain ⟨c, r, f, o, h⟩ := closeSubmission_frame (modQueue s q fun r =>
    let r := if ctxStopped s q.ctx then r else actLatch r; { r with st := queueStateOf r }) q
  exact ⟨c, r, f, o, h⟩

/-- A packet that completes changes nothing but queues, counts of contexts, pending arrays, the accesses of its wait and what leaves
the device. -/
theorem completePkt_frame (s : State) (q : QueueId) (num : Nat) :
    ∃ c r f o x, completePkt s q num = { s with ctxs := c, queues := r, fns := f, out := o, traffic := x } := by
  have settled : ∀ v x, v = { s with traffic := x } → ∀ g p, ∃ c r f o x,
      (settleQueue (if p = true then queueEvent (modQueue v q g) q else modQueue v q g) q) =
        { s with ctxs := c, queues := r, fns := f, out := o, traffic := x } := by
    rintro v x rfl g p
    split
    · obtain ⟨f, o, h⟩ := queueEvent_frame (modQueue { s with traffic := x } q g) q
      obtain ⟨c', r', f', o', h'⟩ := settleQueue_frame (queueEvent (modQueue { s with traffic := x } q g) q) q
      rw [h', h]
      exact ⟨_, _, _, _, x, rfl⟩
    · obtain ⟨c', r', f', o', h'⟩ := settleQueue_frame (modQueue { s with traffic := x } q g) q
      rw [h']
      exact ⟨_, _, _, _, x, rfl⟩
  have stopped : ∀ b : Bool, ∃ x, (if b = true then dropWait s q else s) = { s with traffic := x } := by
    intro b
    cases b
    · exact ⟨s.traffic, rfl⟩
    · exact ⟨_, rfl⟩
  unfold completePkt
  split
  · exact ⟨s.ctxs, s.queues, s.fns, s.out, s.traffic, rfl⟩
  · split
    · exact ⟨s.ctxs, s.queues, s.fns, s.out, s.traffic, rfl⟩
    · dsimp only
      obtain ⟨x, hx⟩ := stopped _
      exact settled _ x hx _ _

/-- The messages of a stored record change pending arrays and what leaves the device. -/
theorem vectorEvents_frame (l : List Nat) (s : State) :
    ∃ f o, l.foldl (fun s fn => vectorEvent s fn 0) s = { s with fns := f, out := o } := by
  induction l generalizing s with
  | nil => exact ⟨s.fns, s.out, rfl⟩
  | cons a l ih =>
    obtain ⟨f, o, h⟩ := vectorEvent_frame s a 0
    obtain ⟨f', o', h'⟩ := ih (vectorEvent s a 0)
    rw [List.foldl_cons, h', h]
    exact ⟨_, _, rfl⟩

end Sys2Proof.Laws
end

