-- ==== Sys2Proof/Tests/Slice0.lean ====
section
/-!
SUPPORT. Tests: ill-formed operands that WellFormed refuses, worked cases of the spec, and witnesses for the hypotheses of
the statements.
-/

namespace Sys2Proof.Tests

set_option Elab.async false

open Machine

/-! A small block: open, with Port A, its functions 0 and 1 and a context, memory in service and every domain on -/

/-- The context of the witnesses: context 0 of tenant 1. -/
def c0 : CtxId := { tenant := 1, idx := 0 }

/-- Its queue 0. -/
def q0 : QueueId := { ctx := c0, q := 0 }

/-- Code at 0x10000, data at 0x20000 with every permission, and host memory at 0x30000. -/
def leaves0 : List Leaf :=
  [{ va := 0x10000, size := .p4k, w := false, x := true, ap := false, target := .device 0x20000000 },
   { va := 0x20000, size := .p4k, w := true, x := false, ap := true, target := .device 0x20001000 },
   { va := 0x30000, size := .p4k, w := true, x := false, ap := true, target := .host 0x5000 }]

/-- Context 0 with leaves and the tables that they need. -/
def mapped (ls : List Leaf) : Ctx :=
  { leaves := ls, tables := ((3, 0) :: leafTables ls).zipIdx }

/-- A function that answers. -/
def fnUp : Fn := { phase := .ready, memEnable := true, busMaster := true, msixEnable := true }

/-- The open block. -/
def block : State :=
  { State.reset with
    life := { phase := .opened, pins := { resetN := true, ddrReset := true } }
    metro := { now := 1000, running := true }
    lpddr := { inService := true }
    portA := { present := true, linkUp := true, speed := 5, width := 16 }
    fns := [(0, fnUp), (1, fnUp)]
    ctxs := [(c0, mapped leaves0)]
    power := { domains := List.replicate 72 { st := .on } }
    fabric := { routes := romRoutes } }

/-- A compute queue that is being served. -/
def queue0 : Queue :=
  { doorbell := 0, kind := .mixed, prio := 2, preempt := 0, anchor := 0x20000, vector := 0, tailPoll := 0, st := .running
    chain := .segment 0x20000 0x20400 }

/-- The block with the queue. -/
def queued : State := { block with queues := [(q0, queue0)] }

/-! Thread groups -/

/-- An instruction word from its fields (R503, Table 11-1). -/
def word (op : Nat) (d a b c : Nat × Nat) (mod aux : Nat) (ext : Option Word := none) : Insn :=
  { base := BitVec.ofNat 64 (op + (if ext.isSome then 256 else 0) + d.2 * 2 ^ 14 + d.1 * 2 ^ 22 + a.2 * 2 ^ 24 + a.1 * 2 ^ 32 +
      b.2 * 2 ^ 34 + b.1 * 2 ^ 42 + c.2 * 2 ^ 44 + c.1 * 2 ^ 52 + mod * 2 ^ 54 + aux * 2 ^ 60)
    ext := ext.getD 0#32 }

/-- No operand (R508). -/
def no : Nat × Nat := (3, 0)
/-- A vector register. -/
def vr (n : Nat) : Nat × Nat := (0, n)
/-- A scalar register. -/
def sr (n : Nat) : Nat × Nat := (1, n)
/-- A predicate. -/
def pr (n : Nat) : Nat × Nat := (2, n)
/-- An immediate. -/
def im (n : Nat) : Nat × Nat := (3, n)

/-- A group of 32 running threads at 0x10000 with 32 vector registers: lane l of register r holds r. -/
def group0 : Group :=
  { ctx := c0, queue := q0, pkt := 0, tag := 0#32, core := 0, sched := 0, wg := 0, homeSlot := 0, progVa := 0x10000, vregs := 4
    pcs := List.replicate 32 0x10000
    sregs := (List.replicate 64 0#32).set 2 0x20000#32, privBytes := 16, privVa := 0x20800
    v := (List.range 32).map fun r => List.replicate 32 (BitVec.ofNat 32 r) }

/-- The block with the group in resident slot 0, of a workgroup with 4 KiB of local store. -/
def shading : State :=
  { queued with cores := { groups := [(0, group0)], wgs := [(0, { dispatch := none, queue := q0, core := 0, lsBytes := 0x1000, groups := 1 })] } }

/-- The state with a word in memory at an offset of the code. -/
def stored (off : Nat) (w : Insn) (s : State) : State :=
  let cells := (insnBytes w).zipIdx.foldl (fun l e => cellSet l (0x20000000 + off + e.2) e.1) s.lpddr.cells
  { s with lpddr := { s.lpddr with cells := cells } }

/-- The same, and every group has fetched the two sectors at the offset. -/
def coded (off : Nat) (w : Insn) (s : State) : State :=
  let v := stored off w s
  let sector := fun (k : Nat) => (List.range 32).map fun i => (cellGet v.lpddr.cells (0x20000000 + off / 32 * 32 + 32 * k + i), false)
  let lines := [0, 1].map fun k => (0x10000 + off / 32 * 32 + 32 * k, sector k)
  { v with cores := { v.cores with groups := v.cores.groups.map fun e => (e.1, { e.2 with lines := lines }) } }

/-- The state with a reader's accesses to a byte range answered. -/
def withRead (s : State) (r : Reader) (va : Nat) (data : List Byte) (poison : Bool := false) : State :=
  let pieces := (linePieces va data.length).zipIdx.map fun e =>
    let p := e.1
    (1000 + 1000 * va + e.2,
      { client := .reader r, ni := systemNi, ctx := some c0, part := none, pri := 0, home := .device 0, va := p.1 / 128 * 128, len := 128
        kind := .read, need := 4, stage := .answered, stamp := 1000, secs := [0, 1, 2, 3], poison := poison
        bytes := List.replicate (p.1 % 128) 0#8 ++ (data.drop p.2.1).take p.2.2 : Access })
  { s with traffic := { s.traffic with accesses := s.traffic.accesses ++ pieces } }

/-- What a read has come to: the bytes it has brought without poison. -/
def gotBytes : Reading → Option (List Byte)
  | .ready bs => cleanBytes bs
  | _ => none

/-- A read is on its way. -/
def onItsWay : Reading → Bool
  | .wait _ => true
  | _ => false

/-- A read faults. -/
def readFaults : Reading → Bool
  | .fault .. => true
  | _ => false

/-- The group issues each word of a list, which memory holds at its PC. -/
def issuesAll (s : State) (ws : List (Nat × Insn)) : Bool :=
  ws.all fun e => (issuing (coded 0 e.2 s) 0 e.2 1000 (· == e.1)).isSome


/-! States and conditions of the witnesses -/

/-- The block in a start-up phase. -/
def starting_ (p : StartPhase) : State := { block with life := { block.life with phase := p } }

/-- The block at a stamp. -/
def blockAt (t : Stamp) : State := { block with metro := { now := t, running := true } }

/-- The block with a domain changed. -/
def withDom (t : Stamp) (d : Nat) (x : Domain) : State :=
  { blockAt t with power := { block.power with domains := block.power.domains.set d x } }

/-- A sample that waits for its output. -/
def sample0 : GovSampleResult :=
  { stamp := 50000, satHiNow := false, satLoNow := false, clampNow := false, staleNow := false, tpSel := false, mode := 0, pmicEn := 0
    vout := 0#32, pace := 0#32, pest := 0#32, episode := 0, code := none, params := {} }

/-- The block with a Governor. -/
def governed (t : Stamp) (g : Gov) : State := { blockAt t with gov := g }

/-- The block with function 1 changed. -/
def withFn (f : Fn) : State := { block with fns := [(0, fnUp), (1, f)] }

/-- A BAR2 read of function 1 whose one piece is answered. -/
def hosted : State :=
  { block with traffic := {
      hostReqs := [(3, { fn := 1, pieces := [(0x20000, 8, 4)] })]
      accesses := [(5, { client := .bar2 3, ni := 88, ctx := some c0, part := none, pri := 0, home := .device 0x20001000, va := 0x20000
                         len := 128, kind := .read, need := 1, stage := .answered, bytes := List.replicate 128 0#8 })] } }

/-- Context 0 of tenant 1 with a memory object and a mapped scratchpad segment. -/
def ctx1 : Ctx :=
  mapped (leaves0 ++ pageLeaves { va := 0x40000, size := .p64k, w := true, x := false, ap := false, target := .scratch 0 })

/-- The block with grants for tenants 0 and 1, an object of tenant 1, scratchpad ways and one segment held. -/
def granted : State :=
  { queued with
    fns := [(0, fnUp), (1, { fnUp with grant := { contexts := 64, lpddr := 64, quota := 8, segs := 8, parts := 3#16, chans := 3#64 } })]
    ctxs := [(c0, ctx1)]
    lpddr := { inService := true, density2g := true, usedUnits := [0], objects := [(7, { tenant := 1, units := [0] }), (8, { tenant := 1, units := [1] })] }
    alloc := { shares := [(5, { st := .half, exporter := some 1, importer := none, handle := 7 })] }
    vat := { convMask := 1#16, segs := (0, { holder := some c0 }) :: (List.range 4).map fun n => (n + 1, {}) } }

/-- The same with Port B present. -/
def paired : State :=
  { granted with life := { granted.life with straps := { portbEn := true } }, portB := { present := true, linkUp := true } }

/-- A state in which a slot holds an accepted command that has not started. -/
def commanded (s : State) (k : SlotId) (cmd : List Word) (started : Bool := false) : State :=
  { s with slots := [(k, { cmd := cmd ++ List.replicate (8 - cmd.length) 0#32, st := .busy, seq := 1#32, started := started })] }

/-- The last mailbox slot of tenant 1, and of the device administrator. -/
def slotT : SlotId := { fn := 1, slot := 3 }
/-- The last mailbox slot of the device administrator. -/
def slotA : SlotId := { fn := 0, slot := 7 }

/-- The command of a slot starts for a row. -/
def serves (s : State) (k : SlotId) (cmd : List Word) (code : Nat) (causes : State → SlotId → List Word → List Nat)
    (mine : List Word → Bool := anyCmd) : Bool := serving ((commanded s k cmd).upTo 1000) k code mine causes

/-- The command of a slot is in progress for a row. -/
def resumes (s : State) (k : SlotId) (cmd : List Word) (code : Nat) (mine : List Word → Bool := anyCmd) : Bool :=
  let u := (commanded s k cmd true).upTo 1000
  (getSlot u k).st == .busy && cmdCode (getSlot u k).cmd == code && mine (getSlot u k).cmd && takesCommands u && (getSlot u k).started

/-- The group issues a word with a condition on what it issues. -/
def issues (s : State) (op : Nat) (w : Insn) (p : Issued → Bool) : Bool := match issuing (coded 0 w s) 0 w 1000 (· == op) with
  | some x => p x
  | none => false

/-- What the fetches of the group in slot 0 offer for a word at its PC: it agrees with them, and they have come to `f`. -/
def offers (s : State) (w : Insn) (f : Fetch) : Bool :=
  let u := s.upTo 1000
  (getGroup u 0).any fun g => (groupPc g).any fun pc => fetched u g pc (iword w).len w && instrFetch u g pc (iword w).len == f

/-- The block with the group in slot 0 changed. -/
def with0 (f : Group → Group) : State := { shading with cores := { shading.cores with groups := [(0, f group0)] } }

/-- The texture descriptor in s8 to s15: 4 by 4 texels of format 0x01 at 0x20000, and a sampler in s16 to s19. -/
def texturing : State := with0 fun g => { g with sregs := (((g.sregs.set 8 0x20000#32).set 10 0x00030003#32).set 11 0x00010000#32).set 12 0x40#32 }

/-- A request of the sampler for the group. -/
def sample1 : SampleRec :=
  { num := 1, op := 0x61, reg := 0, lanes := [0], active := 1#32, mod := 0, tex := [], samp := [], coords := [], pc := 0x10000
    base := 0#64, ext := 0#32 }

/-- A draw and a frame of the queue. -/
def draw0 : Draw :=
  { pkt := 0, tag := 0#32, index := 0, stateVa := 0x20000, state := List.replicate 256 0#8, vprog := 0x10000, argVa := 0x20000
    vregs := 4, topology := 3, instances := 1, firstInstance := 0, plan := [] }
/-- The frame. -/
def frame0 : Frame :=
  { pool := 0x20000, table := 0x20800, statusVa := 0x20F00, width := 64, height := 64, log2s := 0, sampleBytes := 4, frameId := 1#32
    edge := 32, ringVa := 0x20400, ringLog2 := 4, first := 0, taken := 0, tag := 0, kept := [draw0], drawn := true }

/-- The fragment groups of a tile on core 0, with the group as its group 0. -/
def fragments : State :=
  { with0 fun g => { g with kind := .fragment 0 } with
    gfx := { frames := [(q0, frame0)], tiles := [(0, { queue := q0, tile := 0, part := false
                                                       groups := [{ num := 0, draw := 0, quads := [], slot := 0 }] })] } }

/-- Addresses of the lanes of a global access. -/
def globals (x : Issued) : List (Nat × Nat) := (lanesOf (runMask x.g x.iw x.active)).map fun l => (l, globalVa x.g x.iw l)

/-- Every lane's local access lies in the store. -/
def localOk (x : Issued) (n bytes : Nat) (off : Nat → Nat) : Bool :=
  (lanesOf (runMask x.g x.iw x.active)).all fun l => off l % n == 0 && off l + n ≤ bytes

/-- A publication is performed. -/
def published : Published → Bool
  | .done .. => true
  | _ => false

/-- A packet's bytes: its type, fields at byte offsets, and its units. -/
def packet (type : Nat) (fields : List (Nat × Nat)) (units : Nat := 1) : List Byte :=
  leBytes (64 * units) (type + (units - 1) * 2 ^ 16 + (fields.map fun e => e.2 * 2 ^ (8 * e.1)).sum)

/-- The block serves a queue whose next packet comes from host memory. -/
def served : State := { block with queues := [(q0, { queue0 with chain := .segment 0x30000 0x30400 })] }

/-- The same with the queue changed. -/
def withQ (f : Queue → Queue) : State := { block with queues := [(q0, f queue0)] }

/-- The queue has read a packet, starts it, and meets a condition. -/
def begins (s : State) (units : List Byte) (type : Nat) (mine : List Byte → Bool)
    (hold : State → List Byte → Option State) (p : Started → Bool) : Bool :=
  match starting (withRead s (.queue q0) 0x30000 units) q0 1000 type mine hold with
  | some x => p x
  | none => false

/-- A translation is a device home for the context. -/
def atDevice (s : State) (va : Nat) (need : AccessNeed) : Bool := match translate s c0 va need with
  | .ok (h, _) => !h.isHost && !homeGone s h
  | .error _ => false

/-- Fields of a dispatch: one workgroup of 32 threads, four groups of registers. -/
def gridFields : List (Nat × Nat) := [(8, 0x10000), (16, 1), (20, 1), (22, 1), (24, 32), (26, 1), (28, 1), (30, 4), (31, 63), (40, 0x20000)]

/-- A dispatch of one workgroup. -/
def dispatch0 : Dispatch :=
  { queue := q0, pkt := 0, tag := 0#32, progVa := 0x10000, grid := (1, 1, 1), wgDims := (32, 1, 1), vregs := 4, clusters := 63
    lsBytes := 0, privBytes := 0, privVa := 0, argVa := 0x20000, ready := 1000 }

/-- The block with a dispatch of the queue in progress, at a stamp. -/
def dispatching (t : Stamp) (d : Dispatch) : State :=
  { queued with metro := { now := t, running := true }, cores := { dispatches := [(0, d)] } }

/-- A second queue, of lower priority. -/
def q1 : QueueId := { ctx := c0, q := 1 }

/-- A workgroup of the lower queue fills the local store of every core. -/
def crowded : State :=
  { queued with
    queues := [(q0, queue0), (q1, { queue0 with prio := 0 })]
    cores := {
      dispatches := [(0, { dispatch0 with lsBytes := 65536 })]
      wgs := (List.range 24).map fun k => (k, { dispatch := some 1, queue := q1, core := k, lsBytes := 0x30000, groups := 1 })
      groups := (List.range 24).map fun k => (48 * k, { group0 with queue := q1, core := k, wg := k, homeSlot := 48 * k }) } }

/-- An access of the group's load 0 at a stage. -/
def access0 (kind : AccKind) (home : Home) (stage : Stage) : Access :=
  { client := .groupLoad 0 0, ni := 0, ctx := some c0, part := none, pri := 0, home := home, va := 0x20000, len := 128, kind := kind
    need := 1, stage := stage, stamp := 1000 }

/-- The answer to a client's access on the word at 0x20FF8: it held n. -/
def wordAt (client : Client) (kind : AccKind) (n : Nat) : Access :=
  { access0 kind (.device 0x20001F80) .answered with
    client := client, va := 0x20F80
    bytes := match kind with
      | .atomic .. => leBytes 8 n
      | _ => List.replicate 120 0#8 ++ leBytes 8 n }

/-- The queue waits on the word at 0x20FF8, or has a signal on it, with an access on the word answered or none. -/
def onWord (wait : Option WaitRec) (signal : Option SignalOp) (a : Option Access) : State :=
  { withQ fun r => { r with wait := wait, signal := signal } with traffic := { accesses := (a.map fun a => (5, a)).toList } }

/-- A signal of the queue on the word. -/
def signal0 (kind : SignalKind) : SignalOp := { pkt := 0, kind := kind, va := 0x20FF8, value := 7#64 }

/-- A wait of the queue for the word's low byte to be 0. -/
def wait0 (sem : Bool) : WaitRec :=
  { pkt := 0, sem := sem, addr := 0x20FF8, ref := 0#64, mask := 0xFF#64, cond := 1, timeout := 1, start := 1 }

/-- The queue's wait meets a condition. -/
def waits (s : State) (p : State → Queue → WaitRec → Bool) : Bool :=
  let u := s.upTo 1000
  (getQueue u q0).any fun r => waitServed u q0 && r.wait.any fun w => p u r w

/-- The queue's signal has an answered access and meets a condition. -/
def signalled (s : State) (p : SignalOp → Access → Bool) : Bool :=
  let u := s.upTo 1000
  waitServed u q0 && ((getQueue u q0).bind Queue.signal).any fun o => (accessOf u (.signal q0)).any fun e =>
    e.2.stage == .answered && !(answeredWord e.2 o.va).2 && p o e.2

/-- The block with access 5 in flight. -/
def flying (a : Access) : State := { queued with traffic := { accesses := [(5, a)] } }

/-- A Madder operation of the group. -/
def mop0 (k : MKind) : MOp := { group := 0, core := 0, kind := k, commit := true, pc := 0x10000, lanes := 0#32, base := 0#64, ext := 0#32 }

/-- The group with a Madder operation. -/
def maddening (o : MOp) : State :=
  { with0 fun g => { g with drive := some 4 } with madders := { ops := [(3, o)] } }

/-- A transfer of the queue. -/
def xfer0 : XferOp :=
  { queue := q0, pkt := 0, tag := 0#32, type := 0x80, ch := 1, src := 0x20000, dst := 0x20800, len := 64, start := 1000 }

/-- A line of the Vat that holds the line at a physical address in way 0, with every sector valid. -/
def line0 (pa : Nat) : Line :=
  { slice := sliceOf pa, set := Machine.setOf pa, way := 0, tag := tagOf pa, owner := ownerCode c0
    sectors := List.replicate 4 { sv := true } }

/-- An access at its home, with or without its line. -/
def homeward (kind : AccKind) (hit : Bool) : State :=
  { flying (access0 kind (.device 0x20001000) (.admitted 900)) with vat := { lines := if hit then [line0 0x20001000] else [] } }

/-- Every used sector of the line is valid. -/
def hits (s : State) (secs : List Nat) : Bool := match checkedLine s 0 0x20001000 secs [] .good with
  | (_, some ln) => secs.all fun k => (lineSector ln k).sv
  | _ => false

/-- The block renders a frame of the queue. -/
def framed (f : Frame) : State := { served with gfx := { frames := [(q0, f)] } }

/-- A frame with an open draw of one empty batch, whose group has exited. -/
def binning (f : Frame → Frame) (g : Group → Group) : State :=
  { queued with
    gfx := { frames := [(q0, f { frame0 with kept := [], draws := [{ draw0 with plan := [{ number := 0, idx := [], prims := [] }] }], pages := [0x20000] })], bound := some q0 }
    cores := { groups := [(0, g { group0 with kind := .vertex 0, sts := List.replicate 32 .exited })] } }

/-- The front end serves the queue's frame, which meets a condition. -/
def bound (s : State) (p : State → Frame → Bool) : Bool := (bindFrame (s.upTo 1000) q0).any fun v => (getFrame v q0).any (p v)

/-- Fields of a draw of one instance of three vertices. -/
def drawFields : List (Nat × Nat) := [(8, 0x10000), (16, 0x20000), (32, 3), (36, 1), (52, 3), (53, 4), (56, 0x20000)]

/-- A frame whose draw's state names launch arguments at 0x20000 and four groups of registers, with a quad on the tile of core 2. -/
def quadded : State :=
  let f : Frame := { frame0 with kept := [{ draw0 with state := leBytes 256 (0x20000 * 2 ^ (8 * 0x88) + 4 * 2 ^ (8 * 0x90)) }] }
  let x : Quad := { prim := 0, x := 0, y := 0, cov := [1, 1, 1, 1] }
  { framed f with gfx := {
      frames := [(q0, f)]
      tiles := [(2, { queue := q0, tile := 0, part := false, phase := .list, quads := [(0, x)] })] } }

/-- A record stored for the windows of the device administrator and of tenant 1, by SEQ. -/
def stored0 (n : Nat) : StoredRec := { seq := n, rec_ := { code := 0x0110, scope := 0 }, windows := [0, 1] }

/-- The block with records 3, 4 and 5 stored. -/
def recorded : State := { block with err := { stored := [stored0 3, stored0 4, stored0 5], sel := [(1, 2)] } }

/-- The block with a lockstep state. -/
def locked (t : Stamp) (l : Lockstep) : State := { blockAt t with lock := l }

/-- The block in Sepia mode, with a context of the device administrator. -/
def composing : State :=
  { granted with lock := { granted.lock with sepia := true }, ctxs := granted.ctxs ++ [({ tenant := 0, idx := 0 }, ctx1)] }

/-- A compose command of one pixel is in progress, with a pixel write that ended with a code or none, and meets a condition. -/
def rendering (code : Word) (f : ComposeOp → ComposeOp) (ended : Option Nat) (p : State → List Word → ComposeOp → Bool) : Bool :=
  let cmd := [code, 0x10100#32, 1#32]
  let a : Access := { access0 (.write [(2, 7#8)] false) (.device 0x20001F80) .answered with client := .composeWrite, va := 0x20F80, ended := ended }
  let s : State := { commanded composing slotA cmd true with
    compose := some (f { slot := slotA, ctx := c0 }), traffic := { accesses := [(5, a)] } }
  let u := s.upTo 1000
  (getSlot u slotA).st == .busy && takesCommands u && (getSlot u slotA).started &&
    u.compose.any fun x => x.slot == slotA && p u (getSlot u slotA).cmd x

/-- The block in which the I3C target has an address. -/
def addressed : State := { block with i3c := { serving := true, dynAddr := some 0x42, request := some 1#8 } }



/-! Every opcode issues somewhere -/

/-- Register instructions of the integer unit, one word each. -/
def integerWords : List (Nat × Insn) :=
  [(0x00, word 0x00 no no no no 0 0), (0x01, word 0x01 (vr 31) (vr 1) no no 0 0), (0x02, word 0x02 (vr 0) (vr 1) (im 5) (pr 7) 0 0),
   (0x06, word 0x06 (vr 0) (vr 1) (vr 2) no 1 0), (0x07, word 0x07 (vr 0) (vr 1) (vr 2) (sr 63) 0 0),
   (0x08, word 0x08 (sr 61) (sr 1) (im 255) no 1 0), (0x09, word 0x09 (vr 0) (vr 1) (vr 2) no 0 0),
   (0x0D, word 0x0D (vr 0) (vr 1) no no 0 0), (0x11, word 0x11 (vr 0) (vr 1) (vr 2) (vr 3) 1 0),
   (0x12, word 0x12 (vr 0) (vr 1) (vr 2) (vr 3) 0 0), (0x13, word 0x13 (vr 0) (vr 1) no no 0 0),
   (0x14, word 0x14 (vr 0) (vr 1) no no 0 0), (0x15, word 0x15 (vr 0) (vr 1) no no 0 0),
   (0x16, word 0x16 (pr 7) (vr 1) (vr 2) no 0xD 0), (0x17, word 0x17 (vr 30) (vr 2) (vr 4) no 0 0),
   (0x18, word 0x18 (vr 0) (vr 1) (vr 2) (vr 4) 1 0)] ++
  [0x03, 0x04, 0x05, 0x0A, 0x0B, 0x0C, 0x0E, 0x0F, 0x10].map fun op => (op, word op (vr 0) (vr 1) (im 32) no 0 0)

/-- Register instructions of the floating-point unit. -/
def floatWords : List (Nat × Insn) :=
  ([0x20, 0x21, 0x30, 0x31].map fun op => (op, word op (vr 0) (vr 1) (vr 2) no 0x3B 3)) ++
  ([0x22, 0x32].map fun op => (op, word op (vr 0) (vr 1) (vr 2) (vr 3) 0x3F 3)) ++
  ([0x23, 0x24, 0x33, 0x34].map fun op => (op, word op (vr 0) (vr 1) (vr 2) no 0 0)) ++
  ([0x26, 0x27, 0x28, 0x29, 0x2A, 0x2B, 0x2C, 0x2D].map fun op => (op, word op (vr 0) (vr 1) no no 9 0)) ++
  [(0x25, word 0x25 (pr 0) (vr 1) (vr 2) no 0x37 0), (0x2E, word 0x2E (vr 0) (vr 1) no no 0x29 4),
   (0x35, word 0x35 (pr 6) (vr 1) (vr 2) no 0x37 0), (0x38, word 0x38 (vr 0) (vr 1) no no 1 5),
   (0x39, word 0x39 (vr 0) (vr 1) no no 0x3F 4), (0x3A, word 0x3A (vr 0) (vr 1) no no 0x3F 5),
   (0x3B, word 0x3B (sr 4) (vr 1) (im 32) no 0xF 0), (0x3C, word 0x3C (vr 0) (vr 1) (sr 2) (sr 3) 3 5),
   (0x3D, word 0x3D (vr 0) (vr 1) (sr 2) (sr 3) 7 0)]

/-- Lane and predicate instructions, branches and MARK. -/
def laneWords : List (Nat × Insn) :=
  [(0x40, word 0x40 (vr 0) (vr 1) (vr 2) no 3 0), (0x41, word 0x41 (sr 4) (vr 1) (im 31) no 0 0),
   (0x42, word 0x42 (sr 4) no no (pr 7) 0 0), (0x43, word 0x43 (sr 4) (vr 1) no no 10 0), (0x44, word 0x44 (sr 4) no no no 8 0),
   (0x45, word 0x45 (pr 7) (pr 0) (pr 1) no 15 0), (0x46, word 0x46 (pr 7) (sr 2) no no 0 0),
   (0x59, word 0x59 no no no no 0 0), (0x5A, word 0x5A no no no no 0 0), (0x70, word 0x70 no no no no 0 0 (some 0xFFFFFFFF#32)),
   (0x71, word 0x71 no (sr 0) no no 0 0), (0x72, word 0x72 (sr 4) no no no 0 0 (some 4#32)), (0x73, word 0x73 no no no no 0 0),
   (0x74, word 0x74 no (sr 2) no no 0 0)]

/-- Madder instructions. -/
def madderWords : List (Nat × Insn) :=
  [(0x80, word 0x80 (im 7) (sr 2) (im 64) no 0 5), (0x81, word 0x81 (im 31) (im 7) (im 0) no 1 0),
   (0x82, word 0x82 no (sr 2) (im 64) (im 31) 7 5), (0x83, word 0x83 (im 31) no no no 0 0),
   (0x84, word 0x84 (vr 0) (vr 8) (vr 16) (vr 24) 0 3), (0x85, word 0x85 no no no no 0 0)]

theorem witness_madder_rows : issuesAll shading madderWords = true := by decide +kernel

/-! Witnesses: for every statement with hypotheses, operands and a state that meet them, clause by clause -/

theorem witness_start_up_events_act :
    (State.reset.life.pins.resetN = false ∧ State.reset.life.phase ≠ .brownOut) ∧
    (block.life.pins.resetN = true ∧ block.life.phase ≠ .brownOut) ∧
    (starting_ .brownOut).life.phase = .brownOut ∧
    ((starting_ .awaitLock).life.phase = .awaitLock ∧ (starting_ .awaitLock).metro.lost = false ∧
      failedCheck { vatOk := false } ≠ none) ∧
    ((starting_ .awaitLock).life.phase = .awaitLock ∧ failedCheck {} = none) ∧
    (((starting_ .awaitTraining).upTo 0).life.phase = .awaitTraining ∧ timed ((starting_ .awaitTraining).upTo 0) = true ∧
      (starting_ .awaitTraining).life.straps.adminSel = false) ∧
    (({ block with life := { block.life with warm := some { causes := [.i3c], wasSepia := false, since := 0 } } } : State).forfeits.isEmpty = true ∧
      failedCheck { romOk := false } ≠ none ∧ failedCheck {} = none) :=
  by and_intros <;> decide +kernel

theorem witness_power_domains_pins_and_sensors_act :
    (let u := (withDom 9990000 0 { st := .on, idleSince := some 8000000 }).upTo 10000000; timed u && u.stamp == 10000000 &&
      (getDom u 0).st == .on && (getDom u 0).policy == .auto &&
      heldMoreThan 8000000 10000000 (u.power.idleOff.getD (domClass 0) 0 * 1000) && !heldOn u 0 && !workPending u 0 &&
      !mustSave u 0) = true ∧
    (getDom ((withDom 0 71 { st := .switchingOff }).upTo 5) 71).st = .switchingOff ∧
    ((getDom ((withDom 0 24 { st := .waking }).upTo 5) 24).st = .waking ∧
      domOn ((withDom 0 24 { st := .waking }).upTo 5) 0 = true) ∧
    (let u := (withDom 0 64 { st := .on, policy := .forceOff }).upTo 5; (getDom u 64).policy == .forceOff &&
      (getDom u 64).st == .on && !domainBusy u 64 && !heldOn u 64 && !mustSave u 64) = true ∧
    ((block.upTo 2000).metro.running = true ∧ (block.upTo 2000).metro.lost = false) ∧
    (let u := ({ starting_ .awaitLock with metro := {} } : State).upTo 5; u.life.phase == .awaitLock && !u.metro.running &&
      !u.metro.lost) = true ∧
    (timed (block.upTo 100000) = true ∧ (block.upTo 100000).stamp = 100000) :=
  by and_intros <;> decide +kernel

theorem witness_governor_and_metronome_act :
    sampleDue ((governed 40000 { enabledAt := some 30000 }).upTo 50000) 50000 = true ∧
    (let u := (governed 60000 { held := some ({}, sample0) }).upTo 88400; u.gov.held.isSome && timed u && u.stamp ==
      sample0.stamp + 38400) = true ∧
    ((governed 0 { frame := some { sid := 0, cmd := .registerWrite, addr := 0, data := [] } }).upTo 5).gov.frame.isSome = true ∧
    (let u := (governed 0 { loop := { episodeStart := some 0, episode := 2002 }, lastSample := some 100000001 }).upTo 5;
      heldMoreThan 0 (u.gov.lastSample.getD 0) 100000000 && decide (2002 ≤ u.gov.loop.episode) &&
      mayEnter u 0x0008) = true ∧
    (isAdmin 0 = true ∧ barAnswers (block.upTo 5) 0 = true) ∧
    barAnswers (block.upTo 5) 1 = true :=
  by and_intros <;> decide +kernel

theorem witness_link_and_port_events_act :
    (let v := setPerstPin (block.upTo 5) .a false; (getPort v .a).present && !(getPort v .a).perst) = true ∧
    (getPort (block.upTo 5) .a).linkUp = true ∧
    (phyRuns (block.upTo 5) && (getPort (block.upTo 5) .a).present && !(getPort (block.upTo 5) .a).perst &&
      linkOk .a 5 8) = true ∧
    ((getPort (block.upTo 5) .a).linkUp && linkOk .a 1 1) = true ∧
    (isOpen block = true ∧ (getPort block .a).linkUp = true) :=
  by and_intros <;> decide +kernel

theorem witness_functions_appear_reset_and_sleep :
    (fnExists (block.upTo 5) 1 = true ∧ (getPort (block.upTo 5) (portOf 1)).linkUp = true ∧
      cfgStatus (block.upTo 5) 1 = .success) ∧
    (fnExists (block.upTo 5) 95 = true ∧ (getPort (block.upTo 5) (portOf 95)).linkUp = true ∧
      cfgStatus (block.upTo 5) 95 ≠ .success) ∧
    (fnReachable (block.upTo 5) (pf1Of .a) = true ∧ (getPort (block.upTo 5) .a).vfEnable = false) ∧
    (getFn ((withFn { fnUp with phase := .enabling }).upTo 5) 1).phase = .enabling ∧
    (let s : State := { block with portA := { block.portA with vfEnable := true } }; fnReachable (s.upTo 5) (pf1Of .a) &&
      (getPort (s.upTo 5) .a).vfEnable) = true ∧
    (fnReachable (block.upTo 5) 1 = true ∧ (getFn (block.upTo 5) 1).flr = false) ∧
    ((getFn ((withFn { fnUp with flr := true, flrForfeited := true }).upTo 5) 1).flr = true ∧
      (getFn ((withFn { fnUp with flr := true, flrForfeited := true }).upTo 5) 1).flrForfeited = true) ∧
    (fnReachable (block.upTo 5) 1 = true ∧ isPf 1 = true ∧ (getFn (block.upTo 5) 1).flr = false) ∧
    (fnReachable ((withFn { fnUp with d3hot := true }).upTo 5) 1 = true ∧
      (getFn ((withFn { fnUp with d3hot := true }).upTo 5) 1).d3hot = true) ∧
    (barAnswers (block.upTo 5) 1 = true ∧ 103 < vectorCount 1) :=
  by and_intros <;> decide +kernel

theorem witness_host_accesses_act :
    (barAnswers (block.upTo 5) 1 = true ∧ 0xFFF8 % 8 = 0 ∧ 0xFFF8 + 8 ≤ 0x10000) ∧
    (let u := (withFn { fnUp with apEn := true }).upTo 5; barAnswers u 1 &&
      ((aperturePieces u 1 0x20FF8 8 .bar2Read).map List.length) == some 1) = true ∧
    (let u := (withFn { fnUp with apEn := true }).upTo 5; barAnswers u 1 &&
      (aperturePieces u 1 0x20FF9 8 .bar2Read).isNone) = true ∧
    (let u := (withFn { fnUp with apEn := true }).upTo 5; barAnswers u 1 &&
      (aperturePieces u 1 0 1 .bar2Write).isNone) = true ∧
    (let u := (withFn { fnUp with apEn := true }).upTo 5; barAnswers u 1 &&
      ((aperturePieces u 1 0x2007E 4 .bar2Write).map List.length) == some 2) = true ∧
    ((tblGet hosted.traffic.hostReqs 3).any fun q => (hostReqParts hosted 3 q).all Option.isSome) = true ∧
    (let u := (withFn { fnUp with d3hot := true }).upTo 5; isOpen u && fnExists u 1 && (getPort u .a).linkUp &&
      !(getPort u .a).inReset && !barAnswers u 1 && (getFn u 1).d3hot) = true :=
  by and_intros <;> decide +kernel

theorem witness_go_and_ack_move_the_slot :
    (barAnswers (block.upTo 1000) 1 = true ∧ 3 < slotCount 1 ∧ leastNat (goCauses (block.upTo 1000) slotT {} 1#32) = none) ∧
    leastNat (goCauses ((commanded block slotT []).upTo 1000) slotT (getSlot (commanded block slotT []) slotT) 0#32) = some 0x80 ∧
    (let s : State := { block with slots := [(slotA, { st := .refused, seq := 9#32 })] }; barAnswers (s.upTo 1000) 0 &&
      decide (7 < slotCount 0) && (getSlot s slotA).seq == 9#32) = true ∧
    (let u := (commanded block slotT [0xFFFF#32]).upTo 1000; (cmdInfo (cmdCode (getSlot u slotT).cmd)).isNone &&
      startable u slotT) = true :=
  by and_intros <;> decide +kernel

theorem witness_reporting_commands_answer :
    serves block slotT [1#32] 0x0001 noCauses = true ∧
    serves block slotT [2#32] 0x0002 noCauses = true ∧
    serves block slotA [0x0105#32, 1#32] 0x0105 (fun s k cmd =>
      causesOf [(offAuthority s k (argTenant cmd), 0x02), (!isTenant s (argTenant cmd), 0x05)]) = true ∧
    serves block slotA [0x0202#32, 17#32] 0x0202 (fun _ _ cmd => causesOf [(argN cmd 1 > 17, 0x04)]) = true ∧
    serves granted slotT [0x0050#32, 0#32, 0x20F00#32] 0x0050 (fun s k cmd =>
      causesOf [(argVa cmd 2 % 256 ≠ 0, 0x04), (!ctxThere s k.fn cmd, 0x05)]) = true ∧
    resumes granted slotT [0x0050#32] 0x0050 = true ∧
    (match translate granted c0 0x20F00 .store with | .ok (h, _) => !h.isHost | .error _ => false) = true ∧
    serves granted slotT [0x0050#32, 0#32, 0x90000#32] 0x0050 (fun s k cmd =>
      causesOf [(argVa cmd 2 % 256 ≠ 0, 0x04), (!ctxThere s k.fn cmd, 0x05)]) = true ∧
    (match translate granted c0 0x90000 .store with | .ok _ => false | .error _ => true) = true :=
  by and_intros <;> decide +kernel

theorem witness_context_and_queue_commands_act :
    serves granted slotT [0x10#32, 63#32] 0x0010 ctxCreateCauses = true ∧
    (serves granted slotT [0x11#32] 0x0011 ctxCauses = true ∧ resumes granted slotT [0x11#32] 0x0011 = true) ∧
    serves granted slotT [0x12#32] 0x0012 ctxCauses = true ∧
    serves granted slotT [0x13#32, 0x200#32, 100#32] 0x0013 ctxSetCauses = true ∧
    serves granted slotT [0x20#32, 0xFF0040#32, 0x20000#32, 0#32, 0x4000067#32] 0x0020 qCreateCauses = true ∧
    (serves granted slotT [0x21#32] 0x0021 (fun s k cmd => causesOf [(noQueue s k cmd, 0x05)]) = true ∧
      resumes granted slotT [0x21#32] 0x0021 = true) ∧
    serves granted slotT [0x22#32, 0x400#32, 3#32] 0x0022 (fun s k cmd =>
      causesOf [(!queueParamOk k.fn (argParam cmd) (argN cmd 2), 0x04), (noQueue s k cmd, 0x05)]) = true :=
  by and_intros <;> decide +kernel

theorem witness_memory_commands_act :
    serves granted slotT [0x30#32, 62#32] 0x0030 memAllocCauses = true ∧
    (serves granted slotT [0x31#32, 8#32] 0x0031 memFreeCauses = true ∧ resumes granted slotT [0x31#32, 8#32] 0x0031 = true) ∧
    serves granted slotT [0x32#32, 0x100#32, 0x80000#32, 0#32, 7#32, 0#32, 0#32, 1#32] 0x0032 memMapCauses = true ∧
    (let cmd := [0x32#32, 0x100#32, 0x80000#32, 0#32, 7#32, 0#32, 0#32, 1#32];
      mapSource (markStarted ((commanded granted slotT cmd).upTo 1000) slotT) 1 cmd).isSome = true ∧
    (serves granted slotT [0x33#32, 0#32, 0x20000#32, 0#32, 1#32, 0#32, 0#32, 1#32] 0x0033 memUnmapCauses = true ∧
      resumes granted slotT [0x33#32] 0x0033 = true) ∧
    serves granted slotT [0x40#32, 0#32, 0x80000#32, 0#32, 1#32] 0x0040 segAcquireCauses = true ∧
    (serves granted slotT [0x41#32, 0#32, 0x40000#32, 0#32, 1#32] 0x0041 segReleaseCauses = true ∧
      resumes granted slotT [0x41#32] 0x0041 = true) ∧
    ([1, 2, 3].all fun op =>
      serves granted slotT [0x42#32, BitVec.ofNat 32 (op * 2 ^ 8), 0x20F80#32, 0#32, 128#32] 0x0042 maintCauses (maintMine op) &&
      resumes granted slotT [0x42#32, BitVec.ofNat 32 (op * 2 ^ 8)] 0x0042 (maintMine op)) = true :=
  by and_intros <;> decide +kernel

theorem witness_administration_commands_act :
    serves granted slotA [0x100#32, 0x701#32, 224#32] 0x0100 admGrantCauses = true ∧
    serves granted slotA [0x101#32, 0x101#32, 1#32] 0x0101 admRevokeCauses = true ∧
    (revokeVictims (markStarted ((commanded granted slotA [0x101#32, 0x101#32, 1#32]).upTo 1000) slotA) [0x101#32, 0x101#32, 1#32] = [] ∧
      isMask 1 = false) ∧
    serves granted slotA [0x101#32, 0x10101#32, 64#32] 0x0101 admRevokeCauses = true ∧
    revokeVictims (markStarted ((commanded granted slotA [0x101#32, 0x10101#32, 64#32]).upTo 1000) slotA) [0x101#32, 0x10101#32, 64#32] ≠ [] ∧
    (let s := { granted with ctxs := [(c0, { ctx1 with partition := some 0 })] }; let cmd := [0x101#32, 0x10501#32, 1#32];
      let u := (commanded s slotA cmd).upTo 1000; serves s slotA cmd 0x0101 admRevokeCauses &&
      !(revokeVictims (markStarted u slotA) cmd).isEmpty && isMask (argResource cmd)) = true ∧
    serves granted slotA [0x102#32, 1#32] 0x0102 tenantResetCauses = true ∧
    serves granted slotA [0x103#32, 0x0400000F#32, 1#32] 0x0103 partCfgCauses = true ∧
    serves paired slotA [0x104#32, 0x10006#32, 1#32, 7#32] 0x0104 exportCauses (shareMine 1) = true ∧
    serves paired slotA [0x104#32, 0x20006#32, 1#32] 0x0104 importCauses (shareMine 2) = true ∧
    (serves granted slotA [0x104#32, 0x30005#32] 0x0104 shareRevokeCauses (shareMine 3) = true ∧
      resumes granted slotA [0x104#32, 0x30005#32] 0x0104 (shareMine 3) = true) ∧
    serves granted slotA [0x200#32, 1#32, 2048#32] 0x0200 portShareCauses = true :=
  by and_intros <;> decide +kernel

theorem witness_device_commands_act :
    serves granted slotA [0x201#32, 1#32, 0#32, 0#32] 0x0201 govSetCauses = true ∧
    serves granted slotA [0x203#32, 71#32] 0x0203 (fun s _ cmd => let d := argDomain cmd; let pol := argF cmd 1 9 8;
      causesOf [(d > 71 || pol = 3, 0x04), (pol = 2 && forceOffRefused s d, 0x0F)]) = true ∧
    serves granted slotA [0x204#32, 5#32, 100000#32] 0x0204 (fun _ _ cmd =>
      causesOf [(argF cmd 1 2 0 > 5 || !(argN cmd 2 = 0 || natIn (argN cmd 2) 10 100000), 0x04)]) = true ∧
    (serves granted slotA [0x205#32, 0x1FFF#32 ||| 0x10000#32] 0x0205 toScratchCauses (convertMine 1) = true ∧
      resumes granted slotA [0x205#32, 0x10000#32] 0x0205 (convertMine 1) = true) ∧
    serves granted slotA [0x205#32, 2#32] 0x0205 toCacheCauses (convertMine 0) = true ∧
    (serves granted slotA [0x206#32, 0x13F#32, 1#32] 0x0206 (fun s _ cmd =>
      causesOf [((getCtx s (holderOf cmd)).isNone, 0x05)]) (clusterMine 1) = true ∧
      resumes granted slotA [0x206#32, 0x13F#32] 0x0206 (clusterMine 1) = true) ∧
    serves granted slotA [0x206#32, 0x3F#32] 0x0206 noCauses (clusterMine 0) = true ∧
    serves granted slotA [0x207#32, 0xFF01#32] 0x0207 (fun _ _ cmd => causesOf [(argF cmd 1 15 8 < 8, 0x04)]) = true ∧
    serves granted slotA [0x208#32] 0x0208 noCauses = true ∧
    serves granted slotA [0x209#32] 0x0209 noCauses = true :=
  by and_intros <;> decide +kernel

theorem witness_global_and_private_loads_enter_the_fabric :
    issues shading 0x50 (word 0x50 (vr 0) (sr 2) (im 0) no 4 0) (fun x => x.reaches 0 .load 4 (globals x)) = true ∧
    issues shading 0x50 (word 0x50 (vr 28) (sr 2) (im 127) no 0 0) (fun x => x.reaches 0 .load 1 (globals x)) = true ∧
    issues shading 0x52 (word 0x52 (sr 4) (sr 2) (im 16) no 6 0) (fun x =>
      x.reaches 0 .load 16 [(0, globalVa x.g x.iw 0)]) = true ∧
    issues shading 0x55 (word 0x55 (vr 0) (sr 0) (im 12) no 4 0) (fun x =>
      x.reaches 0 .load 4 ((lanesOf (runMask x.g x.iw x.active)).map fun l =>
      (l, privateVa x.g l (localOff x.g x.iw l))) && (privateBad x.g x.iw x.active).isNone) = true :=
  by and_intros <;> decide +kernel

theorem witness_stores_and_atomics_enter_the_fabric :
    issues shading 0x51 (word 0x51 no (sr 2) (im 0) (vr 1) 4 0) (fun x =>
      x.reaches 0 .store 4 ((effectLanes x.g x.iw x.active).map fun l => (l, globalVa x.g x.iw l))) = true ∧
    issues shading 0x56 (word 0x56 no (sr 0) (im 12) (vr 1) 4 0) (fun x =>
      x.reaches 0 .store 4 ((lanesOf (runMask x.g x.iw x.active)).map fun l =>
      (l, privateVa x.g l (localOff x.g x.iw l))) && (privateBad x.g x.iw x.active).isNone) = true ∧
    issues shading 0x57 (word 0x57 (vr 0) (sr 2) (vr 1) no 0 0) (fun x =>
      x.reaches 0 .atomic 4 ((effectLanes x.g x.iw x.active).map fun l => (l, atomVa x.g x.iw l)) &&
      atomReady x.s 0 x.g x.iw (atomActs x.s x.g.ctx x.iw ((effectLanes x.g x.iw x.active).map fun l =>
      (l, atomVa x.g x.iw l))) && (atomHostBad x.s x.g.ctx (atomOpOf 0) ((effectLanes x.g x.iw x.active).map fun l =>
      (l, atomVa x.g x.iw l))).isNone) = true ∧
    issues shading 0x57 (word 0x57 (vr 0) (sr 2) (vr 2) (vr 4) 2 7 (some 0xFF8#32)) (fun x =>
      x.reaches 0 .atomic 8 ((effectLanes x.g x.iw x.active).map fun l => (l, atomVa x.g x.iw l)) &&
      atomReady x.s 0 x.g x.iw (atomActs x.s x.g.ctx x.iw ((effectLanes x.g x.iw x.active).map fun l =>
      (l, atomVa x.g x.iw l))) && (atomHostBad x.s x.g.ctx (atomOpOf 2) ((effectLanes x.g x.iw x.active).map fun l =>
      (l, atomVa x.g x.iw l))).isNone) = true :=
  by and_intros <;> decide +kernel

theorem witness_local_accesses_act_on_the_workgroup_store :
    issues shading 0x53 (word 0x53 (vr 0) (sr 0) (im 0) no 4 0 (some 0xFFC#32)) (fun x => mayAccess x.s 0 x.g &&
      (getWg x.s x.g.wg).isSome && localOk x 4 0x1000 (localOff x.g x.iw)) = true ∧
    issues shading 0x54 (word 0x54 no (sr 0) (im 0) (vr 4) 6 0 (some 0xFF0#32)) (fun x => mayAccess x.s 0 x.g &&
      (getWg x.s x.g.wg).isSome && localOk x 16 0x1000 (localOff x.g x.iw)) = true ∧
    issues shading 0x58 (word 0x58 (vr 0) (sr 0) (vr 1) no 9 0 (some 0xFFC#32)) (fun x => mayAccess x.s 0 x.g &&
      (getWg x.s x.g.wg).isSome && localOk x 4 0x1000 (fun l => (x.a l + x.iw.imm).toNat) &&
      atomReady x.s 0 x.g x.iw (atomScope x.iw)) = true ∧
    issues (with0 fun g =>
      { g with preds := g.preds.set 0 0#32 }) 0x53 { word 0x53 (vr 0) (sr 0) (im 0) no 4 0 with base := (word 0x53 (vr 0) (sr 0) (im 0) no 4 0).base ||| 0x200#64 } (fun x =>
      (getWg x.s x.g.wg).isSome && (lanesOf (runMask x.g x.iw x.active)).isEmpty) = true :=
  by and_intros <;> decide +kernel

theorem witness_fences_barriers_and_load_returns_complete :
    issues (with0 fun g =>
      { g with preds := g.preds.set 0 0#32 }) 0x59 { word 0x59 no no no no 3 0 with base := (word 0x59 no no no no 3 0).base ||| 0x200#64 } (fun x =>
      runMask x.g x.iw x.active == 0#32) = true ∧
    issues shading 0x59 (word 0x59 no no no no 0 0) (fun x => runMask x.g x.iw x.active != 0#32) = true ∧
    issues shading 0x59 (word 0x59 no no no no 3 0) (fun x => runMask x.g x.iw x.active != 0#32 && fenceMet x.s 0 x.g 1 &&
      published (publish x.s 0 x.g x.pc (word 0x59 no no no no 3 0))) = true ∧
    (let s := with0 fun g =>
      { g with loads := [{ num := 4, kind := .load 4 false, reg := 0, lanes := [(0, 0x20000)], pc := 0x10000, base := 0#64, ext := 0#32 }] };
      (getGroup (s.upTo 1000) 0).any fun g => (g.loads.find? fun l => l.num = 4).isSome && !g.stopped &&
      g.replays.isEmpty && (loadAccesses (s.upTo 1000) 0 4).isEmpty) = true :=
  by and_intros <;> decide +kernel

theorem witness_sampler_instructions_read_their_texels :
    ([(0x60, word 0x60 (vr 0) (vr 4) (sr 8) (sr 16) 1 0), (0x62, word 0x62 (vr 0) (vr 4) (sr 8) (sr 16) 1 0), (0x61, word 0x61 (vr 0) (vr 0) (sr 8) no 1 0)].all fun e =>
      issues texturing e.1 e.2 (fun x =>
      let r := { sampleReq x.g x.iw e.2 x.pc x.active x.g.nextLoad with free := x.s.free }; !r.lanes.isEmpty &&
      mayAccess x.s 0 x.g && !texBad (texDesc r.tex) (reqDim r) &&
      (laneFault { x.s with free := x.s.free + freePerRequest } x.g.ctx .load 1 ((requestSpans r r.free).map fun e =>
      (0, e.1))).isNone)) = true ∧
    issues texturing 0x63 (word 0x63 (vr 0) (vr 0) (sr 8) no 1 0) (fun x =>
      let r := sampleReq x.g x.iw (word 0x63 (vr 0) (vr 0) (sr 8) no 1 0) x.pc x.active 0; !r.lanes.isEmpty &&
      !texBad (texDesc r.tex) (reqDim r)) = true ∧
    (let s := with0 fun g => { g with samples := [sample1] }; (getGroup (s.upTo 1000) 0).any fun g =>
      (g.samples.find? fun r => r.num = 1) == some sample1 && !g.stopped && g.replays.isEmpty &&
      s.traffic.accesses.isEmpty) = true :=
  by and_intros <;> decide +kernel

theorem witness_graphics_instructions_write_outputs :
    issues fragments 0x64 (word 0x64 (vr 0) (im 31) no no 2 0) (fun x => (fragOf x.s 0 x.g).isSome) = true ∧
    issues (with0 fun g => { g with kind := .vertex 0 }) 0x65 (word 0x65 (im 34) (vr 4) no no 0 0) (fun _ => true) = true ∧
    issues fragments 0x66 (word 0x66 (im 7) (vr 4) no no 0 0) (fun x => !(effectLanes x.g x.iw x.active).isEmpty) = true ∧
    issues (with0 fun g => { g with kind := .fragment 0 }) 0x67 (word 0x67 no no no no 0 0) (fun x =>
      !earlyOnly (shading.upTo 1000) 0 x.g) = true :=
  by and_intros <;> decide +kernel

theorem witness_branches_exits_and_marks_move_threads :
    issues shading 0x71 (word 0x71 no (sr 0) no no 0 0) (fun x => (lanesOf (runMask x.g x.iw x.active)).all fun l =>
      (x.g.progVa + (x.a l).toNat) % 4 == 0) = true ∧
    issues shading 0x73 (word 0x73 no no no no 0 0) (fun x =>
      let g := setSts (advance x.g x.iw x.pc x.active) (lanesOf (runMask x.g x.iw x.active)) .exited; groupExited g &&
      published (publish x.s 0 g x.pc (word 0x73 no no no no 0 0))) = true ∧
    issues (with0 fun g =>
      { g with preds := g.preds.set 0 1#32 }) 0x73 { word 0x73 no no no no 0 0 with base := (word 0x73 no no no no 0 0).base ||| 0x200#64 } (fun x =>
      !groupExited (setSts (advance x.g x.iw x.pc x.active) (lanesOf (runMask x.g x.iw x.active)) .exited)) = true :=
  by and_intros <;> decide +kernel

theorem witness_illegal_instructions_kill_the_context :
    (let u := shading.upTo 1000; groupReady u 0 group0 && groupPc group0 == some 0x10000) = true ∧
    (let w := word 0x19 no no no no 0 0; offers (coded 0 w shading) w .ready && offers (coded 4 w (with0 fun g =>
      { g with pcs := List.replicate 32 0x10004 })) w .ready) = true ∧
    shapeOf (iword (word 0x19 no no no no 0 0)) = none ∧
    (let w := word 0x03 (vr 0) (vr 1) (vr 2) no 0 0;
      (getGroup ((coded 0 (word 0x19 no no no no 0 0) shading).upTo 1000) 0).map (fun g =>
      fetched ((coded 0 (word 0x19 no no no no 0 0) shading).upTo 1000) g 0x10000 8 w)) = some false ∧
    (let w := word 0x03 (vr 0) (vr 1) (vr 2) no 0 0; offers (stored 0 w shading) w (.missing 0x10000)) = true ∧
    (let w := word 0x03 (vr 0) (vr 1) (vr 2) no 0 0;
      offers { stored 0 w shading with ctxs := [(c0, mapped [])] } w (.fault 0x0301 0x10000)) = true ∧
    (let w := word 0x03 (vr 0) (vr 1) (vr 2) no 1 0; offers (coded 0 w shading) w .ready &&
      illegalReason (iword w) .compute 0xFFFFFFFF#32 == some 2) = true ∧
    illegalReason (iword (word 0x03 (pr 0) (vr 1) (vr 2) no 0 0)) .compute 0xFFFFFFFF#32 = some 3 ∧
    illegalReason (iword (word 0x03 (sr 64) (sr 1) (sr 2) no 0 0)) .compute 0xFFFFFFFF#32 = some 4 ∧
    (let w := word 0x03 (vr 31) (vr 1) (vr 32) no 0 0; offers (coded 0 w shading) w .ready &&
      (illegalReason (iword w) .compute 0xFFFFFFFF#32).isNone && vregRange (iword w) 4) = true ∧
    vregRange (iword (word 0x03 (vr 31) (vr 1) (vr 31) no 0 0)) 4 = false :=
  by and_intros <;> decide +kernel

theorem witness_matrix_instructions_join_the_madder :
    issues shading 0x80 (word 0x80 (im 7) (sr 2) (im 64) no 0 5) (fun x => domOn x.s (24 + x.g.core) &&
      mayAccess x.s 0 x.g) = true ∧
    issues shading 0x85 (word 0x85 no no no no 0 0) (fun x =>
      published (publish x.s 0 x.g x.pc (word 0x85 no no no no 0 0))) = true :=
  by and_intros <;> decide +kernel

theorem witness_tags_and_completions_act :
    (let a := access0 .read (.host .a 1 0x5000) (.waitTag 900); let u := (flying a).upTo 1000; hostReady u .a 1 &&
      tagAllowed u .a 7 0 && !tagTaken u .a 7 && decide (tagsHeld u 1 < tagLimit u 1) && ordered u a &&
      !updateWaits u 5 a) = true ∧
    (let a := access0 (.atomic .add true [(8, 1#64, 0#64)]) (.host .a 1 0x5000) (.waitTag 900);
      let u := (flying a).upTo 1000; hostReady u .a 1 && tagAllowed u .a 7 0 && !tagTaken u .a 7 &&
      decide (tagsHeld u 1 < tagLimit u 1) && ordered u a && !updateWaits u 5 a) = true ∧
    (let s := flying (access0 .read (.host .a 1 0x5000) (.onLink 7 900)); let u := s.upTo 1000;
      ((tagAccess u .a 7).map Prod.fst) == some 5 && decide (u.stamp < 900 + timeoutOf u 1)) = true ∧
    (let s := flying (access0 .read (.host .a 1 0x5000) (.onLink 7 900)); let u := s.upTo (900 + timeoutOf s 1); timed u &&
      ((tagAccess u .a 7).map Prod.fst) == some 5 && decide (900 + timeoutOf u 1 ≤ u.stamp)) = true ∧
    tagAccess (flying (access0 .read (.host .a 1 0x5000) (.onLink 7 900))) .a 8 = none ∧
    (isOpen block = true ∧ (getPort block .a).linkUp = true) :=
  by and_intros <;> decide +kernel

theorem witness_madder_operations_commit_or_squash_in_order :
    (let u := (maddening (mop0 (.mma 0 0 1 true))).upTo 1000; domOn u 24 && stagingFree u (mop0 (.mma 0 0 1 true)) &&
      stagingClass (mop0 (.mma 0 0 1 true)).kind != 0 && (getOp u 3).isSome && (getGroup u 0).isSome) = true ∧
    (let o := mop0 (.mload 7 0x20000 64 { code := 0, int4 := false, sgn := true, mode := 0, rows := [] });
      let u := (maddening o).upTo 1000; stagingFree u o && (getGroup u 0).any fun g => g.drive.isSome) = true ∧
    (getOp ((maddening { mop0 (.mload 7 0x20000 64 { code := 0, int4 := false, sgn := true, mode := 0, rows := [] }) with handed := true, reading := true }).upTo 1000) 3).any (fun o =>
      o.reading) = true ∧
    (let o := { mop0 (.mzero 3) with handed := true }; let u := (maddening o).upTo 1000; oldestOp u 3 o &&
      (getGroup u 0).any fun g => (commitFault g o.kind).isNone) = true ∧
    (let o := { mop0 (.mzero 3) with handed := true, commit := false }; oldestOp ((maddening o).upTo 1000) 3 o) = true :=
  by and_intros <;> decide +kernel

theorem witness_doorbells_and_link_words_move_the_queue :
    (let u := queued.upTo 1000; barAnswers u 1 && doorbellQueue u 1 0 == some q0 && (getQueue u q0).any fun r =>
      r.st != .error) = true ∧
    (let s := withQ fun r => { r with chain := .linkRead 0x30400, torn := 8 }; let u := s.upTo 1000;
      (getQueue u q0).any (fun r => queueServed u q0 r && decide (r.torn < 9)) &&
      onItsWay (engineRead u (queueEngine u q0) .load 0x30400 16)) = true ∧
    (let s := withQ fun r => { r with chain := .linkRead 0x90000 };
      readFaults (engineRead (s.upTo 1000) (queueEngine (s.upTo 1000) q0) .load 0x90000 16)) = true ∧
    ([5 + 5 * 2 ^ 96, 5].all fun n => let s := withRead (withQ fun r =>
      { r with chain := .linkRead 0x30400 }) (.queue q0) 0x30400 (leBytes 16 n);
      (gotBytes (engineRead (s.upTo 1000) (queueEngine (s.upTo 1000) q0) .load 0x30400 16)).map leNat == some n) = true ∧
    (let s := withRead (withQ fun r => { r with chain := .linkRead 0x30400 }) (.queue q0) 0x30400 (leBytes 16 5) true;
      match engineRead (s.upTo 1000) (queueEngine (s.upTo 1000) q0) .load 0x30400 16 with | .ready bs => bs.any Prod.snd | _ => false) = true ∧
    (let s := withQ fun r => { r with chain := .atEnd 0x30400, st := .parked, parkPoll := 1 }; let u := s.upTo 1000;
      timed u && (getQueue u q0).any fun r => queueServed u q0 r &&
      decide (r.park + (r.polls + 1) * r.parkPoll * 1000 ≤ u.stamp)) = true ∧
    (let s := withQ fun r => { r with chain := .linkRead 0x30400, torn := 9 }; (getQueue (s.upTo 1000) q0).any fun r =>
      queueServed (s.upTo 1000) q0 r) = true ∧
    (let s := withQ fun r => { r with sub := some 1000 }; timed (s.upTo 1000) && (getQueue (s.upTo 1000) q0).any fun r =>
      !r.subMissed && decide (1000 ≤ (s.upTo 1000).stamp)) = true :=
  by and_intros <;> decide +kernel

theorem witness_common_packets_complete_with_their_effect :
    begins served (packet 0 []) 0 anyBytes anyTime (fun _ => true) = true ∧
    begins served (packet 5 [(8, 7)]) 5 anyBytes anyTime (fun _ => true) = true ∧
    ([(0, SignalKind.write), (1, .add), (2, .max), (3, .stamp)].all fun e =>
      begins served (packet 1 [(8, 0x20FF8), (16, 7), (24, e.1)]) 1 (fenceOp · == e.1) (visibleHold q0) (fun x =>
      vaAt x.bytes 8 == 0x20FF8 && atDevice (putSignal x.s q0 (signal0 e.2)) 0x20FF8 e.2.need)) = true ∧
    ([SignalKind.write, .stamp].all fun k =>
      signalled (onWord none (some (signal0 k)) (some (wordAt (.signal q0) (.write [(120, 7#8)] false) 0))) fun o a =>
      o.kind == k && a.kind.isWrite && !a.poison) = true ∧
    signalled (onWord none (some (signal0 .add)) (some (wordAt (.signal q0) (.atomic .add true [(120, 7#64, 0#64)]) 5))) (fun o _ =>
      o.kind == .add) = true ∧
    signalled (onWord none (some (signal0 .max)) (some (wordAt (.signal q0) (.atomic .cas true [(120, 5#64, 7#64)]) 5))) (fun o a =>
      o.kind == .max && (answeredWord a o.va).1 == 5#64) = true ∧
    ([SignalKind.add, .max].all fun k =>
      signalled (onWord none (some (signal0 k)) (some (wordAt (.signal q0) .read 5))) fun o a => o.kind == k &&
      (answeredWord a o.va).1 == 5#64) = true ∧
    (let u := (withRead served (.queue q0) 0x30000 (packet 0x7F [])).upTo 1000;
      match packetAt u q0 with | .packet va e h _ => (getQueue u q0).any fun r => queueServed u q0 r && r.wait.isNone && isBadPacket u r va e h | _ => false) = true :=
  by and_intros <;> decide +kernel

theorem witness_waits_and_semaphores_complete :
    begins served (packet 2 [(8, 0x20FF8), (36, 1000000)]) 2 anyBytes anyTime (fun x =>
      !waitBad (vaAt x.bytes 8) x.bytes) = true ∧
    begins served (packet 3 [(8, 0x20FF8)]) 3 anyBytes anyTime (fun x => !waitBad (fieldAt x.bytes 8 8) x.bytes &&
      decide (semsHeld x.s c0 < 16) && !noAtomic x.s c0 0x20FF8) = true ∧
    ([true, false].all fun sem => waits (onWord (some (wait0 sem)) none none) fun u r w =>
      (accessOf u (.wait q0)).isNone && atDevice u 0x20FF8 (if sem then .atomic else .load) && w.due &&
      (acquireRefused u q0 w).isNone && waitOccasion u r w (.device 0x20001FF8)) = true ∧
    waits (onWord (some (wait0 false)) none (some (wordAt (.wait q0) .read 0x100))) (fun u _ w =>
      (accessOf u (.wait q0)).any fun e => !(answeredWord e.2 w.addr).2 && condHolds w (answeredWord e.2 w.addr).1 &&
      inTime u w) = true ∧
    waits (onWord (some (wait0 true)) none (some (wordAt (.wait q0) .read 9))) (fun u _ w =>
      (accessOf u (.wait q0)).any fun e => !(answeredWord e.2 w.addr).2 && semFree (answeredWord e.2 w.addr).1 &&
      inTime u w) = true ∧
    waits (onWord (some { wait0 true with compare := 9#64 }) none (some (wordAt (.wait q0) (.atomic .cas true [(120, 9#64, 10#64)]) 9))) (fun u _ w =>
      (accessOf u (.wait q0)).any fun e => (answeredWord e.2 w.addr) == (w.compare, false) && e.2.kind != .read) = true ∧
    waits (onWord (some { wait0 false with start := 0 }) none none) (fun u _ w => timed u && !inTime u w) = true ∧
    begins served (packet 4 [(8, 0x20FF8), (16, 9)]) 4 anyBytes (visibleHold q0) (fun x =>
      !noAtomic x.s c0 (fieldAt x.bytes 8 8) && atDevice (putSignal x.s q0 (signal0 .release)) 0x20FF8 .atomic) = true ∧
    signalled (onWord none (some (signal0 .release)) (some (wordAt (.signal q0) .read (ownerCode c0 * 2 ^ 32)))) (fun o a =>
      a.kind == .read && semHolder (answeredWord a o.va).1 == ownerCode c0) = true ∧
    signalled (onWord none (some { signal0 .release with compare := 5#64 }) (some (wordAt (.signal q0) (.atomic .cas true [(120, 5#64, 6#64)]) 5))) (fun o a =>
      (answeredWord a o.va).1 == o.compare) = true :=
  by and_intros <;> decide +kernel

theorem witness_dispatch_packets_open_a_grid :
    begins served (packet 0x40 gridFields) 0x40 anyBytes anyTime (fun x =>
      let d := dispatchOf x.s q0 x.p x.bytes (gridOf x.bytes) none; !dispatchBad d && !gridBad d.grid &&
      !gridEmpty d.grid && !unfit d) = true ∧
    begins served (packet 0x60 (gridFields ++ [(64, 64)]) 2) 0x60 anyBytes anyTime (fun x =>
      let d := dispatchOf x.s q0 x.p x.bytes (gridOf x.bytes) (driveOf x.bytes); !dispatchBad d && !gridBad d.grid &&
      !gridEmpty d.grid && !unfit d && decide (fieldAt x.bytes 64 1 ≤ 64)) = true ∧
    ([0, 1].all fun n =>
      begins (withRead served (.queue q0) 0x30FF4 (leBytes 12 (n + 2 ^ 32 + 2 ^ 64))) (packet 0x41 (gridFields ++ [(56, 0x30FF4)])) 0x41 anyBytes (gridHold q0) (fun x =>
      (gotBytes (readGrid x.s q0 x.bytes)).any fun g =>
      let d := dispatchOf x.s q0 x.p x.bytes (fieldAt g 0 4, fieldAt g 4 4, fieldAt g 8 4) none; gridVa x.bytes % 4 ==
      0 && !dispatchBad d && !gridBad d.grid && gridEmpty d.grid == (n == 0) && !unfit d)) = true ∧
    begins (withRead served (.queue q0) 0x30FF4 (leBytes 12 (2 ^ 31 + 2 ^ 32 + 2 ^ 64))) (packet 0x61 (gridFields ++ [(56, 0x30FF4), (65, 1)]) 2) 0x61 anyBytes (gridHold q0) (fun x =>
      (gotBytes (readGrid x.s q0 x.bytes)).any fun g =>
      let d := dispatchOf x.s q0 x.p x.bytes (fieldAt g 0 4, fieldAt g 4 4, fieldAt g 8 4) (driveOf x.bytes);
      gridVa x.bytes % 4 == 0 && !dispatchBad d && !gridBad d.grid && !gridEmpty d.grid && !unfit d &&
      decide (fieldAt x.bytes 64 1 ≤ 64)) = true :=
  by and_intros <;> decide +kernel

theorem witness_placement_and_preemption_act :
    (let u := (dispatching 1000 dispatch0).upTo 1000; placeCore u 0 dispatch0 == some 0 &&
      !outranked u 0 (orderKey u q0 1000) && onItsWay (readArgs u q0 0 0x20000)) = true ∧
    (let u := (withRead (dispatching 1000 dispatch0) (.args q0 0) 0x20000 (leBytes 64 7)).upTo 1000;
      placeCore u 0 dispatch0 == some 0 && !outranked u 0 (orderKey u q0 1000) &&
      (gotBytes (readArgs u q0 0 0x20000)).isSome) = true ∧
    (let u := (dispatching 101001 dispatch0).upTo 101001; timed u && dispatchReady u dispatch0 &&
      topDispatch u 0 dispatch0 && heldMoreThan 1000 u.stamp 100000 && ((eligibleCores u 0 dispatch0).find? fun c =>
      fitsLess u c dispatch0.need fun _ => true) == some 0) = true ∧
    (let u := crowded.upTo 1000;
      match waitingDispatch u q0 with | some (d, x) => (corePreempt u d x).isSome | none => false) = true ∧
    (let s : State := { crowded with cores := {}, xfer := { active := [(1, { xfer0 with queue := q1 })], waiting := [xfer0] } };
      let u := s.upTo 1000; (getQueue u q1).any (fun r => r.preempting.isNone) && placeable u q0 &&
      wantsChannel u q0 q1) = true ∧
    (timed (block.upTo 1000000) = true ∧ (block.upTo 1000000).stamp = 1000000) :=
  by and_intros <;> decide +kernel

theorem witness_stops_saves_and_restores_complete :
    (let s := with0 fun g => { g with stopping := true }; let u := s.upTo 1000; (getGroup u 0).any fun g => g.stopping &&
      !g.stopped && stopMet u 0 g) = true ∧
    (let s := withQ fun r => { r with stops := [.preempt], preempting := some 0 }; let u := s.upTo 1000;
      (getQueue u q0).any fun r => r.stops.contains .preempt && stopComplete u q0 r && placeable u q0) = true ∧
    (let x : SavedWg := { wg := { dispatch := none, queue := q0, core := 0, lsBytes := 0, groups := 1 }, groups := [group0], since := 900 };
      let s : State := { queued with cores := { saved := [(0, x)] } }; let u := s.upTo 1000; restorable u x 0 &&
      !outranked u 0 (orderKey u q0 900)) = true ∧
    ([true, false].all fun swept =>
      let f : Forfeit := { parts := [.ctxReset c0], ctxs := [c0], tenants := [], stamp := 1000, swept := swept };
      let s : State := { queued with forfeits := [f] }; let u := s.upTo 1000; !forfeitWritesLeft (dropHeld u f) f &&
      u.lock.mode != .halted) = true ∧
    (let f : Forfeit := { parts := [.ctxReset c0], ctxs := [c0], tenants := [], stamp := 1000 };
      let s : State := { flying { access0 (.write [(0, 1#8)] false) (.device 0x20001000) (.admitted 900) with client := .groupStore 0, dropped := true } with forfeits := [f] };
      let u := s.upTo 1000; forfeitWritesLeft (dropHeld u f) f) = true :=
  by and_intros <;> decide +kernel

theorem witness_memory_interfaces_serve :
    (let u := (flying (access0 .read (.device 0x20001000) (.filling 900))).upTo 1000; (getAccess u 5).isSome &&
      !lineWrites u 0x20001000) = true ∧
    usableBytes (block.upTo 1000) = 2 ^ 34 ∧
    (let s : State := { block with lpddr := { block.lpddr with ecc := true } };
      decide (0 < poolBytes (s.upTo 1000) / 2 ^ 20) && (s.upTo 1000).lpddr.ecc && (s.upTo 1000).lpddr.inService) = true ∧
    (let s : State := { block with traffic := { writeBacks := [(0, { pa := 2 ^ 34 - 32, data := 0#256, mask := 1#32, poison := false }), (1, { pa := 2 ^ 34, data := 0#256, mask := 1#32, poison := false })] } };
      (writeBackDue (s.upTo 1000) 0).any (fun w => decide (w.pa < usableBytes (s.upTo 1000))) &&
      (writeBackDue (s.upTo 1000) 1).any (fun w => decide (usableBytes (s.upTo 1000) ≤ w.pa))) = true ∧
    (let u := (blockAt 0).upTo 100000000; isOpen u && timed u && u.lpddr.inService && decide (15 < channels u) &&
      u.stamp == 100000000) = true ∧
    (let u := block.upTo 1000000; mordantServes u && timed u && u.stamp == 1000000) = true :=
  by and_intros <;> decide +kernel

theorem witness_slices_perform_accesses :
    ([AccKind.read, .atomic .add false [(0, 1#64, 0#64)]].all fun k => let u := (homeward k true).upTo 1000;
      (atHome u 5).any fun a => hits u (usedSectors a 0x20001000)) = true ∧
    (let u := (homeward .read false).upTo 1000; (atHome u 5).isSome &&
      (checkedLine u 0 0x20001000 [0] [] .good).2.isNone) = true ∧
    (let u := (homeward (.write [(3, 7#8)] false) true).upTo 1000; (atHome u 5).isSome &&
      hits u (partialSectors 0x20001000 [(3, 7#8)])) = true ∧
    ([AccKind.read, .write [(3, 7#8)] false, .atomic .add false [(0, 1#64, 0#64)]].all fun k =>
      (atHome ((flying (access0 k (.scratch 0x1000) (.admitted 900))).upTo 1000) 5).isSome) = true ∧
    ([AccKind.read, .write [(3, 7#8)] false, .atomic .add false [(0, 1#64, 0#64)]].all fun k =>
      [[], [0, 1, 2, 3]].all fun fills =>
      let u := (flying { access0 k (.device 0x20001000) (.filled 900) with fills := fills }).upTo 1000;
      (getAccess u 5).any fun a =>
      fillServes (installFill (chargeUngated u a.part a.fills.length) a 0x20001000 0 a.fills) a 0x20001000 ==
      !fills.isEmpty) = true ∧
    (let s : State := { block with vat := { convMask := 0x8000#16 } }; let u := s.upTo 1000; isOpen u && timed u &&
      sliceOn u 47 && u.vat.convMask.getLsbD 15 && !(patrolDone u).contains (47, 1023, 15)) = true ∧
    (let s : State := { block with vat := { lines := [line0 0x20001000] } }; let u := s.upTo 1000; timed u &&
      sliceOn u (sliceOf 0x20001000) && (let p := (sliceOf 0x20001000, Machine.setOf 0x20001000, 0);
      !(patrolDone u).contains p && (u.vat.lines.find? fun l => l.slice == p.1 && l.set == p.2.1 && l.way ==
      0).any fun ln => (checkTags (patrolRead u p) ln .corrected).2.isSome)) = true :=
  by and_intros <;> decide +kernel

theorem witness_fabric_commands_act :
    (let s := flying { access0 .read (.device 0x20001000) .atNi with part := some 0 }; let u := s.upTo 1000;
      (nextQueued u 0 0).map Prod.fst == some 5 && inPartWindow u 0) = true ∧
    (timed (block.upTo 1000) = true ∧ inPartWindow (block.upTo 1000) 15 = true) ∧
    (let s : State := { block with fabric := { block.fabric with parts := (List.replicate 16 {}).set 15 { cfg := { en := true } } } };
      let u := s.upTo 100000; timed u && (nextBoundary (getPart u.fabric 15)).any fun b => decide (b ≤ u.stamp)) = true ∧
    (let u := (flying (access0 .read (.device 0x20001000) (.admitted 900))).upTo 1000; (inFlight u 5).any fun e =>
      (e.2.path.find? (fun e => e.1 == niRouter 0)).isSome) = true ∧
    (let s : State := { block with traffic := { writeBacks := [(5, { pa := 0x20001000, data := 0#256, mask := 1#32, poison := false })] } };
      (inFlight (s.upTo 1000) 5).any fun e => !e.2.path.isEmpty) = true ∧
    ([Stage.lost 900, .admitted 900].all fun st =>
      let s := flying { access0 .read (.device 0x20001000) st with stamp := 900 }; let u := s.upTo 100900; timed u &&
      (getAccess u 5).any fun a => awaitsFabric a && !a.dropped &&
      decide (a.stamp + fabricLimit u a.home ≤ u.stamp)) = true ∧
    (mordantServes (block.upTo 1000) = true ∧ timed (block.upTo 1000) = true ∧ (block.upTo 1000).fabric.patrolled ≠ some 0) ∧
    (let s : State := { block with fabric := { block.fabric with parityWin := 17 } }; let v := settleParity (s.upTo 1000);
      decide (16 < v.fabric.parityWin) && mayEnter v 0x0413) = true ∧
    (let a := access0 (.write [(0, 1#8)] false) (.device 0x20001000) .answered; (getAccess ((flying a).upTo 1000) 5) ==
      some a && a.kind.isWrite && !a.client.keepsWrite) = true :=
  by and_intros <;> decide +kernel

theorem witness_graphics_packets_act :
    begins (withRead served (.geometry q0) 0x20000 (leBytes 32 0)) (packet 0x10 [(8, 0x20000), (16, 0x20800), (24, 16384), (26, 1), (29, 64), (32, 0x20F00), (40, 1)]) 0x10 anyBytes (gfxHold q0 (beginHold q0)) (fun x =>
      !frameBad (frameOf x.bytes) && (getFrame x.s q0).isNone && (tileEdge (frameOf x.bytes)).isSome) = true ∧
    begins (framed { frame0 with drawn := false }) (packet 0x14 [(8, 0), (9, 0x07), (12, 256), (16, 0x20000)]) 0x14 anyBytes (gfxHold q0 anyTime) (fun x =>
      (attachOf x.bytes).load != 3 && (getFrame x.s q0).any fun f => !f.drawn &&
      !attachBad x.s q0 f 0 (attachOf x.bytes)) = true ∧
    begins (withRead (framed frame0) (.geometry q0) 0x20000 (leBytes 256 0)) (packet 0x11 drawFields) 0x11 anyBytes (gfxHold q0 fun s bs =>
      if drawBad bs || (getFrame s q0).isNone then none else drawHold s q0 bs (drawArgs bs)) (fun x =>
      !drawBad x.bytes && (getFrame x.s q0).any (fun f => f.drawn) &&
      (gotBytes (readState x.s q0 x.bytes)).any stateOk && gotBytes (readIndices x.s q0 x.bytes (drawArgs x.bytes)) ==
      some []) = true ∧
    begins (withRead (withRead (withRead (framed frame0) (.geometry q0) 0x20000 (leBytes 256 0)) (.geometry q0) 0x30F00 (leBytes 20 (3 + 2 ^ 32))) (.geometry q0) 0x20800 (leBytes 6 0)) (packet 0x12 [(8, 0x10000), (16, 0x20000), (24, 0x20800), (30, 1), (32, 0x30F00), (52, 3), (53, 4), (56, 0x20000)]) 0x12 anyBytes (gfxHold q0 (indirectHold q0)) (fun x =>
      !drawIndirectBad x.bytes && (getFrame x.s q0).any (fun f => f.drawn) && (
      match readCommand x.s q0 x.bytes with | .ready cmd => (cleanBytes cmd).isSome && (gotBytes (readState x.s q0 x.bytes)).any stateOk && (gotBytes (readIndices x.s q0 x.bytes (commandArgs x.bytes cmd))).isSome | _ => false)) = true ∧
    begins (framed frame0) (packet 0x13 []) 0x13 anyBytes (gfxHold q0 anyTime) (fun x => (getFrame x.s q0).any fun f =>
      f.drawn || attachMatch f) = true :=
  by and_intros <;> decide +kernel

theorem witness_binner_commands_act :
    (bound (binning id id) fun v f => (launchingDraw f).any fun d => mayLaunchBatch v q0 d && !hasSaved v c0 &&
      (vertexCore v q0 (graphicsNeed q0 d.vregs)).any fun core => onItsWay (readArgs v q0 core d.argVa)) = true ∧
    (bound (withRead (binning id id) (.args q0 0) 0x20000 (leBytes 64 7)) fun v f => (launchingDraw f).any fun d =>
      (vertexCore v q0 (graphicsNeed q0 d.vregs)) == some 0 && (gotBytes (readArgs v q0 0 d.argVa)).isSome) = true ∧
    (bound (binning (fun f =>
      { f with draws := f.draws.map fun d => { d with launched := 1, slots := [0] } }) id) fun v f => !f.flushing &&
      f.stall.isNone && (batchDone v f).any fun e => (let d := e.1;
      let r := binBatch f d (d.batchAt d.binned).2 ((d.firstInstance + (d.batchAt d.binned).1) % 2 ^ 32) e.2.2.outs;
      decide (r.1.ordinal < 4096) &&
      match takePages v q0 d.pkt (r.1.ordinal + 1) 4096 with | .ready _ => true | _ => false)) = true ∧
    ([(900, false), (0, true)].all fun e => bound (withRead (binning (fun f =>
      { f with stall := some (e.1, 1000), resumed := e.2 }) id) (.geometry q0) 0x2000C (leBytes 4 1)) fun v f =>
      match freeCount v q0 f with | .count w n => n == 1 && (f.resumed || decide ((geomUsed w q0).stamp < e.1 + 1000)) | _ => false) = true ∧
    (let s := binning (fun f => { f with stall := some (0, 1000) }) id; let u := s.upTo 1000; timed u &&
      decide (1000 ≤ u.stamp) && (getFrame u q0).any fun f => !f.resumed) = true ∧
    (let s := binning (fun f => { f with flushing := true }) id; let u := s.upTo 1000; noTiles u q0 &&
      (getFrame u q0).any fun f => f.todo.isEmpty) = true ∧
    (let s := binning (fun f => { f with draws := [] }) id; let u := s.upTo 1000; (getFrame u q0).any fun f =>
      atBatchBoundary f && !f.flushing && yieldDue u q0 f) = true :=
  by and_intros <;> decide +kernel

theorem witness_tile_commands_act :
    (let s := framed { frame0 with endPkt := some 0 }; let u := s.upTo 1000; mayTile u q0 && tileAllowed u 23 c0 &&
      domOn u (65 + 23 / 4) && domOn u 23 && (getTile u 23).isNone && decide (localUsed u 23 (fun _ =>
      false) ≤ 0x20000) && ((getFrame u q0).bind popTile).isSome) = true ∧
    (let p := fun (s : State) (ready : Bool) => (let u := tileAdvance (s.upTo 1000) 2; (getTile u 2).any fun tl =>
      (getFrame u tl.queue).any fun f => tl.quads.head?.any fun e => (drawAt f e.1).any fun d => placeable u q0 &&
      domOn u 2 && fits u 2 (graphicsNeed q0 (fieldAt d.state 0x90 1)) &&
      (let r := readArgs u q0 2 (fieldAt d.state 0x88 6); if ready then (gotBytes r).isSome else onItsWay r));
      p quadded false && p (withRead quadded (.args q0 2) 0x20000 (leBytes 64 7)) true) = true ∧
    (let s : State := { framed frame0 with gfx := { frames := [(q0, frame0)], tiles := [(2, { queue := q0, tile := 0, part := false, phase := .flush })] } };
      let u := tileAdvance (s.upTo 1000) 2; (getTile u 2).any fun tl => (getFrame u tl.queue).isSome && !tl.listDone &&
      tl.phase == .flush && (tileAccesses u 2).isEmpty) = true ∧
    (let s := framed { frame0 with endPkt := some 0, rendering := true }; let u := s.upTo 1000; noTiles u q0 &&
      (getFrame u q0).any fun f => f.rendering && !f.flushing && f.todo.isEmpty && !f.closing) = true ∧
    (let s := framed { frame0 with endPkt := some 0, rendering := true, closing := true }; let u := s.upTo 1000;
      noTiles u q0 && (geomPending u q0).isEmpty && (getFrame u q0).any fun f => f.rendering && !f.flushing &&
      f.todo.isEmpty && f.closing) = true :=
  by and_intros <;> decide +kernel

theorem witness_transfers_act :
    ([(0x80, [(8, 0x20000), (16, 0x20800), (24, 64)]), (0x81, [(8, 0x20000), (16, 0x20800), (24, 64), (32, 1), (36, 64), (40, 64)]), (0x82, [(8, 0x20000), (16, 0x20000), (24, 64)])].all fun e =>
      begins { served with fns := [(0, fnUp), (1, { fnUp with grant := { chans := 1#64 } })] } (packet e.1 e.2) e.1 anyBytes anyTime (fun x =>
      let o := xferOf x.s q0 x.p x.bytes; !xferBad o && (xferRefused x.s o).isNone)) = true ∧
    (isOpen (block.upTo 1000) = true ∧ timed (block.upTo 1000) = true) ∧
    (let a := { access0 .read (.device 0x20001000) .answered with client := .xferRead q0 1 0 };
      let s : State := { flying a with xfer := { active := [(1, { xfer0 with issued := 64 })] } }; let u := s.upTo 1000;
      (getAccess u 5).isSome && (tblGet u.xfer.active 1).isSome && u.lock.mode != .halted && servedChannel u 0 ==
      some 1) = true ∧
    (let s : State := { queued with xfer := { active := [(1, { xfer0 with written := 64, issued := 64 })] } };
      let u := s.upTo 1000; (tblGet u.xfer.active 1).any fun o => !writesAtNi u 1 && decide (o.total ≤ o.written)) = true :=
  by and_intros <;> decide +kernel

theorem witness_error_queue_commands_act :
    (let s : State := { block with err := { detected := [{ code := 0x0110, scope := 0 }] } };
      (s.upTo 1000).lock.mode != .halted && !(s.upTo 1000).err.detected.isEmpty) = true ∧
    (barAnswers (recorded.upTo 1000) 1 = true ∧ ((windowOf (recorded.upTo 1000) 1).any fun r => r.seq == 4) = true ∧
      sameStep (recorded.upTo 1000) (recorded.upTo 1000).err.turnedAt = false) ∧
    ([some 3, some 9, none].all fun (n : Option Nat) =>
      let e : Nat × Option Nat × ErrRec := (1, n, { code := 0x0110, scope := 0 });
      let s : State := { recorded with err := { recorded.err with turned := [e] } };
      decide ((windowOf s 1).length < windowCap 1) && (e.2.1.filter fun q => s.err.stored.any fun r => r.seq == q) ==
      (if n == some 3 then some 3 else none)) = true ∧
    (let u := recorded.upTo 1000; (viewed { u with err := { u.err with sel := tblSet u.err.sel 1 2 } } 1).isSome &&
      (viewed { u with err := { u.err with sel := tblSet u.err.sel 1 1023 } } 1).isNone) = true :=
  by and_intros <;> decide +kernel

theorem witness_lockstep_events_act :
    (let u := (locked 0 {}).upTo 1000; pairRuns u && timed u && !u.lock.replaying && selfTestDue u) = true ∧
    (let u := (locked 0 { selfPending := some 0 }).upTo 19999; u.lock.selfPending == some 0 &&
      decide (u.stamp < 20000)) = true ∧
    (let u := (locked 0 { selfPending := some 0 }).upTo 20000; timed u && decide (20000 ≤ u.stamp)) = true ∧
    (let u := (locked 0 {}).upTo 1000; pairRuns u && !u.lock.sinceReplay && tokenGood (tokenOf 5#64) &&
      tokenGood (tokenOf 6#64) && tokenOf 5#64 != tokenOf 6#64 && !tokenGood (tokenOf 5#64 ^^^ 1#72)) = true ∧
    (let u := (locked 0 { sinceReplay := true, replaying := true, log := [5#72, 6#72] }).upTo 1000; pairRuns u &&
      u.lock.sinceReplay && u.lock.replaying && u.lock.log[1]? == some 6#72) = true ∧
    (let u := (locked 0 {}).upTo 1000; !u.lock.replaying && u.lock.mode != .halted) = true ∧
    (let u := (locked 0 { entry := some { stamp := 0, cause := 0x000C } }).upTo 1000; u.lock.entry.isSome &&
      u.forfeits.isEmpty && !inWarm u) = true ∧
    (let u := (locked 0 { mode := .aAlone }).upTo 1100001; u.lock.mode == .aAlone && timed u &&
      heldMoreThan (missedBeat u) u.stamp 1000000) = true ∧
    (let u := (locked 0 { mode := .aAlone }).upTo 100000; u.lock.mode == .aAlone && timed u && u.stamp == 100000) = true :=
  by and_intros <;> decide +kernel

theorem witness_i3c_transfers_act :
    (i3cAnswers (addressed.upTo 1000) = true ∧ addressed.i3c.request = some 1#8) ∧
    ({ addressed with i3c := { addressed.i3c with dynAddr := none } } : State).i3c.serving = true :=
  by and_intros <;> decide +kernel

theorem witness_tap_commands_act :
    (State.reset.life.pins.resetN = false ∧ block.life.pins.resetN = true) ∧
    (State.reset.fuses.jtagLock = false ∧ State.reset.fuses.blowing = none) ∧
    ({ block with jtag := { block.jtag with trace := [{ kind := 0, lost := false, source := 0, stamp := 0, payload := 0#64 }] } } : State).jtag.trace ≠ [] ∧
    ({ State.reset with fuses := { State.reset.fuses with jtagLock := true } } : State).fuses.jtagLock = true ∧
    ({ State.reset with fuses := { State.reset.fuses with blowing := some (true, false) } } : State).fuses.blowing = some (true, false) :=
  by and_intros <;> decide +kernel

theorem witness_compose_commands_act :
    serves composing slotA [0x300#32, 0x10100#32, 1#32, 0x20000#32, 0x10000#32, 0x20800#32, 0x10000#32] 0x0300 (composeCauses false) = true ∧
    serves composing slotA [0x301#32, 0x10400#32, 1#32, 0x20FF8#32, 0x10000#32] 0x0301 (composeCauses true) = true ∧
    serves composing slotA [0x302#32, 0x10100#32, 1#32, 0x20000#32, 0x10000#32, 0x20800#32, 0x10000#32] 0x0302 (composeCauses false) = true ∧
    ([0x0300#32, 0x0301#32, 0x0302#32].all fun code => rendering code id none (fun u cmd x => (badWrite u).isNone &&
      !composeWhole cmd x && domOn u 0 && domOn u 65) && rendering code (fun x =>
      { x with written := 1 }) none (fun u cmd x => (badWrite u).isNone && composeWhole cmd x) &&
      rendering code (fun x => { x with stopped := true }) none (fun _ _ x => x.stopped) &&
      rendering code id (some 0x0411) (fun u _ _ => (badWrite u) == some (0x0411, 0x20F82))) = true :=
  by and_intros <;> decide +kernel

theorem witness_write_back_changes_its_own_sector_alone :
    (let w : WriteBack := { pa := 0x20001000, data := 1#256, mask := 1#32, poison := false };
      let s : State := { block with traffic := { writeBacks := [(4, w)] }, lpddr := { block.lpddr with cells := [(0x20001020, 7#8)] } };
      let u := s.upTo 1000; Memory.wf u.lpddr.cells && writeBackDue u 4 == some w && decide (w.pa < usableBytes u) &&
      w.pa % 32 == 0) = true :=
  by decide +kernel

theorem witness_ignored_ack_changes_nothing :
    (let s : State := { block with slots := [(slotA, { st := .refused, seq := 9#32 })] };
      (getSlot (s.upTo 1000) slotA).seq != 8#32 && (getSlot (s.upTo 1000) slotT).st == .idle) = true :=
  by decide +kernel

theorem witness_refused_go_keeps_the_slot_and_holds_the_lowest_cause :
    (let s : State := { block with slots := [(slotT, { st := .done, seq := 9#32 })] }; let u := s.upTo 1000;
      barAnswers u 1 && decide (3 < slotCount 1) && isTenant u 1) = true ∧
    (goCauseApplies { st := .done } true 0#32 0x81 ∧ goCauseApplies { st := .busy } false 1#32 0x80) :=
  ⟨by decide +kernel, ⟨.inr (.inl ⟨rfl, .inl rfl⟩), .inl ⟨rfl, rfl⟩⟩⟩

theorem witness_err_ack_consumes_up_to_the_record :
    windowOf (recorded.upTo 1000) 1 = [stored0 3] ++ stored0 4 :: [stored0 5] ∧
    (barAnswers (recorded.upTo 1000) 1 = true ∧ ∀ r ∈ windowOf (recorded.upTo 1000) 1, r.seq ≠ (6#32 : Word).toNat) :=
  by and_intros <;> decide +kernel

theorem witness_register_instructions_frame :
    issues shading 0x03 (word 0x03 (vr 0) (vr 1) (vr 2) no 0 0) (fun x => (getGroup x.s 0).isSome) = true ∧
    issues shading 0x16 (word 0x16 (pr 7) (vr 1) (vr 2) no 0xD 0) (fun x => (getGroup x.s 0).isSome) = true :=
  by and_intros <;> decide +kernel

theorem witness_every_step_keeps_the_memory_form :
    (Memory.wf State.reset.lpddr.cells = true ∧ Memory.wf [(0, 1#8), (7, 2#8)] = true) :=
  by decide +kernel

theorem witness_blown_fuses_stay_blown :
    (
      match step { State.reset with fuses := { State.reset.fuses with inlineEcc := true }, pending := [.fuseRead true] } with | .next v => v.fuses.inlineEcc | _ => false) = true ∧
    (
      match step { State.reset with fuses := { State.reset.fuses with jtagLock := true }, pending := [.resetNAssert] } with | .next v => v.fuses.jtagLock | _ => false) = true :=
  by and_intros <;> decide +kernel

theorem witness_commands_leave_the_queue_and_memory_alone :
    (
      match exec .thermtrip { block with pending := [.thermtrip], lpddr := { block.lpddr with cells := [(3, 4#8)] } } with | .next v => v.pending == [.thermtrip] && v.lpddr.cells == [(3, 4#8)] | _ => false) = true :=
  by decide +kernel

theorem witness_every_command_but_two_completes :
    ((∀ x ecc t, Instr.thermtrip ≠ .lpddrRead x ecc t) ∧ (∀ k ecc vat t, Instr.thermtrip ≠ .lpddrWriteBack k ecc vat t)) :=
  ⟨nofun, nofun⟩

theorem witness_register_reads_show_slots_and_error_window :
    (3 < slotCount 1 ∧ 7 < slotCount 0 ∧ slotCount 1 = 4 ∧ windowOf block 1 = []) ∧
    windowOf recorded 1 = stored0 3 :: [stored0 4, stored0 5] :=
  by and_intros <;> decide +kernel

theorem witness_logic_and_add_instructions_write_their_result :
    issuesAll shading integerWords = true :=
  by decide +kernel

theorem witness_wide_and_bit_instructions_write_their_result :
    issuesAll shading integerWords = true :=
  witness_logic_and_add_instructions_write_their_result

theorem witness_float_arithmetic_rounds_the_exact_result :
    issuesAll shading floatWords = true :=
  by decide +kernel

theorem witness_special_functions_write_a_bounded_result :
    issuesAll shading floatWords = true :=
  witness_float_arithmetic_rounds_the_exact_result

theorem witness_half_pairs_compute_each_half :
    issuesAll shading floatWords = true :=
  witness_float_arithmetic_rounds_the_exact_result

theorem witness_conversions_write_the_code_and_count_events :
    issuesAll shading floatWords = true :=
  witness_float_arithmetic_rounds_the_exact_result

theorem witness_lane_and_predicate_instructions_write_their_result :
    issuesAll shading integerWords = true ∧
    issuesAll shading laneWords = true :=
  ⟨witness_logic_and_add_instructions_write_their_result, by decide +kernel⟩

/-! Ill-formed operands: each check of WellFormed refuses a term -/

theorem test_wf_refuses_a_tenant : (Instr.flrInitiate 128 0).wf = false := by decide
theorem test_wf_refuses_a_slot : (Instr.nop { fn := 1, slot := 4 } 0).wf = false ∧ (Instr.nop { fn := 0, slot := 7 } 0).wf = true := by decide
theorem test_wf_refuses_a_queue : (Instr.tailPoll { ctx := { tenant := 1, idx := 64 }, q := 0 } 0).wf = false ∧
    (Instr.tailPoll { ctx := { tenant := 1, idx := 63 }, q := 8 } 0).wf = false := by decide
theorem test_wf_refuses_a_resident_slot : (Instr.mov 1152 { base := 0#64, ext := 0#32 } 0).wf = false := by decide
theorem test_wf_refuses_a_domain : (Instr.domainWake 72 0).wf = false := by decide
theorem test_wf_refuses_a_core : (Instr.fragmentGroupLaunch 24 0).wf = false := by decide
theorem test_wf_refuses_a_memory_channel : (Instr.lpddrRefresh 16 false 0).wf = false := by decide
theorem test_wf_refuses_a_transfer_channel : (Instr.channelAcquire 64 0).wf = false := by decide
theorem test_wf_refuses_a_slice_set_and_way : (Instr.patrolScrub 48 0 0 [] .good 0).wf = false ∧
    (Instr.patrolScrub 0 1024 0 [] .good 0).wf = false ∧ (Instr.patrolScrub 0 0 16 [] .good 0).wf = false := by decide
theorem test_wf_refuses_a_way : (Instr.vatLoad 0 16 [] .good 0).wf = false := by decide
theorem test_wf_refuses_a_partition : (Instr.windowBoundary 16 0).wf = false := by decide
theorem test_wf_refuses_an_ni : (Instr.heldReattempt 94 0 0).wf = false := by decide
theorem test_wf_refuses_a_router : (Instr.routerFlitArrive 0 48 0 .good 0 [] 0).wf = false := by decide
theorem test_wf_refuses_a_tag : (Instr.tagGrant 0 1024 0).wf = false := by decide
theorem test_wf_refuses_a_doorbell : (Instr.dbRing 1 256 0).wf = false := by decide
theorem test_wf_refuses_counts : (Instr.governorSample [1, 2] [] true 0).wf = false := by decide
theorem test_wf_refuses_readings : (Instr.sensorRefresh [some 1] 0).wf = false := by decide
theorem test_wf_refuses_an_address : (Instr.setdasa 128).wf = false := by decide
theorem test_wf_refuses_a_bar : (Instr.unsupportedRequest 1 1 0 4 false 0).wf = false := by decide

/-! Worked cases of the spec. The expected values are the spec's -/

/-- The state after a command. -/
def after (c : Instr) (s : State) : State := match exec c s with
  | .next v => v
  | _ => s

/-- The case under R82: 8,000 and 20 W against a pace of 7,500 and 12 W from 700 mV give 710 mV and its integrators. -/
theorem test_governor_period : (let p : GovParams := { mode := 1, tpTarget := 0x1F400000#32, powerCap := 0x00140000#32 }
    let g := govPeriod p 0x02BC0000 0x02BC0000 0x02BC0000 0x1D4C0000 0x000C0000
    (g.vPrev, g.iPc, g.iTp, g.tpSel)) = (0x02C60000, 0x02C60000, 0x02BFE800, true) := by decide +kernel

/-- The case of Table 02-3: code 0xA4 by Register Write to address 0x1A. -/
theorem test_spmi_code : (let p : GovParams := { voutOffset := 0x012C0000#32, voutStep := 2500, pmicBytes := 1, pmicAddr := 0x1A }
    (pmicCode p 0x02C60000, spmiFrameOf p 0xA4)) =
    (0xA4, { sid := 0, cmd := .registerWrite, addr := 0x1A, data := [0xA4#8] }) := by decide +kernel

/-- The case under R107: an idle time of 1 ms from 5,000,003 ns is over at 6,010,000 ns, not before. -/
theorem test_idle_off : heldMoreThan 5000003 6010000 1000000 = true ∧ heldMoreThan 5000003 6000000 1000000 = false := by
  decide

/-- The case of R188 to R198: a slot of SEQ 5 accepts GO 6 and is BUSY; once STALE, a second GO 6 is refused with 0x83. -/
theorem test_mailbox_go : (let k : SlotId := { fn := 1, slot := 2 }
    let at_ := fun st => ({ block with slots := [(k, { st := st, seq := 5#32 + (if st = .idle then 0#32 else 1#32) })] } : State)
    let v := after (.mbxGo k 6#32 1000) (at_ .idle)
    let w := after (.mbxGo k 6#32 1000) (at_ .stale)
    (readBar0 v 1 0x10B8, readBar0 v 1 0x10A0, readBar0 w 1 0x10B8)) = (1#32, 0xFFFFFFFF#32, 0x83010004#32) := by
  decide +kernel

/-- The case under R169: with T = 90 us a completion at 1,089,999 ns is in time and one at 1,090,000 ns is late. -/
theorem test_completion_timeout : (let s : State := { block with fns := [(1, { fnUp with cto := 1 })] }
    timeoutOf s 1) = 90000 := by decide +kernel

/-- The case under R247: TIMEOUT 500 from 40,000,000 ns. -/
theorem test_wait_in_time : (let w : WaitRec := { pkt := 0, sem := false, addr := 0, ref := 0#64, mask := 0#64, cond := 0
                                                  timeout := 500, start := 40000000 }
    (inTime (blockAt 40499800) w, inTime (blockAt 40500000) w)) = (true, false) := by decide +kernel

/-- The case of the link word: generation 8, VA 0x400000, 3 units; the next link word is at 0x4000C0. -/
theorem test_link_word : ((getQueue (followLink queued q0 0x20000 (8 + 0x00400001 * 2 ^ 32 + 0x00030000 * 2 ^ 64 + 8 * 2 ^ 96)) q0).map
    Queue.chain) = some (.segment 0x400000 0x4000C0) := by decide +kernel

/-- The case of the docked board: 30 GiB usable, a pool of 15,104 units, and the channel of a PA. Its channel-local address
follows the formula of R334 (log entry 6). -/
theorem test_capacity : (let s : State := { block with lpddr := { inService := true, density2g := true, ecc := true } }
    (usableBytes s / 2 ^ 20, poolUnits s, channelOf s 0x123455678, channelLocal s 0x123455678)) =
    (30720, 15104, 2, 0x12345578) := by decide +kernel

/-- The handheld board: 7,936 units. -/
theorem test_capacity_half : poolUnits { block with life := { block.life with straps := { memHalf := true } }
                                                    lpddr := { density2g := true } } = 7936 := by decide +kernel

/-- The case under R362: slice 28, set 491, tag 776, sector 3. -/
theorem test_vat_index : (sliceOf 0x123455678, Machine.setOf 0x123455678, tagOf 0x123455678, sectorOf 0x123455678) = (28, 491, 776, 3) := by
  decide +kernel

/-- The case under R385: segment 77 at slice 22, way 3, set 225. -/
theorem test_segment_place : segPlace 0x01352340 = (22, 225, 3) := by decide +kernel

/-- The case under R370: limits of 147,456 and 73,728 lines with 4 ways converted. -/
theorem test_quota : (let s : State := { block with vat := { convMask := 0xF000#16 }, fns := [(1, { fnUp with grant := { quota := 16 } })]
                                                    ctxs := [(c0, { cacheQuota := 32 })] }
    (linesCache s, tenantLimit s 1, ctxLimit s c0)) = (589824, 147456, 73728) := by decide +kernel

/-- The case under R417: core 7 at router 34 sends to slice 28 by E, E, N with ROUTE 5; the answer goes S, W, W by YX. -/
theorem test_route : (let a := { access0 .read (.device 0x123455678) .atNi with ni := coreNi 7 }
    let p := packetOf block a
    let r := packetOf block { a with stage := .answered }
    (p.hops, p.yx, fieldNat (headerOf block p) 31 8, r.hops, r.yx)) = ([1, 1, 0], false, 5, [2, 3, 3], true) ∧
    (niRouter (coreNi 7), routeSelect block.fabric (coreNi 7) 28) = (34, some 31) := by decide +kernel

/-- The case of R471: a stride of 4 uses 4 sectors of one line, a stride of 32 uses 32 sectors in 8 lines. -/
theorem test_coalescing : (let vas := fun n => (List.range 32).map fun i => 0x2000 + n * i
    let secs := fun n => ((linesOf (vas n)).map fun l => (lineSecs l 4 (vas n)).length).sum
    ((linesOf (vas 4)).length, secs 4, (linesOf (vas 32)).length, secs 32)) = (1, 4, 8, 32) := by decide +kernel

/-- The case of FFMA: the word 0x0030_1410_0102_0022 is v8 = v1 * s4 + 1. -/
theorem test_ffma_word : word 0x22 (vr 8) (vr 1) (sr 4) (im 1) 0 0 = { base := 0x0030141001020022#64, ext := 0#32 } := by decide +kernel

/-- The case of BRA: opcode, EXT, PEN, PRED and IMM32 of 0x0030_0C03_00C0_0B70, and where its lanes go. -/
theorem test_bra_word : (let iw := iword { base := 0x00300C0300C00B70#64, ext := 0xFFFFFFF8#32 }
    (iw.op, iw.ext, iw.pen, iw.pred, iw.len, (illegalReason iw .compute 1#32).isNone)) = (0x70, true, true, 1, 12, true) ∧
    (getGroup (after (.bra 0 { base := 0x00300C0300C00B70#64, ext := 0xFFFFFFF8#32 } 1000)
      (coded 0x200 { base := 0x00300C0300C00B70#64, ext := 0xFFFFFFF8#32 } <| with0 fun g => { g with pcs := List.replicate 32 0x10200, preds := g.preds.set 1 1#32 })) 0).map (fun g => g.pcs.take 2) =
      some [0x101E0, 0x1020C] := by decide +kernel

/-- The zero block: BSCALE. -/
theorem test_zero_block : encodeScale ((List.replicate 32 (f32 0#32)).set 5 (f32 0x80000000#32)) 3 true 8 =
    { code := 0, flags := [.negZeroLost] } := by decide +kernel

/-- The dominant element, escape off: scale code 0x82 and elements 0x7C, 0x18, 0x00. -/
theorem test_block_without_escape : (let xs := [f32 0x45400000#32, f32 0x3F000000#32] ++ List.replicate 30 (f32 0x3B449BA6#32)
    ((encodeScale xs 3 false 8).code, (xs.zipIdx.take 3).map fun e => (quantise 3 0 {} 0x82 0 e.2 e.1).1)) =
    (0x82, [0x7C, 0x18, 0x00]) := by decide +kernel

/-- The same with the escape on and G = 8: code 0x76, descriptor 0x6A00_0020 and elements 0x00, 0x78, 0x3C. -/
theorem test_block_with_escape : (let xs := [f32 0x45400000#32, f32 0x3F000000#32] ++ List.replicate 30 (f32 0x3B449BA6#32)
    let r := encodeScale xs 3 true 8
    (r.code, r.desc, r.escapes, (xs.zipIdx.take 3).map fun e => (quantise 3 0 {} 0x76 0x6A000020 e.2 e.1).1)) =
    (0x76, 0x6A000020, 1, [0x00, 0x78, 0x3C]) := by decide +kernel

/-- The case of R614: 1.3 to E4M3 with 12 random bits 0xA3F and with 2,457. -/
theorem test_stochastic_rounding : ((convertFloat 3 0 5 { w := 12, r := 0xA3F } 0x3FA66666).1,
    (convertFloat 3 0 5 { w := 12, r := 2457 } 0x3FA66666).1) = (0x3B, 0x3A) := by decide +kernel

/-- The case of Table 14-1: 32 by 32 tiles, 3,600 of them; with 8 samples of 12 bytes 16 by 16, 14,400 of them. -/
theorem test_tile_edge : (let f : Frame := { frame0 with width := 2560, height := 1440, log2s := 2, sampleBytes := 8 }
    let g : Frame := { f with log2s := 3, sampleBytes := 12, edge := 16 }
    (tileEdge f, Frame.tileCount f, tileEdge g, Frame.tileCount g)) = (some 32, 3600, some 16, 14400) := by decide +kernel

/-- The case of R670: the triangle covers 15 pixel centres, and its neighbour none of them. -/
theorem test_triangle_coverage : (let px := (List.range 16).flatMap fun y => (List.range 16).map fun x => centrePt x y
    let a := px.filter fun p => inTriangle (1152, 384) (2688, 1920) (1152, 1920) p
    (a.length, a.any fun p => inTriangle (1152, 384) (2688, 384) (2688, 1920) p)) = (15, false) := by decide +kernel

/-- The writes of a row, as offsets and lengths. -/
def writeRun (funnel : Bool) (va rest : Nat) : Nat → List (Nat × Nat)
  | 0 => []
  | k + 1 => if rest = 0 then [] else (va, writeLen funnel va rest) :: writeRun funnel (va + writeLen funnel va rest) (rest - writeLen funnel va rest) k

/-- The case of R726: 200 bytes at offset 5 on a funnel channel make 9 writes, on a round-out channel 2. -/
theorem test_transfer_writes : (writeRun true 5 200 16, (writeRun false 5 200 16).length) =
    ([(5, 1), (6, 2), (8, 8), (0x10, 16), (0x20, 96), (0x80, 64), (0xC0, 8), (0xC8, 4), (0xCC, 1)], 2) := by decide +kernel

/-- The case of R802: a window of 22 records from SEQ 0x1200; ERR_ACK of the record before the last leaves one. -/
theorem test_err_ack : ((windowOf (after (.errAck 1 4#32 1000) recorded) 1).map StoredRec.seq,
    (windowOf (after (.errAck 1 4#32 1000) recorded) 0).map StoredRec.seq) = ([5], [3, 4, 5]) := by decide +kernel

/-- The case of R834: an alarm 19,999 ns after the insertion passes; at 20,000 ns the comparator is unverified. -/
theorem test_selftest_alarm : (let s := locked 7000600 { selfPending := some 7000600 }
    let v := after (.selftestAlarm 7020599) s
    let w := after (.comparatorUnverified 7020600) s
    (v.lock.selfPass, v.lock.lastAlarm, w.lock.selfPending.isSome, w.lock.entry.map SepiaEntry.cause)) =
    (1, 19999, false, some 0x000A) := by decide +kernel

/-- The case of R857: alpha 0.5 of 1.0 over 0.2 gives code 153. The half is code 128 of 255 in RGBA8. -/
theorem test_compose_blend : blendPixel [0x0302#32, 0x10100#32, 1#32, 0#32, 0x10000#32, 0#32, 0x10000#32, 0xFF#32]
    0x80FFFFFF 0x00333333 % 2 ^ 24 = 0x999999 := by decide +kernel

/-- The case of Table 22-8: the management controller's pointer write of 0x70 moves the pointer, and a read of 3 bytes adds 3. -/
theorem test_i3c_pointer : (after (.i3cPrivateRead 3 1000) (after (.i3cPrivateWrite [0x70#8] 1000) addressed)).i3c.pointer = 0x73#8 := by
  decide +kernel

/-! Single steps -/

/-- The empty queue idles, and a command at the front runs. -/
theorem test_step_idles : step block = .next { block with lock := block.lock.advance none none } := rfl
theorem test_step_runs : (match step { block with pending := [.thermtrip, .crystalReturn] } with
    | .next v => v.pending == [.crystalReturn] && v.life.pins.thermTrip
    | _ => false) = true := by decide +kernel

/-- IADD wraps; a source that is also the destination is read first. -/
theorem test_iadd_wraps : ((getGroup (after (.iadd 0 (word 0x03 (vr 1) (vr 1) (im 255) no 0 0) 1000)
    (coded 0 (word 0x03 (vr 1) (vr 1) (im 255) no 0 0) shading)) 0).map fun g =>
    (vreg g 1 0, vreg g 1 31, vreg g 2 0)) = some (0#32, 0#32, 2#32) := by decide +kernel

/-- A store past the end of LPDDR stops by name. -/
theorem test_write_back_stops : (match exec (.lpddrWriteBack 0 .good .good 1000)
      { block with traffic := { writeBacks := [(0, { pa := 2 ^ 35, data := 0#256, mask := 0#32, poison := false })] } } with
    | .fault .noSuchAddress => true
    | _ => false) = true := by decide +kernel

/-- A fetch gives what the packet found at its start: a later store of another context does not reach it, one of its own
context may (R480). -/
theorem test_fetch_of_a_stored_unit : (let w := word 0x03 (vr 0) (vr 1) (vr 2) no 0 0
    let s := coded 0 w shading
    let v := fun (owner : Nat) => homeWrite s (.device 0x20000000) { owner := owner } [(0, 0x04#8)] false
    let x := word 0x04 (vr 0) (vr 1) (vr 2) no 0 0
    let may := fun (s : State) => (getGroup s 0).map fun g => (fetched s g 0x10000 8 w, fetched s g 0x10000 8 x)
    (may s, may (v 7), may (v (ownerCode c0)))) = (some (true, false), some (true, false), some (true, true)) := by decide +kernel


end Sys2Proof.Tests
end

section
/-!
PROOFS. Host accesses (spec 04): register writes, BAR2 reads and writes, and unsupported requests. One lemma says what each
case of a row does; the statement is assembled from them.
-/

namespace Sys2Proof.Laws

open Machine

/-! The rows, by their meanings -/

theorem exec_registerWrite (fn : Nat) (bar4 : Bool) (off size : Nat) (value : Dword) (ep : Bool) (t : Stamp) (s : State) :
    exec (.registerWrite fn bar4 off size value ep t) s = execRegisterWrite fn bar4 off size value ep t s := rfl

theorem exec_bar2Read (fn off len : Nat) (t : Stamp) (s : State) :
    exec (.bar2Read fn off len t) s = execBar2Read fn off len t s := rfl

theorem exec_bar2Write (fn off : Nat) (bytes : List Byte) (ep : Bool) (t : Stamp) (s : State) :
    exec (.bar2Write fn off bytes ep t) s = execBar2Write fn off bytes ep t s := rfl

theorem exec_unsupportedRequest (fn bar off size : Nat) (write : Bool) (t : Stamp) (s : State) :
    exec (.unsupportedRequest fn bar off size write t) s = execUnsupportedRequest fn bar off size write t s := rfl

/-! Register writes (R3, R148) -/

/-- 4 or 8 naturally aligned bytes inside the BAR make an access of R148. -/
theorem accessOk_of_aligned {off size : Nat} (hsize : size = 4 ∨ size = 8) (halign : off % size = 0)
    (hend : off + size ≤ 0x10000) : accessOk off size = true := by
  simp [accessOk, hsize, halign, hend]

theorem registerWrite_of_accessOk {s : State} {fn off size : Nat} {t : Stamp} (hbar : barAnswers (s.upTo t) fn = true)
    (hok : accessOk off size = true) (value : Dword) :
    exec (.registerWrite fn false off size value false t) s =
      let v := writeBar0 (s.upTo t) fn off (value.extractLsb' 0 32)
      .next (if size = 8 then writeBar0 v fn (off + 4) (value.extractLsb' 32 32) else v) := by
  simp [exec_registerWrite, execRegisterWrite, hbar, hok]

theorem registerWrite_of_poisoned {s : State} {fn : Nat} {t : Stamp} (hbar : barAnswers (s.upTo t) fn = true) (bar4 : Bool)
    (off size : Nat) (value : Dword) :
    exec (.registerWrite fn bar4 off size value true t) s =
      .next (aer (pushRecord (s.upTo t) (hostRec (s.upTo t) 0x0105 fn)) fn .poisonedTlp) := by
  simp [exec_registerWrite, execRegisterWrite, hbar]

/-! BAR2 (R150, R151, R153) -/

section
variable {s : State} {fn off : Nat} {t : Stamp}

theorem bar2Read_of_pieces {len : Nat} {ps : List (Nat × (Nat × Nat × Nat))} (hbar : barAnswers (s.upTo t) fn = true)
    (hend : off + len ≤ 2 ^ 32) (hps : aperturePieces (s.upTo t) fn off len .bar2Read = some ps) :
    exec (.bar2Read fn off len t) s =
      let r := takeReq (modFn (s.upTo t) fn fun f => { f with apFaultRun := false })
      let v := ps.foldl (fun v e => issueBar2 v fn r.1 e .read) r.2
      let q : HostReq := { fn := fn, pieces := ps.map fun e => (e.2.1 / 128 * 128, e.2.1 % 128, e.2.2.2) }
      .next (completeHostReq { v with traffic := { v.traffic with hostReqs := tblSet v.traffic.hostReqs r.1 q } } r.1) := by
  simp only [exec_bar2Read, execBar2Read, hbar, hend, hps, decide_true, Bool.and_self, if_true]

theorem bar2Read_of_fault {len : Nat} (hbar : barAnswers (s.upTo t) fn = true) (hend : off + len ≤ 2 ^ 32)
    (hps : aperturePieces (s.upTo t) fn off len .bar2Read = none) :
    exec (.bar2Read fn off len t) s =
      .next (emit (apertureFault (s.upTo t) fn off) (.cpl fn .success (List.replicate len 0xFF#8) false)) := by
  simp only [exec_bar2Read, execBar2Read, hbar, hend, hps, decide_true, Bool.and_self, if_true]

theorem bar2Write_of_pieces {bytes : List Byte} {ps : List (Nat × (Nat × Nat × Nat))}
    (hbar : barAnswers (s.upTo t) fn = true) (hend : off + bytes.length ≤ 2 ^ 32)
    (hps : aperturePieces (s.upTo t) fn off bytes.length .bar2Write = some ps) :
    exec (.bar2Write fn off bytes false t) s =
      let r := takeReq (modFn (s.upTo t) fn fun f => { f with apFaultRun := false })
      .next (ps.foldl (fun v e => issueBar2 v fn r.1 e (.write (pieceWrite bytes e.2) false)) r.2) := by
  simp only [exec_bar2Write, execBar2Write, hbar, hend, hps, decide_true, Bool.and_self, if_true, Bool.false_eq_true,
    if_false]

theorem bar2Write_of_fault {bytes : List Byte} (hbar : barAnswers (s.upTo t) fn = true)
    (hend : off + bytes.length ≤ 2 ^ 32) (hps : aperturePieces (s.upTo t) fn off bytes.length .bar2Write = none) :
    exec (.bar2Write fn off bytes false t) s = .next (apertureFault (s.upTo t) fn off) := by
  simp only [exec_bar2Write, execBar2Write, hbar, hend, hps, decide_true, Bool.and_self, if_true, Bool.false_eq_true,
    if_false]

end

/-- A BAR2 read whose lines are all answered leaves its table and completes to its host. -/
theorem completeHostReq_of_answered {s : State} {id : Nat} {q : HostReq} (hq : tblGet s.traffic.hostReqs id = some q)
    (hparts : ∀ x ∈ hostReqParts s id q, x.isSome = true) :
    ∃ accesses data bad, completeHostReq s id =
      emit { s with traffic := { s.traffic with accesses := accesses, hostReqs := tblErase s.traffic.hostReqs id } }
        (.cpl q.fn .success data bad) := by
  have hnone : (hostReqParts s id q).any Option.isNone = false :=
    List.any_eq_false.2 fun x hx => by simp [Option.isSome_iff_ne_none.1 (hparts x hx)]
  simp only [completeHostReq, hq, hnone, Bool.false_eq_true, if_false]
  exact ⟨_, _, _, rfl⟩

/-! Unsupported requests (R172, R185) -/

/-- An access to a function under FLR or in D3hot whose port has a link breaks no rule of R148, so it is not reported. -/
theorem unsupportedRequest_of_away {s : State} {fn : Nat} {t : Stamp} (hopen : isOpen (s.upTo t) = true)
    (hfn : fnExists (s.upTo t) fn = true) (hlink : (getPort (s.upTo t) (portOf fn)).linkUp = true)
    (hreset : (getPort (s.upTo t) (portOf fn)).inReset = false) (hbar : barAnswers (s.upTo t) fn = false)
    (haway : ((getFn (s.upTo t) fn).flr || (getFn (s.upTo t) fn).d3hot) = true) (bar off size : Nat) (write : Bool) :
    exec (.unsupportedRequest fn bar off size write t) s =
      .next (if write then s.upTo t else emit (s.upTo t) (.cpl fn .unsupported [] false)) := by
  simp [exec_unsupportedRequest, execUnsupportedRequest, hopen, hfn, hlink, hreset, hbar, haway]

/-- Settles O18: each row's case is one of the lemmas above. -/
theorem hostAccessesAct : Obligations.HostAccessesAct := by
  refine ⟨?registerWrite, ?poisoned, ?read, ?readFault, ?write, ?completes, ?unsupported⟩
  case registerWrite =>
    intro s fn off size value t u hbar hsize halign hend
    exact registerWrite_of_accessOk hbar (accessOk_of_aligned hsize halign hend) value
  case poisoned =>
    intro s fn bar4 off size value t u hbar
    exact registerWrite_of_poisoned hbar bar4 off size value
  case read =>
    intro s fn off len t ps u hbar hend hps
    exact bar2Read_of_pieces hbar hend hps
  case readFault =>
    intro s fn off len t u hbar hend hps
    exact bar2Read_of_fault hbar hend hps
  case write =>
    intro s fn off bytes t u hbar hend
    exact ⟨bar2Write_of_fault hbar hend, fun ps => bar2Write_of_pieces hbar hend⟩
  case completes =>
    intro s id q hq hparts
    obtain ⟨accesses, data, bad, h⟩ := completeHostReq_of_answered hq hparts
    refine ⟨_, data, bad, h, rfl, ?_⟩
    change tblGet (tblErase s.traffic.hostReqs id) id = none
    rw [tblGet_tblErase, if_pos rfl]
  case unsupported =>
    intro s fn bar off size write t u hopen hfn hlink hreset hbar haway
    exact unsupportedRequest_of_away hopen hfn hlink hreset hbar haway bar off size write

end Sys2Proof.Laws
end

section
/-!
PROOFS. Function commands (spec 04): configuration space, virtual functions, FLR, D3hot, bus mastering and MSI-X masks. One
lemma says what a row does where its guard holds; the statement is assembled from them.
-/

namespace Sys2Proof.Laws

open Machine

/-! The rows, by their meanings -/

theorem exec_configRequest (fn : Nat) (req : CfgReq) (t : Stamp) (s : State) :
    exec (.configRequest fn req t) s = execConfigRequest fn req t s := rfl

theorem exec_numvfsWrite (p : PortId) (n : Nat) (t : Stamp) (s : State) :
    exec (.numvfsWrite p n t) s = execNumvfsWrite p n t s := rfl

theorem exec_vfEnableSet (p : PortId) (t : Stamp) (s : State) : exec (.vfEnableSet p t) s = execVfEnableSet p t s := rfl

theorem exec_vfReady (fn : Nat) (t : Stamp) (s : State) : exec (.vfReady fn t) s = execVfReady fn t s := rfl

theorem exec_vfEnableClear (p : PortId) (t : Stamp) (s : State) :
    exec (.vfEnableClear p t) s = execVfEnableClear p t s := rfl

theorem exec_flrInitiate (fn : Nat) (t : Stamp) (s : State) : exec (.flrInitiate fn t) s = execFlrInitiate fn t s := rfl

theorem exec_flrComplete (fn : Nat) (t : Stamp) (s : State) : exec (.flrComplete fn t) s = execFlrComplete fn t s := rfl

theorem exec_d3hotEnter (fn : Nat) (t : Stamp) (s : State) : exec (.d3hotEnter fn t) s = execD3hotEnter fn t s := rfl

theorem exec_d3hotExit (fn : Nat) (t : Stamp) (s : State) : exec (.d3hotExit fn t) s = execD3hotExit fn t s := rfl

theorem exec_busMasterEnable (fn : Nat) (t : Stamp) (s : State) :
    exec (.busMasterEnable fn t) s = execBusMasterEnable fn t s := rfl

theorem exec_msixUnmask (fn : Nat) (vector : Option Nat) (t : Stamp) (s : State) :
    exec (.msixUnmask fn vector t) s = execMsixUnmask fn vector t s := rfl

/-! Ports and their PF1 -/

@[simp] theorem getPort_modPort (s : State) (p : PortId) (g : Port → Port) : getPort (modPort s p g) p = g (getPort s p) := by
  cases p <;> rfl

@[simp] theorem portOf_pf1Of (p : PortId) : portOf (pf1Of p) = p := by cases p <;> rfl

@[simp] theorem isPf_pf1Of (p : PortId) : isPf (pf1Of p) = true := by cases p <;> rfl

@[simp] theorem isPf1_pf1Of (p : PortId) : isPf1 (pf1Of p) = true := by cases p <;> rfl

/-- Where VF Enable has just been set, every covered VF that is not there appears. -/
theorem enableVfs_of_set (s : State) (p : PortId) :
    let v := modPort s p fun x => { x with vfEnable := true }
    enableVfs v p = (coveredVfs v p).foldl (fun v fn => if (getFn v fn).phase == .absent then
      setFn v fn { fnDefault fn with phase := .enabling, fnCause := (getFn v fn).fnCause } else v) v := by
  simp only [enableVfs, getPort_modPort, if_true]

/-! Configuration space (R131, R142) -/

/-- The features that no function has (R38, R139). -/
theorem hasFeature_of_never {x : PciFeature} (h : x ∈ [PciFeature.ats, .pri, .pasid, .tph, .hotPlug, .intx, .l1Substates,
    .d3cold, .pme, .atomicCompleter, .resizableBar]) (fn : Nat) : hasFeature fn x = false := by
  simp only [List.mem_cons, List.not_mem_nil, or_false] at h
  rcases h with rfl | rfl | rfl | rfl | rfl | rfl | rfl | rfl | rfl | rfl | rfl <;> rfl

/-- PF1's SR-IOV capability shows its fields. -/
@[simp] theorem ofSriov_pf1Of (p : PortId) (v : Nat) : ofSriov (pf1Of p) v = v := by
  rw [ofSriov, isPf1_pf1Of, if_pos rfl]

section
variable {s : State} {fn : Nat} {t : Stamp}

/-- Only a read of the field `other` uses a free value. -/
theorem configRequest_of_success {req : CfgReq} (hfn : fnExists (s.upTo t) fn = true)
    (hlink : (getPort (s.upTo t) (portOf fn)).linkUp = true) (hst : cfgStatus (s.upTo t) fn = .success)
    (hreq : req ≠ .read .other) :
    exec (.configRequest fn req t) s =
      .next (emit (cfgWrite (s.upTo t) fn req) (.cpl fn .success (cfgAnswer (s.upTo t) fn req) false)) := by
  have hused (v : State) : cfgUsed v req = v := by
    unfold cfgUsed
    split
    · exact absurd rfl hreq
    · rfl
  simp only [exec_configRequest, execConfigRequest, hfn, hlink, hst, hused, Bool.and_self, if_true]

theorem configRequest_of_not_success (req : CfgReq) (hfn : fnExists (s.upTo t) fn = true)
    (hlink : (getPort (s.upTo t) (portOf fn)).linkUp = true) (hst : cfgStatus (s.upTo t) fn ≠ .success) :
    exec (.configRequest fn req t) s = .next (emit (s.upTo t) (.cpl fn (cfgStatus (s.upTo t) fn) [] false)) := by
  simp only [exec_configRequest, execConfigRequest, hfn, hlink, hst, Bool.and_self, if_true, if_false]

theorem cfgAnswer_of_write {req : CfgReq} (hreq : ∀ x, req ≠ .read x) : cfgAnswer s fn req = [] := by
  cases req with
  | read x => exact absurd rfl (hreq x)
  | _ => rfl

/-! SR-IOV (R142 to R145, R186) -/

theorem numvfsWrite_of_disabled {p : PortId} (hpf : fnReachable (s.upTo t) (pf1Of p) = true)
    (hvf : (getPort (s.upTo t) p).vfEnable = false) (n : Nat) :
    exec (.numvfsWrite p n t) s = .next (modPort (s.upTo t) p fun x => { x with numVfs := min n (totalVfs p) }) := by
  simp only [exec_numvfsWrite, execNumvfsWrite, hpf, hvf, Bool.not_false, Bool.and_self, if_true]

theorem vfEnableSet_of_disabled {p : PortId} (hpf : fnReachable (s.upTo t) (pf1Of p) = true)
    (hvf : (getPort (s.upTo t) p).vfEnable = false) :
    exec (.vfEnableSet p t) s = .next (enableVfs (modPort (s.upTo t) p fun x => { x with vfEnable := true }) p) := by
  simp only [exec_vfEnableSet, execVfEnableSet, hpf, hvf, Bool.not_false, Bool.and_self, if_true]

theorem vfReady_of_enabling (hphase : (getFn (s.upTo t) fn).phase = .enabling) :
    exec (.vfReady fn t) s =
      .next (modFn (s.upTo t) fn fun f => { f with phase := .ready, suspended := inSepia (s.upTo t) }) := by
  simp only [exec_vfReady, execVfReady, hphase, beq_self_eq_true, if_true]

theorem vfEnableClear_of_enabled {p : PortId} (hpf : fnReachable (s.upTo t) (pf1Of p) = true)
    (hvf : (getPort (s.upTo t) p).vfEnable = true) :
    exec (.vfEnableClear p t) s = .next (startForfeit (clearVfEnable (s.upTo t) p) [.vfClear p] []) := by
  simp only [exec_vfEnableClear, execVfEnableClear, hpf, hvf, Bool.and_self, if_true]

/-! FLR (R185) -/

/-- An FLR quarantines the function's tags; the forfeit takes the VFs in where it is PF1's. -/
theorem flrInitiate_of_reachable (hfn : fnReachable (s.upTo t) fn = true) (hflr : (getFn (s.upTo t) fn).flr = false) :
    let v := quarantineAll (modFn (s.upTo t) fn fun f => { f with flr := true, flrForfeited := false }) fun _ g => g == fn
    exec (.flrInitiate fn t) s = .next (if fn == pf1Of (portOf fn) && (getPort v (portOf fn)).vfEnable then
      startForfeit (clearVfEnable v (portOf fn)) [.flr fn, .vfClear (portOf fn)] []
      else startForfeit v [.flr fn] []) := by
  simp only [exec_flrInitiate, execFlrInitiate, hfn, hflr, Bool.not_false, Bool.and_self, if_true,
    apply_ite Host.Outcome.next]

theorem flrComplete_of_forfeited (hflr : (getFn (s.upTo t) fn).flr = true)
    (hdone : (getFn (s.upTo t) fn).flrForfeited = true) :
    exec (.flrComplete fn t) s = .next (modFn (s.upTo t) fn fun f => { f with flr := false, flrForfeited := false }) := by
  simp only [exec_flrComplete, execFlrComplete, hflr, hdone, Bool.and_self, if_true]

/-! D3hot and bus mastering (R171, R172) -/

theorem d3hotEnter_of_pf (hpf : isPf fn = true) (hfn : fnReachable (s.upTo t) fn = true)
    (hflr : (getFn (s.upTo t) fn).flr = false) :
    exec (.d3hotEnter fn t) s =
      .next (modStops (modFn (s.upTo t) fn fun f => { f with d3hot := true }) fn fun l => insertOnce l .d3hot) := by
  simp only [exec_d3hotEnter, execD3hotEnter, hpf, hfn, hflr, Bool.not_false, Bool.and_self, if_true]

theorem d3hotExit_of_d3hot (hfn : fnReachable (s.upTo t) fn = true) (hd3 : (getFn (s.upTo t) fn).d3hot = true) :
    exec (.d3hotExit fn t) s =
      .next (modStops (modFn (s.upTo t) fn fun f => { f with d3hot := false }) fn fun l => removeAll l .d3hot) := by
  simp only [exec_d3hotExit, execD3hotExit, hfn, hd3, Bool.and_self, if_true]

theorem busMasterEnable_of_reachable (hfn : fnReachable (s.upTo t) fn = true) :
    exec (.busMasterEnable fn t) s = .next (sendPending (modFn (s.upTo t) fn fun f => { f with busMaster := true }) fn) := by
  simp only [exec_busMasterEnable, execBusMasterEnable, hfn, if_true]

/-! MSI-X masks (R156) -/

theorem msixUnmask_vector (hbar : barAnswers (s.upTo t) fn = true) {v : Nat} (hv : v < vectorCount fn) :
    exec (.msixUnmask fn (some v) t) s = .next (sendPending (modFn (s.upTo t) fn fun f =>
      { f with msix := tblSet f.msix v { msixEntry f v with mask := false } }) fn) := by
  simp only [exec_msixUnmask, execMsixUnmask, hbar, hv, if_true]

theorem msixUnmask_function (hbar : barAnswers (s.upTo t) fn = true) :
    exec (.msixUnmask fn none t) s =
      .next (sendPending (modFn (s.upTo t) fn fun f => { f with msixFnMask := false }) fn) := by
  simp only [exec_msixUnmask, execMsixUnmask, hbar, if_true]

end

/-- Settles O17: each row's case is one of the lemmas above. -/
theorem functionsAppearResetAndSleep : Obligations.FunctionsAppearResetAndSleep := by
  refine ⟨?config, ?fields, ?enable, ?ready, ?clear, ?flr, ?flrDone, ?power, ?unmask⟩
  case config =>
    intro s fn req t u hfn hlink
    refine ⟨fun hst hreq => ?_, ?_, configRequest_of_not_success req hfn hlink⟩
    · rw [configRequest_of_success hfn hlink hst (hreq .other), cfgAnswer_of_write hreq]
    · rintro x hst hx rfl
      exact configRequest_of_success hfn hlink hst fun h => hx (CfgReq.read.inj h)
  case fields =>
    intro s p fn
    have hbool : natOfBool true = 1 := rfl
    simp only [fn, cfgValue, ofSriov_pf1Of, portOf_pf1Of, isPf_pf1Of, hbool, true_and]
    intro x hx
    rw [hasFeature_of_never hx]
    rfl
  case enable =>
    intro s p n t u hpf hvf
    exact ⟨numvfsWrite_of_disabled hpf hvf n, (vfEnableSet_of_disabled hpf hvf).trans (by rw [enableVfs_of_set])⟩
  case ready =>
    intro s fn t u hphase
    exact vfReady_of_enabling hphase
  case clear =>
    intro s p t u hpf hvf
    exact vfEnableClear_of_enabled hpf hvf
  case flr =>
    intro s fn t u hfn hflr
    exact flrInitiate_of_reachable hfn hflr
  case flrDone =>
    intro s fn t u hflr hdone
    exact flrComplete_of_forfeited hflr hdone
  case power =>
    intro s fn t u hfn
    exact ⟨fun hpf => d3hotEnter_of_pf hpf hfn, d3hotExit_of_d3hot hfn, busMasterEnable_of_reachable hfn⟩
  case unmask =>
    intro s fn t u hbar
    exact ⟨fun v => msixUnmask_vector hbar, msixUnmask_function hbar⟩

end Sys2Proof.Laws
end

section
/-!
PROOFS. Power domains, the crystal, pins and sensors (spec 03, 21): one lemma says what a row does where its guard holds; the
statement is assembled from them.
-/

namespace Sys2Proof.Laws

open Machine

/-! The rows, by their meanings -/

theorem exec_domainIdleOff (d : Nat) (t : Stamp) (s : State) :
    exec (.domainIdleOff d t) s = execDomainIdleOff d t s := rfl

theorem exec_domainOffDone (d : Nat) (t : Stamp) (s : State) :
    exec (.domainOffDone d t) s = execDomainOffDone d t s := rfl

theorem exec_domainWake (d : Nat) (t : Stamp) (s : State) : exec (.domainWake d t) s = execDomainWake d t s := rfl

theorem exec_forceOffDrained (d : Nat) (t : Stamp) (s : State) :
    exec (.forceOffDrained d t) s = execForceOffDrained d t s := rfl

theorem exec_crystalLoss (t : Stamp) (s : State) : exec (.crystalLoss t) s = execCrystalLoss t s := rfl

theorem exec_crystalReturn (s : State) : exec .crystalReturn s = execCrystalReturn s := rfl

theorem exec_thermtrip (s : State) : exec .thermtrip s = execThermtrip s := rfl

theorem exec_vdda18Below1v (s : State) : exec .vdda18Below1v s = execVdda18Below1v s := rfl

theorem exec_sensorRefresh (readings : List (Option Nat)) (t : Stamp) (s : State) :
    exec (.sensorRefresh readings t) s = execSensorRefresh readings t s := rfl

section
variable {s : State} {d : Nat} {t : Stamp}

/-! Switching domains (R109 to R115, R122) -/

/-- An evaluation switches off an AUTO domain that has been idle for more than its IDLE_OFF and that nothing keeps on. -/
theorem domainIdleOff_of_idle {t0 : Stamp} (htimed : timed (s.upTo t) = true) (hinstant : t % 10000 = 0)
    (hnow : (s.upTo t).stamp = t) (hd : d < 72) (hon : (getDom (s.upTo t) d).st = .on)
    (hauto : (getDom (s.upTo t) d).policy = .auto) (hsince : (getDom (s.upTo t) d).idleSince = some t0)
    (hset : (s.upTo t).power.idleOff.getD (domClass d) 0 ≠ 0)
    (hlong : heldMoreThan t0 t ((s.upTo t).power.idleOff.getD (domClass d) 0 * 1000) = true)
    (hheld : heldOn (s.upTo t) d = false) (hwork : workPending (s.upTo t) d = false)
    (hsave : mustSave (s.upTo t) d = false) :
    exec (.domainIdleOff d t) s = .next (startOff (s.upTo t) d true) := by
  simp only [exec_domainIdleOff, execDomainIdleOff, htimed, hinstant, hnow, hd, hon, hauto, hsince, hset, hlong, hheld,
    hwork, hsave, beq_self_eq_true, decide_true, Bool.not_false, Bool.and_self, ne_eq, not_false_eq_true, if_true]

theorem domainOffDone_of_switchingOff (hst : (getDom (s.upTo t) d).st = .switchingOff) :
    exec (.domainOffDone d t) s = .next (modDom (s.upTo t) d fun x =>
      { x.change (if x.wakeAfter then .waking else .off) (s.upTo t).stamp with wakeAfter := false }) := by
  simp only [exec_domainOffDone, execDomainOffDone, hst, beq_self_eq_true, if_true]

/-- A waking domain is on, a Madder once its core is. -/
theorem domainWake_of_waking (hst : (getDom (s.upTo t) d).st = .waking)
    (hcore : 24 ≤ d → d < 48 → domOn (s.upTo t) (d - 24) = true) :
    exec (.domainWake d t) s =
      let v := modDom (s.upTo t) d fun x => { x.change .on (s.upTo t).stamp with
        idleSince := if domainBusy (s.upTo t) d then none else some (s.upTo t).stamp }
      .next { v with cores := { v.cores with lsEver := tblErase v.cores.lsEver d } } := by
  have hcoreOk : (!(24 ≤ d && d < 48) || domOn (s.upTo t) (d - 24)) = true := by
    by_cases hmadder : 24 ≤ d ∧ d < 48
    · rw [hcore hmadder.1 hmadder.2, Bool.or_true]
    · rw [← Bool.decide_and, decide_eq_false hmadder, Bool.not_false, Bool.true_or]
  simp only [exec_domainWake, execDomainWake, hst, hcoreOk, beq_self_eq_true, Bool.and_self, if_true]

/-- A drained domain under FORCE_OFF switches off; only a bank group has lines to clean first. -/
theorem forceOffDrained_of_drained (hpolicy : (getDom (s.upTo t) d).policy = .forceOff)
    (hon : (getDom (s.upTo t) d).st = .on) (hbank : d < 48 ∨ 64 ≤ d) (hbusy : domainBusy (s.upTo t) d = false)
    (hheld : heldOn (s.upTo t) d = false) (hsave : mustSave (s.upTo t) d = false) :
    exec (.forceOffDrained d t) s = .next (startOff (s.upTo t) d false) := by
  have hnoBank : (decide (48 ≤ d) && decide (d < 64)) = false := by
    rw [← Bool.decide_and, decide_eq_false_iff_not]
    omega
  simp [exec_forceOffDrained, execForceOffDrained, hpolicy, hon, hnoBank, hbusy, hheld, hsave]

/-! The crystal (R92, R94, R125) -/

/-- While the Metronome counts, a loss holds the count, stops every queue and is recorded. -/
theorem crystalLoss_of_running (hrun : (s.upTo t).metro.running = true) (hlost : (s.upTo t).metro.lost = false) :
    exec (.crystalLoss t) s =
      let u := s.upTo t
      let v : State := { u with
        metro := { u.metro with lost := true, awaitWarm := isOpen u }
        queues := u.queues.map fun e => (e.1, { e.2 with stops := insertOnce e.2.stops .crystal }) }
      let v := pushRecord v { deviceRec v 0x0004 6 [.b] with
        loc := { unit := .mordant }, detail := detailOf v.stamp (v.stamp / 2 ^ 32) 0 0 }
      .next (faultEdge u ((v.queues.map Prod.fst).foldl settleQueue v)) := by
  simp only [exec_crystalLoss, execCrystalLoss, hrun, hlost, Bool.not_false, Bool.and_self, if_true]

/-- A loss before the lock halts start-up. -/
theorem crystalLoss_of_awaitLock (hphase : (s.upTo t).life.phase = .awaitLock)
    (hrun : (s.upTo t).metro.running = false) (hlost : (s.upTo t).metro.lost = false) :
    exec (.crystalLoss t) s =
      .next (faultEdge (s.upTo t) { s.upTo t with metro := { (s.upTo t).metro with lost := true } }) := by
  simp only [exec_crystalLoss, execCrystalLoss, hphase, hrun, hlost, beq_self_eq_true, Bool.not_false, Bool.and_true,
    Bool.false_eq_true, if_false, if_true]

/-! Sensors (R902, R910) -/

theorem sensorRefresh_of_instant (htimed : timed (s.upTo t) = true) (hinstant : t % 100000 = 0)
    (hnow : (s.upTo t).stamp = t) (readings : List (Option Nat)) :
    let u := s.upTo t
    let failed := (List.range 16).filter fun i => u.sensors.failed.contains i || (readings.getD i none).isNone
    exec (.sensorRefresh readings t) s = .next (tempCause { u with sensors :=
      { temp := (List.range 16).map fun i => if failed.contains i then none else readings.getD i none
        failed := failed, before := u.sensors.temp, refreshed := some t } }) := by
  simp only [exec_sensorRefresh, execSensorRefresh, htimed, hinstant, hnow, beq_self_eq_true, Bool.and_self, if_true]

end

/-- Settles O14: each row's case is one of the lemmas above; the three pins and CRYSTAL_RETURN have no guard. -/
theorem powerDomainsPinsAndSensorsAct : Obligations.PowerDomainsPinsAndSensorsAct := by
  refine ⟨?idle, ?offDone, ?wake, ?drained, ?loss, ?lossBeforeLock, exec_crystalReturn, exec_thermtrip,
    exec_vdda18Below1v, ?refresh⟩
  case idle =>
    intro s d t t0 u htimed hinstant hnow hd hon hauto hsince hset hlong hheld hwork hsave
    exact domainIdleOff_of_idle htimed hinstant hnow hd hon hauto hsince hset hlong hheld hwork hsave
  case offDone =>
    intro s d t u hst
    exact domainOffDone_of_switchingOff hst
  case wake =>
    intro s d t u hst hcore
    exact domainWake_of_waking hst hcore
  case drained =>
    intro s d t u hpolicy hon hbank hbusy hheld hsave
    exact forceOffDrained_of_drained hpolicy hon hbank hbusy hheld hsave
  case loss =>
    intro s t u hrun hlost
    exact crystalLoss_of_running hrun hlost
  case lossBeforeLock =>
    intro s t u hphase hrun hlost
    exact crystalLoss_of_awaitLock hphase hrun hlost
  case refresh =>
    intro s readings t u htimed hinstant hnow
    exact sensorRefresh_of_instant htimed hinstant hnow readings

end Sys2Proof.Laws
end

section
/-!
PROOFS. The Governor and the Metronome's METRO_LO (spec 02): one lemma says what a row does where its guard holds; the
statement is assembled from them.
-/

namespace Sys2Proof.Laws

open Machine

/-! The rows, by their meanings -/

theorem exec_governorSample (counts activity : List Nat) (estDone : Bool) (t : Stamp) (s : State) :
    exec (.governorSample counts activity estDone t) s = execGovernorSample counts activity estDone t s := rfl

theorem exec_governorOutput (computed : Bool) (t : Stamp) (s : State) :
    exec (.governorOutput computed t) s = execGovernorOutput computed t s := rfl

theorem exec_spmiFrameDone (ok : Bool) (t : Stamp) (s : State) :
    exec (.spmiFrameDone ok t) s = execSpmiFrameDone ok t s := rfl

theorem exec_govSaturation (t : Stamp) (s : State) : exec (.govSaturation t) s = execGovSaturation t s := rfl

theorem exec_govFlagClear (fn : Nat) (value : Word) (t : Stamp) (s : State) :
    exec (.govFlagClear fn value t) s = execGovFlagClear fn value t s := rfl

theorem exec_metroLoRead (fn size : Nat) (t : Stamp) (s : State) :
    exec (.metroLoRead fn size t) s = execMetroLoRead fn size t s := rfl

section
variable {s : State} {t : Stamp}

/-! Samples and outputs (R69 to R77, R82, R85, R89) -/

/-- Records leave the sensors as they are. -/
theorem foldl_pushRecord_sensors {α : Type} (r : State → α → ErrRec) (l : List α) (u : State) :
    (l.foldl (fun v a => pushRecord v (r v a)) u).sensors = u.sensors := by
  induction l generalizing u with
  | nil => rfl
  | cons a l ih => rw [List.foldl_cons, ih, pushRecord_sensors]

/-- At a due instant the law runs, without the stuck monitors and from the commits that are due, and its result is held. -/
theorem governorSample_of_due (hdue : sampleDue (s.upTo t) t = true) (counts activity : List Nat) (estDone : Bool) :
    exec (.governorSample counts activity estDone t) s =
      let u := s.upTo t
      let stuck := stuckMonitors u counts t
      let v := stuck.foldl (fun v n => pushRecord v { govRec v 0x0006 0 [.d] with loc := { unit := .pace, index := n } }) u
      let v : State := { v with gov := { v.gov with excluded := v.gov.excluded ++ stuck } }
      let g := applyCommits v.gov t
      let r := sampleLoop g.inForce g.loop t (counts.getD 31 0 == 0 || !estDone)
        (paceOf ((leastNat ((contributing v t).map fun n => counts.getD n 0)).getD 0))
        (Config.powerEstimate activity (estimatorReadings u t)).toInt
      .next { v with gov := { g with held := some (g.loop, r.2), loop := r.1, lastSample := some t } } := by
  simp only [exec_governorSample, execGovernorSample, hdue, if_true, estimatorReadings, foldl_pushRecord_sensors]

/-- The held result of 38.4 us ago is released, and the first stale sample is recorded. -/
theorem governorOutput_of_held {old : GovLoop} {r : GovSampleResult} (hheld : (s.upTo t).gov.held = some (old, r))
    (htimed : timed (s.upTo t) = true) (hnow : (s.upTo t).stamp = r.stamp + 38400) (computed : Bool) :
    exec (.governorOutput computed t) s =
      let u := s.upTo t
      let lr := released u.gov old r computed
      let v : State := { u with gov := govPageAfter u.gov lr.1 lr.2 u.stamp }
      let v := match lr.2.code with
        | some c => emit v (.spmi (spmiFrameOf lr.2.params c))
        | none => v
      .next (if lr.2.staleNow && !u.gov.page.staleNow then
        pushRecord v { govRec v 0x0005 0 [.d] with stamp := r.stamp } else v) := by
  have hguard : (timed (s.upTo t) && (s.upTo t).stamp == r.stamp + 38400) = true := by
    rw [htimed, hnow, beq_self_eq_true, Bool.and_self]
  simp only [exec_governorOutput, execGovernorOutput, hheld]
  exact if_pos hguard

/-! SPMI and saturation (R79, R90, R91) -/

theorem spmiFrameDone_of_frame (hframe : (s.upTo t).gov.frame.isSome = true) (ok : Bool) :
    exec (.spmiFrameDone ok t) s =
      let u := s.upTo t
      let v : State := { u with gov := { u.gov with frame := none, spmiFailRun := !ok } }
      .next (if !ok && !u.gov.spmiFailRun then pushRecord v (govRec v 0x0007 0 [.d]) else v) := by
  simp only [exec_spmiFrameDone, execSpmiFrameDone, hframe, if_true]

theorem govSaturation_of_longLoss {t0 : Stamp} (hstart : (s.upTo t).gov.loop.episodeStart = some t0)
    (hlong : heldMoreThan t0 ((s.upTo t).gov.lastSample.getD 0) 100000000 = true)
    (hcount : 2002 ≤ (s.upTo t).gov.loop.episode) (hmay : mayEnter (s.upTo t) 0x0008 = true) :
    exec (.govSaturation t) s =
      .next (decideSepia (pushRecord (s.upTo t) (govRec (s.upTo t) 0x0008 6 [.b])) 0x0008 none) := by
  simp only [exec_govSaturation, execGovSaturation, hstart, hlong, hcount, hmay, decide_true, Bool.and_self, if_true]

/-! The page's flags and METRO_LO (R62, R63, R84) -/

/-- A flag that the write does not name stays, and so does one that the sample of this very stamp sets. -/
theorem stickyStays_eq (u : State) (value : Word) (bit : Nat) :
    stickyStays u value bit = (!bitOf value bit ||
      (u.metro.running && !u.metro.lost && u.gov.lastSet.2 == u.stamp && u.gov.lastSet.1.contains bit)) := by
  rw [stickyStays, sameStep, timed, Bool.beq_comm]

theorem govFlagClear_of_admin {fn : Nat} (hadmin : isAdmin fn = true) (hbar : barAnswers (s.upTo t) fn = true)
    (value : Word) :
    exec (.govFlagClear fn value t) s =
      let u := s.upTo t
      .next { u with gov := { u.gov with
        satHi := u.gov.satHi && stickyStays u value 8
        satLo := u.gov.satLo && stickyStays u value 9
        integClamp := u.gov.integClamp && stickyStays u value 10
        sensorStale := u.gov.sensorStale && stickyStays u value 11 } } := by
  simp only [exec_govFlagClear, execGovFlagClear, hadmin, hbar, Bool.and_self, if_true]

theorem metroLoRead_of_size {fn size : Nat} (hbar : barAnswers (s.upTo t) fn = true) (hsize : size = 4 ∨ size = 8) :
    exec (.metroLoRead fn size t) s =
      .next (emit (modFn (s.upTo t) fn fun f => { f with metroCap := some (s.upTo t).stamp })
        (.cpl fn .success (leBytes size (s.upTo t).stamp) false)) := by
  have hok : (size == 4 || size == 8) = true := by simpa using hsize
  simp only [exec_metroLoRead, execMetroLoRead, hbar, hok, Bool.and_self, if_true, State.stamp, modFn_metro]

end

/-- Settles O15: each row's case is one of the lemmas above. -/
theorem governorAndMetronomeAct : Obligations.GovernorAndMetronomeAct := by
  refine ⟨?sample, ?output, ?frameDone, ?saturation, ?flagClear, ?metroLo⟩
  case sample =>
    intro s counts activity estDone t u hdue
    exact governorSample_of_due hdue counts activity estDone
  case output =>
    intro s computed t old r u hheld htimed hnow
    exact governorOutput_of_held hheld htimed hnow computed
  case frameDone =>
    intro s ok t u hframe
    exact spmiFrameDone_of_frame hframe ok
  case saturation =>
    intro s t t0 u hstart hlong hcount hmay
    exact govSaturation_of_longLoss hstart hlong hcount hmay
  case flagClear =>
    intro s fn value t u hadmin hbar
    simpa only [stickyStays_eq] using govFlagClear_of_admin hadmin hbar value
  case metroLo =>
    intro s fn size t u hbar hsize
    exact metroLoRead_of_size hbar hsize

end Sys2Proof.Laws
end

section
/-!
PROOFS. Device commands (spec 05, 08, 10): a mailbox row that serves a command does so wherever it starts or goes on, said
once for every row; the statement is that fact at each device command.
-/

namespace Sys2Proof.Laws

open Machine

/-! The rows, by their meanings -/

theorem exec_govSet (k : SlotId) (t : Stamp) (s : State) : exec (.govSet k t) s = execGovSet k t s := rfl

theorem exec_pwrPolicy (k : SlotId) (t : Stamp) (s : State) : exec (.pwrPolicy k t) s = execPwrPolicy k t s := rfl

theorem exec_pwrIdleOff (k : SlotId) (t : Stamp) (s : State) : exec (.pwrIdleOff k t) s = execPwrIdleOff k t s := rfl

theorem exec_vatConvertToScratchpad (k : SlotId) (t : Stamp) (s : State) :
    exec (.vatConvertToScratchpad k t) s = execVatConvertToScratchpad k t s := rfl

theorem exec_vatConvertToCache (k : SlotId) (t : Stamp) (s : State) :
    exec (.vatConvertToCache k t) s = execVatConvertToCache k t s := rfl

theorem exec_clusterModeExclusive (k : SlotId) (t : Stamp) (s : State) :
    exec (.clusterModeExclusive k t) s = execClusterModeExclusive k t s := rfl

theorem exec_clusterModeShared (k : SlotId) (t : Stamp) (s : State) :
    exec (.clusterModeShared k t) s = execClusterModeShared k t s := rfl

theorem exec_streamCfg (k : SlotId) (t : Stamp) (s : State) : exec (.streamCfg k t) s = execStreamCfg k t s := rfl

theorem exec_warmReset (k : SlotId) (t : Stamp) (s : State) : exec (.warmReset k t) s = execWarmReset k t s := rfl

theorem exec_sepiaEnter (k : SlotId) (t : Stamp) (s : State) : exec (.sepiaEnter k t) s = execSepiaEnter k t s := rfl

/-! Rows that serve a command (R188 to R209, R221) -/

section
variable {row : SlotId → Stamp → Instr} {code : Nat} {mine : List Word → Bool}
  {causes : State → SlotId → List Word → List Nat} {run resume : State → SlotId → List Word → State}

/-- A row that serves its command at its stamp runs its body wherever the command starts. -/
theorem servedBy_of_mbxRow
    (h : ∀ k t s, exec (row k t) s = .next (mbxRow (s.upTo t) k code mine causes run resume)) :
    servedBy row code mine causes run := by
  intro s k t u hserving
  rw [h, mbxRow_of_serving hserving]

/-- A row that serves its command at its stamp goes on with a command in progress. -/
theorem resumedBy_of_mbxRow
    (h : ∀ k t s, exec (row k t) s = .next (mbxRow (s.upTo t) k code mine causes run resume)) :
    resumedBy row code mine resume := by
  intro s k t u hbusy hcode hmine htakes hstarted
  rw [h, mbxRow_of_started hbusy hcode hmine htakes hstarted]

end

/-- Settles O25: each row serves its command; a conversion to scratchpad and CLUSTER_MODE to exclusive also go on. -/
theorem deviceCommandsAct : Obligations.DeviceCommandsAct := by
  refine ⟨?govSet, ?policy, ?idleOff, ?toScratch, ?endToScratch, ?toCache, ?exclusive, ?endExclusive, ?shared, ?streamCfg,
    ?warmReset, ?sepiaEnter⟩
  case govSet => exact servedBy_of_mbxRow exec_govSet
  case policy => exact servedBy_of_mbxRow exec_pwrPolicy
  case idleOff => exact servedBy_of_mbxRow exec_pwrIdleOff
  case toScratch => exact servedBy_of_mbxRow exec_vatConvertToScratchpad
  case endToScratch => exact resumedBy_of_mbxRow exec_vatConvertToScratchpad
  case toCache => exact servedBy_of_mbxRow exec_vatConvertToCache
  case exclusive => exact servedBy_of_mbxRow exec_clusterModeExclusive
  case endExclusive => exact resumedBy_of_mbxRow exec_clusterModeExclusive
  case shared => exact servedBy_of_mbxRow exec_clusterModeShared
  case streamCfg => exact servedBy_of_mbxRow exec_streamCfg
  case warmReset => exact servedBy_of_mbxRow exec_warmReset
  case sepiaEnter => exact servedBy_of_mbxRow exec_sepiaEnter

end Sys2Proof.Laws
end

section
/-!
PROOFS. Links and port resets (spec 04): one lemma says what a row does where its guard holds; the statement is assembled from
them.
-/

namespace Sys2Proof.Laws

open Machine

/-! The rows, by their meanings -/

theorem exec_perstAssert (p : PortId) (t : Stamp) (s : State) : exec (.perstAssert p t) s = execPerstAssert p t s := rfl

theorem exec_perstDeassert (p : PortId) (t : Stamp) (s : State) :
    exec (.perstDeassert p t) s = execPerstDeassert p t s := rfl

theorem exec_dlDown (p : PortId) (t : Stamp) (s : State) : exec (.dlDown p t) s = execDlDown p t s := rfl

theorem exec_linkUp (p : PortId) (speed width : Nat) (t : Stamp) (s : State) :
    exec (.linkUp p speed width t) s = execLinkUp p speed width t s := rfl

theorem exec_linkRetrain (p : PortId) (speed width : Nat) (t : Stamp) (s : State) :
    exec (.linkRetrain p speed width t) s = execLinkRetrain p speed width t s := rfl

theorem exec_linkCorrectableError (p : PortId) (s : State) :
    exec (.linkCorrectableError p) s = execLinkCorrectableError p s := rfl

section
variable {s : State} {p : PortId} {t : Stamp}

/-! Resets and links (R131, R177, R183, R184) -/

/-- An assertion of PERSTx_N on a present port that is not held resets the port and holds it. -/
theorem perstAssert_of_released (hpresent : (getPort (setPerstPin (s.upTo t) p false) p).present = true)
    (hperst : (getPort (setPerstPin (s.upTo t) p false) p).perst = false) :
    exec (.perstAssert p t) s = .next (modPort (startPortReset (setPerstPin (s.upTo t) p false) p 1) p
      fun x => { x with perst := true }) := by
  simp only [exec_perstAssert, execPerstAssert, hpresent, hperst, Bool.not_false, Bool.and_self, if_true]

theorem dlDown_of_linkUp (hlink : (getPort (s.upTo t) p).linkUp = true) :
    exec (.dlDown p t) s = .next (startPortReset (s.upTo t) p 2) := by
  simp only [exec_dlDown, execDlDown, hlink, if_true]

/-- A present port that is not held comes up at a rate and width that it has, once its PHY runs. -/
theorem linkUp_of_phyRuns {speed width : Nat} (hphy : phyRuns (s.upTo t) = true)
    (hpresent : (getPort (s.upTo t) p).present = true) (hperst : (getPort (s.upTo t) p).perst = false)
    (hok : linkOk p speed width = true) :
    exec (.linkUp p speed width t) s =
      .next (modPort (s.upTo t) p fun x => { x with linkUp := true, speed := speed, width := width }) := by
  simp only [exec_linkUp, execLinkUp, hphy, hpresent, hperst, hok, Bool.not_false, Bool.and_self, if_true]

theorem linkRetrain_of_linkUp {speed width : Nat} (hlink : (getPort (s.upTo t) p).linkUp = true)
    (hok : linkOk p speed width = true) :
    exec (.linkRetrain p speed width t) s =
      .next (modPort (s.upTo t) p fun x => { x with speed := speed, width := width }) := by
  simp only [exec_linkRetrain, execLinkRetrain, hlink, hok, Bool.and_self, if_true]

end

/-! Correctable errors (Table 04-12) -/

/-- An AER report changes its function's registers and what leaves the device. -/
theorem aer_frame (s : State) (fn : Nat) (k : AerKind) : ∃ f o, aer s fn k = { s with fns := f, out := o } := by
  unfold aer
  dsimp only
  split
  · exact ⟨_, _, rfl⟩
  · exact ⟨_, _, rfl⟩

theorem linkCorrectableError_of_linkUp {s : State} {p : PortId} (hopen : isOpen s = true)
    (hlink : (getPort s p).linkUp = true) :
    exec (.linkCorrectableError p) s = .next (aer (aer s (adminOf p) .correctable) (pf1Of p) .correctable) := by
  simp only [exec_linkCorrectableError, execLinkCorrectableError, hopen, hlink, Bool.and_self, if_true]

/-- Settles O16: each row's case is one of the lemmas above; PERST_DEASSERT has no guard. -/
theorem linkAndPortEventsAct : Obligations.LinkAndPortEventsAct := by
  refine ⟨?assert, fun s p t => exec_perstDeassert p t s, ?down, ?up, ?retrain, ?correctable⟩
  case assert =>
    intro s p t v hpresent hperst
    exact perstAssert_of_released hpresent hperst
  case down =>
    intro s p t u hlink
    exact dlDown_of_linkUp hlink
  case up =>
    intro s p speed width t u hphy hpresent hperst hok
    exact linkUp_of_phyRuns hphy hpresent hperst hok
  case retrain =>
    intro s p speed width t u hlink hok
    exact linkRetrain_of_linkUp hlink hok
  case correctable =>
    intro s p hopen hlink
    obtain ⟨f, o, hpf0⟩ := aer_frame s (adminOf p) .correctable
    obtain ⟨f', o', hpf1⟩ := aer_frame (aer s (adminOf p) .correctable) (pf1Of p) .correctable
    refine ⟨_, linkCorrectableError_of_linkUp hopen hlink, rfl, ?_⟩
    rw [hpf1, hpf0]

end Sys2Proof.Laws
end

section
/-!
PROOFS. The block at reset (spec 03 Table 03-9, 04, 05, 18, 22).
-/

namespace Sys2Proof.Laws

open Machine

/-! What the tables read at reset -/

theorem getSlot_reset (k : SlotId) : getSlot State.reset k = {} := rfl

theorem getDom_reset {d : Nat} (hd : d < 72) : getDom State.reset d = {} := by
  change (List.replicate 72 ({} : Domain)).getD d {} = {}
  rw [List.getD_eq_getElem?_getD, List.getElem?_replicate_of_lt hd, Option.getD_some]

theorem eq_default_of_mem_parts_reset {p : Partition} (hp : p ∈ State.reset.fabric.parts) : p = {} :=
  List.eq_of_mem_replicate hp

/-- Settles O2: a field reads its default; slots, domains and partitions by the lemmas above. -/
theorem resetLeavesTheBlockHeld : Obligations.ResetLeavesTheBlockHeld := by
  have hslots (k : SlotId) : (getSlot State.reset k).st = .idle ∧ (getSlot State.reset k).seq = 0#32 ∧
      (getSlot State.reset k).cause = 0 ∧ (getSlot State.reset k).goLost = false := by
    rw [getSlot_reset]
    exact ⟨rfl, rfl, rfl, rfl⟩
  have hdoms (d : Nat) (hd : d < 72) : (getDom State.reset d).policy = .auto := by rw [getDom_reset hd]
  have hparts (p : Partition) (hp : p ∈ State.reset.fabric.parts) :
      p.cfg.en = false ∧ p.cfg.windowUs = 100 ∧ p.cfg.budget = 1 := by
    rw [eq_default_of_mem_parts_reset hp]
    exact ⟨rfl, rfl, rfl⟩
  exact ⟨rfl, rfl, rfl, rfl, hslots, rfl, rfl, rfl, rfl, rfl, rfl, rfl, rfl, rfl, rfl, rfl, rfl, rfl, hdoms, rfl, hparts,
    rfl, rfl, rfl, rfl, rfl, rfl, rfl, rfl, rfl, rfl, rfl⟩

end Sys2Proof.Laws
end

section
/-!
PROOFS. Start-up (spec 03): one lemma says what a row does where its guard holds; the statement is assembled from them.
-/

namespace Sys2Proof.Laws

open Machine

/-! The rows, by their meanings -/

theorem exec_resetNAssert (s : State) : exec .resetNAssert s = execResetNAssert s := rfl

theorem exec_resetNRise (straps : Straps) (s : State) : exec (.resetNRise straps) s = execResetNRise straps s := rfl

theorem exec_brownOut (rail : Rail) (s : State) : exec (.brownOut rail) s = execBrownOut rail s := rfl

theorem exec_brownOutRelease (straps : Straps) (s : State) :
    exec (.brownOutRelease straps) s = execBrownOutRelease straps s := rfl

theorem exec_metronomeLock (checks : StartChecks) (s : State) :
    exec (.metronomeLock checks) s = execMetronomeLock checks s := rfl

theorem exec_metronomeLockTimeout (s : State) : exec .metronomeLockTimeout s = execMetronomeLockTimeout s := rfl

theorem exec_lpddrTrainingDone (failed density ranks : BitVec 16) (t : Stamp) (s : State) :
    exec (.lpddrTrainingDone failed density ranks t) s = execLpddrTrainingDone failed density ranks t s := rfl

theorem exec_warmResetComplete (checks : StartChecks) (failed : BitVec 16) (t : Stamp) (s : State) :
    exec (.warmResetComplete checks failed t) s = execWarmResetComplete checks failed t s := rfl

section
variable {s : State}

/-! RESET_N and brown-outs (R107, R108, R117, R128, R964) -/

/-- A brown-out and its release with RESET_N low keep their phase through a power-on reset; every other phase is held. -/
theorem resetNAssert_powerOn (s : State) :
    ∃ ph, exec .resetNAssert s = .next (powerOn s ph false) ∧
      (s.life.phase ≠ .brownOut → s.life.phase ≠ .releasedLow → ph = .held) := by
  refine ⟨_, exec_resetNAssert s, fun hbrown hreleased => ?_⟩
  split
  · exact absurd ‹_› hbrown
  · exact absurd ‹_› hreleased
  · rfl

theorem resetNRise_of_low (hlow : s.life.pins.resetN = false) (hphase : s.life.phase ≠ .brownOut) (straps : Straps) :
    exec (.resetNRise straps) s = .next (beginStart
      { s with
        life := { s.life with pins := { s.life.pins with resetN := true } }
        jtag := { s.jtag with balls := .system } } straps) := by
  -- The phase is not the brown-out's, so the match takes its other arm.
  simp only [exec_resetNRise, execResetNRise, hlow, Bool.false_eq_true, if_false]

theorem brownOut_of_high (hhigh : s.life.pins.resetN = true) (hphase : s.life.phase ≠ .brownOut) (rail : Rail) :
    exec (.brownOut rail) s = .next (let v := powerOn s .brownOut true
      { v with life := { v.life with brownFlag := true } }) := by
  simp only [exec_brownOut, execBrownOut, hhigh, bne_iff_ne.2 hphase, Bool.and_self, if_true]

theorem brownOutRelease_of_brownOut (hphase : s.life.phase = .brownOut) (straps : Straps) :
    exec (.brownOutRelease straps) s = .next (if s.life.pins.resetN then beginStart s straps
      else { s with life := { s.life with phase := .releasedLow } }) := by
  simp only [exec_brownOutRelease, execBrownOutRelease, hphase, beq_self_eq_true, if_true]

/-! The lock of the Metronome (R95, R120, R126, R128) -/

/-- The state at the lock: the count starts from 0, and no record or start status is left. -/
def lockedAt (s : State) : State :=
  { s with
    err := {}, metro := { now := 0, running := true }, life := { s.life with lockFailed := false, startStatus := 0 } }

theorem metronomeLock_of_failed {checks : StartChecks} {code : Nat} (hphase : s.life.phase = .awaitLock)
    (hlost : s.metro.lost = false) (hcheck : failedCheck checks = some code) :
    exec (.metronomeLock checks) s = .next (faultEdge s (fatal (lockedAt s) code)) := by
  simp only [exec_metronomeLock, execMetronomeLock, hphase, hlost, hcheck, beq_self_eq_true, Bool.not_false, Bool.and_self,
    if_true, lockedAt]

theorem metronomeLock_of_passed {checks : StartChecks} (hphase : s.life.phase = .awaitLock)
    (hlost : s.metro.lost = false) (hcheck : failedCheck checks = none) :
    exec (.metronomeLock checks) s = .next (let v := installBoot (lockedAt s)
      { v with life := { v.life with phase := .awaitTraining, pins := { v.life.pins with ddrReset := true } } }) := by
  simp only [exec_metronomeLock, execMetronomeLock, hphase, hlost, hcheck, beq_self_eq_true, Bool.not_false, Bool.and_self,
    if_true, lockedAt]

theorem metronomeLockTimeout_of_awaitLock (hphase : s.life.phase = .awaitLock) :
    exec .metronomeLockTimeout s =
      .next (faultEdge s { s with life := { s.life with lockFailed := true, startStatus := 0x01 } }) := by
  simp only [exec_metronomeLockTimeout, execMetronomeLockTimeout, hphase, beq_self_eq_true, if_true]

/-! LPDDR training (R333) -/

/-- The channels in service agree on a property: none of them has it, or all of them. -/
theorem unequal_eq_false_iff {x : BitVec 16} :
    unequal s x = false ↔ x &&& channelMask s = 0#16 ∨ x &&& channelMask s = channelMask s := by
  simp only [unequal, Bool.and_eq_false_iff, bne_eq_false_iff_eq]

/-- Training marks the channels that failed where all agree on density and ranks, and every channel otherwise. -/
theorem trainFailed_eq (failed density ranks : BitVec 16) :
    trainFailed s failed density ranks =
      if (density &&& channelMask s = 0#16 ∨ density &&& channelMask s = channelMask s) ∧
          (ranks &&& channelMask s = 0#16 ∨ ranks &&& channelMask s = channelMask s)
      then failed &&& channelMask s else channelMask s := by
  simp only [← unequal_eq_false_iff, trainFailed]
  cases unequal s density <;> cases unequal s ranks <;> rfl

/-- The state in which training ends with some channels marked: the ports open. -/
def trainedState (u : State) (bad density ranks : BitVec 16) : State :=
  { u with
    lpddr := { u.lpddr with
      density2g := density &&& channelMask u == channelMask u, ranks2 := ranks &&& channelMask u == channelMask u
      trainFail := bad, inService := bad == 0#16 }
    life := { u.life with
      phase := .opened, startStatus := if bad = 0#16 then 0 else 0x10
      devCause := if u.life.brownFlag then 1 else 0, brownFlag := false } }

/-- With the administration pin low there is no STRAP_CONFLICT to record. -/
theorem lpddrTrainingDone_of_awaitTraining {t : Stamp} (hphase : (s.upTo t).life.phase = .awaitTraining)
    (htimed : timed (s.upTo t) = true) (hadmin : (s.upTo t).life.straps.adminSel = false)
    (failed density ranks : BitVec 16) :
    let bad := trainFailed (s.upTo t) failed density ranks
    let v := trainedState (s.upTo t) bad density ranks
    exec (.lpddrTrainingDone failed density ranks t) s =
      .next (faultEdge (s.upTo t) (if bad = 0#16 then v else pushRecord v (trainFailRec v))) := by
  have hstraps (v : State) (b : BitVec 16) :
      (if b = 0#16 then v else pushRecord v (trainFailRec v)).life.straps = v.life.straps := by
    split
    · rfl
    · rfl
  simp only [exec_lpddrTrainingDone, execLpddrTrainingDone, hphase, htimed, hstraps, hadmin, beq_self_eq_true,
    Bool.and_self, Bool.false_and, Bool.false_eq_true, if_true, if_false, trainedState]

/-! The end of a warm reset (R120, R126, R130) -/

theorem warmResetComplete_of_failed {checks : StartChecks} {failed : BitVec 16} {t : Stamp} {w : WarmReset} {code : Nat}
    (hwarm : (s.upTo t).life.warm = some w) (hforfeits : (s.upTo t).forfeits.isEmpty = true)
    (hcheck : failedCheck checks = some code) :
    exec (.warmResetComplete checks failed t) s = .next (faultEdge (s.upTo t)
      (fatal { s.upTo t with lock := { (s.upTo t).lock with sepia := false, sepiaOut := false } } code)) := by
  simp only [exec_warmResetComplete, execWarmResetComplete, hwarm, hforfeits, hcheck, Bool.not_true, Bool.false_eq_true,
    if_false]

/-- A record that is pushed unless a condition holds changes the records detected and the Mordant's inputs alone. -/
theorem pushUnless_frame (c : Bool) (v : State) (r : ErrRec) :
    ∃ e l, (if c = true then v else pushRecord v r) = { v with err := e, lock := l } := by
  cases c with
  | true => exact ⟨v.err, v.lock, rfl⟩
  | false => exact ⟨_, _, rfl⟩

/-- A warm reset whose checks pass clears the units' work, keeps contexts and queues, and ends. -/
theorem warmResetComplete_of_passed {checks : StartChecks} {failed : BitVec 16} {t : Stamp} {w : WarmReset}
    (hwarm : (s.upTo t).life.warm = some w) (hforfeits : (s.upTo t).forfeits.isEmpty = true)
    (hcheck : failedCheck checks = none) :
    ∃ v, exec (.warmResetComplete checks failed t) s = .next (ibiCause (faultEdge (s.upTo t)
        (warmSlots v (w.causes.filterMap fun c => match c with
          | .admin k => some k
          | .i3c => none))) 4) ∧
      v.life.warm = none ∧ v.cores = {} ∧ v.madders = {} ∧ v.gfx = {} ∧ v.xfer = {} ∧
      v.ctxs = (s.upTo t).ctxs ∧ v.queues = (s.upTo t).queues ∧ v.i3c.busy = false := by
  rw [exec_warmResetComplete, execWarmResetComplete]
  simp only [hwarm, hforfeits, hcheck, Bool.not_true, Bool.false_eq_true, if_false]
  refine ⟨_, rfl, ?_⟩
  obtain ⟨e, l, hpush⟩ := pushUnless_frame _ _ _
  rw [hpush]
  exact ⟨rfl, rfl, rfl, rfl, rfl, rfl, rfl, rfl⟩

end

/-- Settles O13: each row's case is one of the lemmas above. -/
theorem startUpEventsAct : Obligations.StartUpEventsAct := by
  refine ⟨resetNAssert_powerOn, ?rise, ?brownOut, ?release, ?lock, ?timeout, ?training, ?warm⟩
  case rise =>
    intro s straps hlow hphase
    exact resetNRise_of_low hlow hphase straps
  case brownOut =>
    intro s rail hhigh hphase
    exact brownOut_of_high hhigh hphase rail
  case release =>
    intro s straps hphase
    exact brownOutRelease_of_brownOut hphase straps
  case lock =>
    intro s checks hphase hlost v
    exact ⟨fun code => metronomeLock_of_failed hphase hlost, metronomeLock_of_passed hphase hlost⟩
  case timeout =>
    intro s hphase
    exact metronomeLockTimeout_of_awaitLock hphase
  case training =>
    intro s failed density ranks t u hphase htimed hadmin m same bad v
    have hbad : trainFailed u failed density ranks = bad := trainFailed_eq failed density ranks
    rw [lpddrTrainingDone_of_awaitTraining hphase htimed hadmin, hbad]
    rfl
  case warm =>
    intro s checks failed t w u hwarm hforfeits
    exact ⟨fun code => warmResetComplete_of_failed hwarm hforfeits, warmResetComplete_of_passed hwarm hforfeits⟩

end Sys2Proof.Laws
end

section
/-!
PROOFS. Context and queue commands (spec 05, 06): each row serves its command, which is what serving a mailbox row says of it.
-/

namespace Sys2Proof.Laws

open Machine

/-! The rows, by their meanings -/

theorem exec_ctxCreate (k : SlotId) (t : Stamp) (s : State) : exec (.ctxCreate k t) s = execCtxCreate k t s := rfl

theorem exec_ctxDestroy (k : SlotId) (t : Stamp) (s : State) : exec (.ctxDestroy k t) s = execCtxDestroy k t s := rfl

theorem exec_ctxReset (k : SlotId) (t : Stamp) (s : State) : exec (.ctxReset k t) s = execCtxReset k t s := rfl

theorem exec_ctxSet (k : SlotId) (t : Stamp) (s : State) : exec (.ctxSet k t) s = execCtxSet k t s := rfl

theorem exec_qCreate (k : SlotId) (t : Stamp) (s : State) : exec (.qCreate k t) s = execQCreate k t s := rfl

theorem exec_qDestroy (k : SlotId) (t : Stamp) (s : State) : exec (.qDestroy k t) s = execQDestroy k t s := rfl

theorem exec_qSet (k : SlotId) (t : Stamp) (s : State) : exec (.qSet k t) s = execQSet k t s := rfl

/-- Settles O22: each row serves its command; CTX_DESTROY and Q_DESTROY also go on. -/
theorem contextAndQueueCommandsAct : Obligations.ContextAndQueueCommandsAct := by
  refine ⟨?ctxCreate, ?ctxDestroy, ?endCtxDestroy, ?ctxReset, ?ctxSet, ?qCreate, ?qDestroy, ?endQDestroy, ?qSet⟩
  case ctxCreate => exact servedBy_of_mbxRow exec_ctxCreate
  case ctxDestroy => exact servedBy_of_mbxRow exec_ctxDestroy
  case endCtxDestroy => exact resumedBy_of_mbxRow exec_ctxDestroy
  case ctxReset => exact servedBy_of_mbxRow exec_ctxReset
  case ctxSet => exact servedBy_of_mbxRow exec_ctxSet
  case qCreate => exact servedBy_of_mbxRow exec_qCreate
  case qDestroy => exact servedBy_of_mbxRow exec_qDestroy
  case endQDestroy => exact resumedBy_of_mbxRow exec_qDestroy
  case qSet => exact servedBy_of_mbxRow exec_qSet

end Sys2Proof.Laws
end

section
/-!
PROOFS. Administration commands (spec 04, 05): each row serves its command; ADM_REVOKE by what it forfeits.
-/

namespace Sys2Proof.Laws

open Machine

/-! The rows, by their meanings -/

theorem exec_admGrant (k : SlotId) (t : Stamp) (s : State) : exec (.admGrant k t) s = execAdmGrant k t s := rfl

theorem exec_admRevoke (k : SlotId) (t : Stamp) (s : State) : exec (.admRevoke k t) s = execAdmRevoke k t s := rfl

theorem exec_admTenantReset (k : SlotId) (t : Stamp) (s : State) :
    exec (.admTenantReset k t) s = execAdmTenantReset k t s := rfl

theorem exec_admPartCfg (k : SlotId) (t : Stamp) (s : State) : exec (.admPartCfg k t) s = execAdmPartCfg k t s := rfl

theorem exec_admShareExport (k : SlotId) (t : Stamp) (s : State) :
    exec (.admShareExport k t) s = execAdmShareExport k t s := rfl

theorem exec_admShareImport (k : SlotId) (t : Stamp) (s : State) :
    exec (.admShareImport k t) s = execAdmShareImport k t s := rfl

theorem exec_admShareRevoke (k : SlotId) (t : Stamp) (s : State) :
    exec (.admShareRevoke k t) s = execAdmShareRevoke k t s := rfl

theorem exec_admPortShare (k : SlotId) (t : Stamp) (s : State) :
    exec (.admPortShare k t) s = execAdmPortShare k t s := rfl

/-! ADM_REVOKE (R214) -/

/-- The row runs a revoke wherever it starts. -/
theorem admRevoke_servedBy : servedBy .admRevoke 0x0101 anyCmd admRevokeCauses runRevoke :=
  servedBy_of_mbxRow exec_admRevoke

section
variable {s : State} {cmd : List Word}

/-- A revoke that forfeits no context completes with what the grant has left. -/
theorem runRevoke_of_noVictim (k : SlotId) (h : revokeVictims s cmd = []) :
    let g := revokeAfter (getFn s (argTenant cmd)).grant cmd
    runRevoke s k cmd =
      slotDone (modFn s (argTenant cmd) fun f => { f with grant := g }) k (grantWords g (argResource cmd)) := by
  simp only [runRevoke, h, List.isEmpty_nil, if_true]

/-- A revoke of a counted resource destroys its victims before it completes. -/
theorem runRevoke_of_counted (k : SlotId) (h : revokeVictims s cmd ≠ []) (hres : isMask (argResource cmd) = false) :
    let g := revokeAfter (getFn s (argTenant cmd)).grant cmd
    let w := modFn s (argTenant cmd) fun f => { f with grant := g }
    runRevoke s k cmd = startForfeit w ((revokeVictims s cmd).map .ctxDestroy)
      [(k, (getSlot w k).seq, grantWords g (argResource cmd))] := by
  simp only [runRevoke, List.isEmpty_eq_false_iff.2 h, hres, Bool.false_eq_true, if_false]

/-- A revoke by mask resets its victims before it completes; of a partition, they name none from now on. -/
theorem runRevoke_of_mask (k : SlotId) (h : revokeVictims s cmd ≠ []) (hres : isMask (argResource cmd) = true) :
    let g := revokeAfter (getFn s (argTenant cmd)).grant cmd
    let w := modFn s (argTenant cmd) fun f => { f with grant := g }
    let x := if argResource cmd = 5 then clearPartitions w (revokeVictims s cmd) else w
    runRevoke s k cmd = startForfeit x ((revokeVictims s cmd).map .revokeReset)
      [(k, (getSlot x k).seq, grantWords g (argResource cmd))] := by
  simp only [runRevoke, List.isEmpty_eq_false_iff.2 h, hres, Bool.false_eq_true, if_false, if_true]

end

/-- Settles O24: each row serves its command, and a share revoke also goes on; a revoke acts by its victims. -/
theorem administrationCommandsAct : Obligations.AdministrationCommandsAct := by
  refine ⟨?grant, ?revoke, ?tenantReset, ?partCfg, ?shareExport, ?shareImport, ?shareRevoke, ?endShareRevoke, ?portShare⟩
  case grant => exact servedBy_of_mbxRow exec_admGrant
  case revoke =>
    intro s k t u cmd v hserving g w words
    have hrun : exec (.admRevoke k t) s = .next (runRevoke v k cmd) := admRevoke_servedBy s k t hserving
    refine ⟨fun hnone => ?none, fun hsome hcount => ?counted, fun hsome hmask => ?mask⟩
    case none => rw [hrun, runRevoke_of_noVictim k hnone]
    case counted => rw [hrun, runRevoke_of_counted k hsome hcount]
    case mask => rw [hrun, runRevoke_of_mask k hsome hmask]
  case tenantReset => exact servedBy_of_mbxRow exec_admTenantReset
  case partCfg => exact servedBy_of_mbxRow exec_admPartCfg
  case shareExport => exact servedBy_of_mbxRow exec_admShareExport
  case shareImport => exact servedBy_of_mbxRow exec_admShareImport
  case shareRevoke => exact servedBy_of_mbxRow exec_admShareRevoke
  case endShareRevoke => exact resumedBy_of_mbxRow exec_admShareRevoke
  case portShare => exact servedBy_of_mbxRow exec_admPortShare

end Sys2Proof.Laws
end

section
/-!
PROOFS. Tags, completions and malformed TLPs (spec 04, R164 to R171, Table 04-12): one lemma says what a row does where its
guard holds; the statement is assembled from them.
-/

namespace Sys2Proof.Laws

open Machine

/-! The rows, by their meanings -/

theorem exec_tagGrant (n tag : Nat) (t : Stamp) (s : State) : exec (.tagGrant n tag t) s = execTagGrant n tag t s := rfl

theorem exec_completionRx (p : PortId) (tag : Nat) (status : CplRx) (bytes : List Byte) (t : Stamp) (s : State) :
    exec (.completionRx p tag status bytes t) s = execCompletionRx p tag status bytes t s := rfl

theorem exec_completionTimeout (n : Nat) (t : Stamp) (s : State) :
    exec (.completionTimeout n t) s = execCompletionTimeout n t s := rfl

theorem exec_tagQuarantineExpire (p : PortId) (tag : Nat) (t : Stamp) (s : State) :
    exec (.tagQuarantineExpire p tag t) s = execTagQuarantineExpire p tag t s := rfl

theorem exec_malformedTlp (p : PortId) (kind : TlpError) (header : BitVec 128) (t : Stamp) (s : State) :
    exec (.malformedTlp p kind header t) s = execMalformedTlp p kind header t s := rfl

/-- A function that masters the bus may issue over a link that is up and out of reset (R171). -/
theorem hostReady_of_linkUp {s : State} {p : PortId} {fn : Nat} (hbus : (getFn s fn).busMaster = true)
    (hlink : (getPort s p).linkUp = true) (hreset : (getPort s p).inReset = false) : hostReady s p fn = true := by
  simp only [hostReady, hbus, hlink, hreset, Bool.not_false, Bool.and_self]

/-! Grants (R164, R165, R171, R476) -/

section
variable {s : State} {n tag : Nat} {t : Stamp} {a : Access} {since : Stamp} {p : PortId} {fn addr : Nat}

section
variable (ha : getAccess (s.upTo t) n = some a) (hstage : a.stage = .waitTag since) (hhome : a.home = .host p fn addr)
  (hready : hostReady (s.upTo t) p fn = true) (hallowed : tagAllowed (s.upTo t) p tag a.pri = true)
  (hfree : tagTaken (s.upTo t) p tag = false) (hheld : tagsHeld (s.upTo t) fn < tagLimit (s.upTo t) fn)
  (hordered : ordered (s.upTo t) a = true) (halone : updateWaits (s.upTo t) n a = false)
include ha hstage hhome hready hallowed hfree hheld hordered halone

/-- A waiting read that a tag is granted to asks its host for its span. -/
theorem tagGrant_of_read (hkind : a.kind = .read) :
    exec (.tagGrant n tag t) s =
      .next (emit (modAccess (s.upTo t) n fun a => { a with stage := .onLink tag (s.upTo t).stamp })
        (.hostRead p fn tag (addr + a.hostSpan.1) a.hostSpan.2)) := by
  simp only [exec_tagGrant, execTagGrant, ha, hstage, hhome, hkind, hready, hallowed, hfree, hheld, hordered, halone,
    decide_true, Bool.not_false, Bool.and_self, if_true]

/-- A waiting atomic that a tag is granted to leaves as the AtomicOp of its first word. -/
theorem tagGrant_of_atomic {op : AtomOp} {wide : Bool} {off : Nat} {x y : Dword}
    {rest : List (Nat × Dword × Dword)}
    (hkind : a.kind = .atomic op wide ((off, x, y) :: rest)) :
    exec (.tagGrant n tag t) s =
      .next (emit (modAccess (s.upTo t) n fun a => { a with stage := .onLink tag (s.upTo t).stamp })
        (.hostAtomic p fn tag (addr + off) op x y)) := by
  simp only [exec_tagGrant, execTagGrant, ha, hstage, hhome, hkind, hready, hallowed, hfree, hheld, hordered, halone,
    decide_true, Bool.not_false, Bool.and_self, if_true]

end

/-! Completions and timeouts (R168, R169) -/

/-- A completion that is not poisoned adds its bytes and leaves what is poisoned as it was; the last one ends the request. -/
theorem takeCompletion_ok (u : State) (n : Nat) (a : Access) (bytes : List Byte) :
    let data := bytes.take (a.asked - a.got)
    let b : Access := { a with bytes := a.bytes ++ data, got := a.got + data.length }
    takeCompletion u n a bytes false =
      if b.asked ≤ b.got then endRequest (modAccess u n fun _ => b) n b else modAccess u n fun _ => b := rfl

section
variable (hacc : tagAccess (s.upTo t) p tag = some (n, a)) (hstage : a.stage = .onLink tag since)
  {q : PortId} (hhome : a.home = .host q fn addr)
include hacc hstage hhome

/-- Before its limit a completion is taken by its status. -/
theorem completionRx_of_inTime (htime : (s.upTo t).stamp < since + timeoutOf (s.upTo t) fn) (bytes : List Byte) :
    exec (.completionRx p tag .ok bytes t) s = .next (takeCompletion (s.upTo t) n a bytes false) ∧
    exec (.completionRx p tag .poisoned bytes t) s =
      .next (takeCompletion (aer (pushRecord (s.upTo t) (hostRec (s.upTo t) 0x0105 fn)) fn .poisonedTlp) n a bytes true) ∧
    exec (.completionRx p tag .badStatus bytes t) s =
      .next (endRequest (pushRecord (s.upTo t) (hostRec (s.upTo t) 0x0104 fn)) n a) := by
  simp only [exec_completionRx, execCompletionRx, hacc, hstage, hhome, htime, if_true, and_self]

/-- At its limit or after, a completion finds its request timed out and is late itself. -/
theorem completionRx_of_late (hlate : since + timeoutOf (s.upTo t) fn ≤ (s.upTo t).stamp) (status : CplRx)
    (bytes : List Byte) :
    exec (.completionRx p tag status bytes t) s = .next (lateCompletion (timeoutAccess (s.upTo t) n) p tag) := by
  simp only [exec_completionRx, execCompletionRx, hacc, hstage, hhome, Nat.not_lt.2 hlate, if_false]

end

/-- A completion for a tag that no access holds is late. -/
theorem completionRx_of_noAccess (hnone : tagAccess (s.upTo t) p tag = none) (status : CplRx) (bytes : List Byte) :
    exec (.completionRx p tag status bytes t) s = .next (lateCompletion (s.upTo t) p tag) := by
  simp only [exec_completionRx, execCompletionRx, hnone]

theorem completionTimeout_of_late (ha : getAccess (s.upTo t) n = some a) (hstage : a.stage = .onLink tag since)
    (hhome : a.home = .host p fn addr) (htimed : timed (s.upTo t) = true)
    (hlate : since + timeoutOf (s.upTo t) fn ≤ (s.upTo t).stamp) :
    exec (.completionTimeout n t) s = .next (timeoutAccess (s.upTo t) n) := by
  simp only [exec_completionTimeout, execCompletionTimeout, ha, hstage, hhome, htimed, hlate, decide_true, Bool.and_self,
    if_true]

end

/-! Quarantine (R169) -/

/-- The quarantined tag comes back to its port at its return, while the Metronome counts. -/
def quarantineEnds (u : State) (p : PortId) (tag : Nat) (q : Quarantine) : Bool :=
  timed u && q.port == p && q.tag == tag && q.returns ≤ u.stamp

theorem quarantineEnds_iff {u : State} {p : PortId} {tag : Nat} {q : Quarantine} :
    quarantineEnds u p tag q = true ↔ timed u = true ∧ q.port = p ∧ q.tag = tag ∧ q.returns ≤ u.stamp := by
  simp only [quarantineEnds, Bool.and_eq_true, beq_iff_eq, decide_eq_true_eq, and_assoc]

/-- An expiry takes the quarantines that end off the list and changes nothing else. -/
theorem tagQuarantineExpire_eq (p : PortId) (tag : Nat) (t : Stamp) (s : State) :
    let u := s.upTo t
    exec (.tagQuarantineExpire p tag t) s = .next { u with traffic := { u.traffic with
      quarantined := u.traffic.quarantined.filter fun q => !quarantineEnds u p tag q } } :=
  exec_tagQuarantineExpire p tag t s

/-! Malformed TLPs (Table 04-12) -/

/-- A TLP in error on a link that is up is recorded with its header and reported in its port's administration function. -/
theorem malformedTlp_of_linkUp {s : State} {p : PortId} {t : Stamp} (hopen : isOpen (s.upTo t) = true)
    (hlink : (getPort (s.upTo t) p).linkUp = true) (header : BitVec 128) :
    let v := pushRecord (s.upTo t) { portRec (s.upTo t) 0x0107 0 [.p] p with detail := header }
    exec (.malformedTlp p .malformed header t) s = .next (aer v (adminOf p) .malformed) ∧
    exec (.malformedTlp p .ecrc header t) s = .next (aer v (adminOf p) .ecrc) ∧
    exec (.malformedTlp p .overflow header t) s = .next (aer v (adminOf p) .receiverOverflow) := by
  simp only [exec_malformedTlp, execMalformedTlp, hopen, hlink, Bool.and_self, if_true, and_self]

/-- Settles O19: each row's case is one of the lemmas above. -/
theorem tagsAndCompletionsAct : Obligations.TagsAndCompletionsAct := by
  refine ⟨?read, ?atomic, ?inTime, ?late, ?noAccess, ?timeout, ?expire, ?malformed⟩
  case read =>
    intro s n tag t a since p fn addr u ha hstage hhome hkind hbus hlink hreset hallowed hfree hheld hordered halone
    have hready : hostReady u p fn = true := hostReady_of_linkUp hbus hlink hreset
    exact tagGrant_of_read ha hstage hhome hready hallowed hfree hheld hordered halone hkind
  case atomic =>
    intro s n tag t a since p fn addr op wide off x y rest u ha hstage hhome hkind hready hallowed hfree hheld hordered halone
    exact tagGrant_of_atomic ha hstage hhome hready hallowed hfree hheld hordered halone hkind
  case inTime =>
    intro s p tag bytes t n a since q fn addr u hacc hstage hhome htime data b
    obtain ⟨hok, hpoisoned, hbad⟩ := completionRx_of_inTime hacc hstage hhome htime bytes
    exact ⟨hok.trans (congrArg _ (takeCompletion_ok u n a bytes)), hpoisoned, hbad⟩
  case late =>
    intro s p tag status bytes t n a since q fn addr u hacc hstage hhome hlate
    exact completionRx_of_late hacc hstage hhome hlate status bytes
  case noAccess =>
    intro s p tag status bytes t u hnone
    exact completionRx_of_noAccess hnone status bytes
  case timeout =>
    intro s n t a tag since p fn addr u ha hstage hhome htimed hlate
    exact completionTimeout_of_late ha hstage hhome htimed hlate
  case expire =>
    intro s p tag t u
    refine ⟨_, tagQuarantineExpire_eq p tag t s, rfl, rfl, fun q => ?_⟩
    rw [List.mem_filter, Bool.not_eq_true', ← Bool.not_eq_true, quarantineEnds_iff]
  case malformed =>
    intro s p header t u hopen hlink
    exact malformedTlp_of_linkUp hopen hlink header

end Sys2Proof.Laws
end

section
/-!
PROOFS. The mailbox registers GO and ACK (spec 05, R193 to R197, R222, Table 05-15): one lemma says what a write to each does;
the statements about accepted, refused and ignored writes are assembled from them.
-/

namespace Sys2Proof.Laws

open Machine

/-! The rows, by their meanings -/

theorem exec_mbxGo (k : SlotId) (value : Word) (t : Stamp) (s : State) :
    exec (.mbxGo k value t) s = execMbxGo k value t s := rfl

theorem exec_mbxAck (k : SlotId) (value : Word) (t : Stamp) (s : State) :
    exec (.mbxAck k value t) s = execMbxAck k value t s := rfl

theorem exec_unknownCmd (k : SlotId) (t : Stamp) (s : State) : exec (.unknownCmd k t) s = execUnknownCmd k t s := rfl

/-! Causes -/

theorem leastNat_eq_min? (l : List Nat) : leastNat l = l.min? := by
  unfold leastNat
  induction l with
  | nil => rfl
  | cons x xs ih =>
    rw [leastBy, ih, List.min?_cons]
    cases xs.min? with
    | none => rfl
    | some y => exact (apply_ite some (x ≤ y) x y).symm

theorem leastNat_eq_some_iff {l : List Nat} {c : Nat} : leastNat l = some c ↔ c ∈ l ∧ ∀ d ∈ l, c ≤ d := by
  rw [leastNat_eq_min?, List.min?_eq_some_iff]

theorem mem_causesOf {l : List (Bool × Nat)} {c : Nat} : c ∈ causesOf l ↔ (true, c) ∈ l := by
  simp only [causesOf, List.mem_map, List.mem_filter, Prod.exists, exists_eq_right]

/-- The causes of the port are those of Table 05-15. -/
theorem mem_goCauses {s : State} {k : SlotId} {v : Slot} {value : Word} {c : Nat} :
    c ∈ goCauses s k v value ↔ goCauseApplies v (getFn s k.fn).suspended value c := by
  simp only [goCauses, mem_causesOf, goCauseApplies, List.mem_cons, List.not_mem_nil, or_false, Prod.mk.injEq, Bool.true_eq,
    beq_iff_eq, Bool.or_eq_true, And.comm]

/-! MBX_ACK (R192, R197) -/

section
variable {s : State} {k : SlotId} {value : Word} {t : Stamp}

theorem mbxAck_of_seq (hbar : barAnswers (s.upTo t) k.fn = true) (hslot : k.slot < slotCount k.fn)
    (hseq : (getSlot (s.upTo t) k).seq = value)
    (hst : (getSlot (s.upTo t) k).st = .done ∨ (getSlot (s.upTo t) k).st = .refused) :
    exec (.mbxAck k value t) s =
      .next (setSlot (s.upTo t) k { getSlot (s.upTo t) k with st := .stale, cause := 0 }) := by
  simp only [exec_mbxAck, execMbxAck, hbar, hslot, hseq, Bool.and_eq_true, Bool.or_eq_true,
    decide_eq_true_eq, hst, and_self, if_true]

/-- An ACK of another value, or at a slot that is neither DONE nor REFUSED, is ignored. -/
theorem mbxAck_of_no_match (h : (getSlot (s.upTo t) k).seq = value →
    ¬((getSlot (s.upTo t) k).st = .done ∨ (getSlot (s.upTo t) k).st = .refused)) :
    exec (.mbxAck k value t) s = .next (s.upTo t) := by
  rw [exec_mbxAck, execMbxAck, if_neg]
  simp only [Bool.and_eq_true, Bool.or_eq_true, decide_eq_true_eq]
  rintro ⟨⟨-, hseq⟩, hst⟩
  exact h hseq hst

/-! MBX_GO (R193 to R196) -/

/-- A GO to a slot of a function that answers is not dropped. -/
theorem not_goDropped {u : State} (hbar : barAnswers u k.fn = true) (hslot : k.slot < slotCount k.fn) :
    (!barAnswers u k.fn || decide (k.slot ≥ slotCount k.fn)) = false := by
  rw [hbar, decide_eq_false (Nat.not_le.2 hslot)]
  rfl

theorem mbxGo_of_accepted (hbar : barAnswers (s.upTo t) k.fn = true) (hslot : k.slot < slotCount k.fn)
    (hnone : leastNat (goCauses (s.upTo t) k (getSlot (s.upTo t) k) value) = none) :
    exec (.mbxGo k value t) s =
      let w := mordantInput (acceptGo (s.upTo t) k value) 0
      .next (if mordantServes w then refuseOverlapping w k else w) := by
  simp only [exec_mbxGo, execMbxGo, not_goDropped hbar hslot, hnone, Bool.false_eq_true, if_false]

theorem mbxGo_of_cause {c : Nat} (hbar : barAnswers (s.upTo t) k.fn = true) (hslot : k.slot < slotCount k.fn)
    (hcause : leastNat (goCauses (s.upTo t) k (getSlot (s.upTo t) k) value) = some c) :
    exec (.mbxGo k value t) s = .next (refuseGo (s.upTo t) k value c) := by
  simp only [exec_mbxGo, execMbxGo, not_goDropped hbar hslot, hcause, Bool.false_eq_true, if_false]

theorem unknownCmd_of_startable (hcode : cmdInfo (cmdCode (getSlot (s.upTo t) k).cmd) = none)
    (hstart : startable (s.upTo t) k = true) :
    exec (.unknownCmd k t) s = .next (slotRefuse (s.upTo t) k 0x01) := by
  simp only [exec_unknownCmd, execUnknownCmd, hcode, hstart, Option.isNone_none, Bool.and_self, if_true]

end

/-! A refused GO (R196, R222) -/

/-- The record of a refused GO (Table 18-4). -/
def goRefusedRec (s : State) (k : SlotId) (value : Word) (cause : Nat) : ErrRec :=
  { recOf s 0x0110 0 [.t] (some k.fn) with
    loc := { unit := .port, index := portNum (portOf k.fn) }, detail := detailOf k.slot value.toNat cause 0 }

/-- A refused GO changes GO_LOST and GO_CAUSE of its slot and adds its record, an input of the Mordant; nothing else. -/
theorem refuseGo_frame (s : State) (k : SlotId) (value : Word) (c : Nat) :
    refuseGo s k value c =
      { s with
        slots := tblSet s.slots k { getSlot s k with goLost := true, goCause := c }
        err := { s.err with detected := s.err.detected ++ [goRefusedRec s k value c] }
        lock := (mordantInput s 2).lock } := rfl

theorem getSlot_refuseGo (s : State) (k j : SlotId) (value : Word) (c : Nat) :
    getSlot (refuseGo s k value c) j =
      if k = j then { getSlot s k with goLost := true, goCause := c } else getSlot s j := by
  rw [refuseGo_frame]
  exact getSlot_setSlot s k j _

/-- The letter T names the window of the record's tenant alone. -/
theorem destOf_tenant {s : State} {fn : Nat} (h : isTenant s fn = true) : destOf s [.t] (some fn) none = { t := true } := by
  have hletter : [WinLetter.t].contains .t = true := rfl
  simp only [destOf, hletter, List.flatMap_cons, List.flatMap_nil, List.append_nil, List.any_nil, Option.map_some,
    Option.getD_some, h, Bool.and_self]

/-- Settles O8: the ACK matches no DONE or REFUSED slot. -/
theorem ignoredAckChangesNothing : Obligations.IgnoredAckChangesNothing := by
  intro s k value t u h
  refine mbxAck_of_no_match fun hseq hst => ?_
  rcases h with hne | hst' | hst' | hst'
  · exact hne hseq.symm
  all_goals
    rw [hst'] at hst
    rcases hst with hst | hst <;> cases hst

/-- Settles O9: the lowest cause of Table 05-15 is the one refused with, and a refused GO has its frame. -/
theorem refusedGoKeepsTheSlotAndHoldsTheLowestCause : Obligations.RefusedGoKeepsTheSlotAndHoldsTheLowestCause := by
  intro s k value t c u hbar hslot htenant hcause hleast
  have hlowest : leastNat (goCauses u k (getSlot u k) value) = some c :=
    leastNat_eq_some_iff.2 ⟨mem_goCauses.2 hcause, fun d hd => hleast d (mem_goCauses.1 hd)⟩
  refine ⟨refuseGo u k value c, goRefusedRec u k value c, mbxGo_of_cause hbar hslot hlowest, refuseGo_frame u k value c, ?slot,
    ?others, rfl, rfl, rfl, destOf_tenant htenant, rfl⟩
  case slot => rw [getSlot_refuseGo, if_pos rfl]
  case others =>
    intro j hj
    rw [getSlot_refuseGo, if_neg hj.symm]

/-- Settles O20: each case is one of the lemmas above. -/
theorem goAndAckMoveTheSlot : Obligations.GoAndAckMoveTheSlot := by
  refine ⟨?go, ?ack, ?unknown⟩
  case go =>
    intro s k value t u hbar hslot
    exact ⟨mbxGo_of_accepted hbar hslot, fun c => mbxGo_of_cause hbar hslot⟩
  case ack =>
    intro s k value t u hbar hslot hseq hst
    exact mbxAck_of_seq hbar hslot hseq hst
  case unknown =>
    intro s k t u hcode hstart
    exact unknownCmd_of_startable hcode hstart

end Sys2Proof.Laws
end

section
/-!
PROOFS. What BAR0 shows of the mailbox slots and of the error window (R192, R198, R801): each register of the two is read at
its offset.
-/

namespace Sys2Proof.Laws

open Machine

/-! Mailbox slots (Tables 05-1, 05-4) -/

theorem slotCount_le_eight (fn : Nat) : slotCount fn ≤ 8 := by
  unfold slotCount
  split <;> decide

/-- Word n of slot i is at byte 4 n of the slot's 64 bytes. -/
theorem readBar0_slotWord (s : State) {fn i n : Nat} (hi : i < slotCount fn) (hn : n < 16) :
    readBar0 s fn (0x1000 + 64 * i + 4 * n) = slotWord (getSlot s { fn := fn, slot := i }) n := by
  have hslot : (0x1000 + 64 * i + 4 * n - 0x1000) / 64 = i := by omega
  have hword : (0x1000 + 64 * i + 4 * n) % 64 / 4 = n := by omega
  have hin : (decide (0x1000 ≤ 0x1000 + 64 * i + 4 * n) &&
      decide (0x1000 + 64 * i + 4 * n < 0x1000 + 64 * slotCount fn)) = true := by
    simp only [Bool.and_eq_true, decide_eq_true_eq]
    omega
  unfold readBar0
  iterate 8 rw [if_neg (by omega)]
  rw [if_pos hin, hslot, hword]

theorem slotWord_of_body (v : Slot) {k : Nat} (hk : k < 8) : slotWord v k = v.body.getD k 0#32 := if_pos hk

theorem slotWord_of_result (v : Slot) {k : Nat} (hk : k < 6) : slotWord v (8 + k) = slotRes v k := by
  rw [slotWord, if_neg (by omega), if_pos (by omega), Nat.add_sub_cancel_left]

theorem slotWord_fifteen (v : Slot) : slotWord v 15 = v.seq := rfl

/-! The error window (Table 18-5) -/

/-- No mailbox slot reaches offset 0x2000. -/
theorem not_slotOffset (fn : Nat) {off : Nat} (hoff : 0x2000 ≤ off) :
    ¬(decide (0x1000 ≤ off) && decide (off < 0x1000 + 64 * slotCount fn)) = true := by
  have := slotCount_le_eight fn
  simp only [Bool.and_eq_true, decide_eq_true_eq]
  omega

theorem readBar0_errHeadSeq (s : State) (fn : Nat) :
    readBar0 s fn 0x2010 = regWord (((windowOf s fn).head?.map StoredRec.seq).getD 0) := by
  unfold readBar0
  iterate 8 rw [if_neg (by decide)]
  rw [if_neg (not_slotOffset fn (by decide))]
  iterate 3 rw [if_neg (by decide)]
  rw [if_pos rfl]

theorem readBar0_errRec (s : State) (fn : Nat) {k : Nat} (hk : k < 16) :
    readBar0 s fn (0x2040 + 4 * k) = errRecWord s fn k := by
  have hword : (0x2040 + 4 * k - 0x2040) / 4 = k := by omega
  have hin : (decide (0x2040 ≤ 0x2040 + 4 * k) && decide (0x2040 + 4 * k < 0x2080)) = true := by
    simp only [Bool.and_eq_true, decide_eq_true_eq]
    omega
  unfold readBar0
  iterate 8 rw [if_neg (by omega)]
  rw [if_neg (not_slotOffset fn (by omega))]
  iterate 4 rw [if_neg (by omega)]
  rw [if_pos hin, hword]

/-- Settles O12: each register is the word of the slot or of the window at its offset. -/
theorem registerReadsShowSlotsAndErrorWindow : Obligations.RegisterReadsShowSlotsAndErrorWindow := by
  refine ⟨?result, ?body, ?seq, ?record, ?head⟩
  case result =>
    intro s fn i k hi hk v
    have hoff : 0x1000 + 64 * i + 0x20 + 4 * k = 0x1000 + 64 * i + 4 * (8 + k) := by omega
    rw [hoff, readBar0_slotWord s hi (by omega), slotWord_of_result _ hk]
    rfl
  case body =>
    intro s fn i k hi hk
    rw [readBar0_slotWord s hi (by omega), slotWord_of_body _ hk]
  case seq =>
    intro s fn i hi
    exact (readBar0_slotWord s hi (n := 15) (by decide)).trans (slotWord_fifteen _)
  case record =>
    intro s fn k hk
    exact readBar0_errRec s fn hk
  case head =>
    intro s fn
    constructor
    · intro hnone
      rw [readBar0_errHeadSeq, hnone]
      rfl
    · intro r rest hsome
      rw [readBar0_errHeadSeq, hsome]
      rfl

end Sys2Proof.Laws
end

section
/-!
PROOFS. The commands that report (spec 05, 06): each row serves its command, which is what serving a mailbox row says of it.
-/

namespace Sys2Proof.Laws

open Machine

/-! The rows, by their meanings -/

theorem exec_nop (k : SlotId) (t : Stamp) (s : State) : exec (.nop k t) s = execNop k t s := rfl

theorem exec_tenantInfo (k : SlotId) (t : Stamp) (s : State) : exec (.tenantInfo k t) s = execTenantInfo k t s := rfl

theorem exec_admTenantInfo (k : SlotId) (t : Stamp) (s : State) :
    exec (.admTenantInfo k t) s = execAdmTenantInfo k t s := rfl

theorem exec_govGet (k : SlotId) (t : Stamp) (s : State) : exec (.govGet k t) s = execGovGet k t s := rfl

theorem exec_queryCtx (k : SlotId) (t : Stamp) (s : State) : exec (.queryCtx k t) s = execQueryCtx k t s := rfl

/-- Settles O21: each row serves its command; QUERY_CTX also goes on. -/
theorem reportingCommandsAnswer : Obligations.ReportingCommandsAnswer := by
  refine ⟨?nop, ?tenantInfo, ?admTenantInfo, ?govGet, ?queryCtx, ?endQueryCtx⟩
  case nop => exact servedBy_of_mbxRow exec_nop
  case tenantInfo => exact servedBy_of_mbxRow exec_tenantInfo
  case admTenantInfo => exact servedBy_of_mbxRow exec_admTenantInfo
  case govGet => exact servedBy_of_mbxRow exec_govGet
  case queryCtx => exact servedBy_of_mbxRow exec_queryCtx
  case endQueryCtx => exact resumedBy_of_mbxRow exec_queryCtx

end Sys2Proof.Laws
end

section
/-!
PROOFS. Doorbells, link words, torn chains and deadlines (spec 06): one lemma says what a row does where its guard holds; the
statement is assembled from them.
-/

namespace Sys2Proof.Laws

open Machine

/-! The rows, by their meanings -/

theorem exec_dbRing (fn db : Nat) (t : Stamp) (s : State) : exec (.dbRing fn db t) s = execDbRing fn db t s := rfl

theorem exec_linkWordArrive (q : QueueId) (t : Stamp) (s : State) :
    exec (.linkWordArrive q t) s = execLinkWordArrive q t s := rfl

theorem exec_tailPoll (q : QueueId) (t : Stamp) (s : State) : exec (.tailPoll q t) s = execTailPoll q t s := rfl

theorem exec_chainTorn (q : QueueId) (t : Stamp) (s : State) : exec (.chainTorn q t) s = execChainTorn q t s := rfl

theorem exec_deadlineMiss (q : QueueId) (t : Stamp) (s : State) :
    exec (.deadlineMiss q t) s = execDeadlineMiss q t s := rfl

/-! Bytes that a chain's reads bring (R249, R293) -/

theorem cleanBytes_of_poisoned {bs : List (Byte × Bool)} (h : bs.any Prod.snd = true) : cleanBytes bs = none := if_pos h

theorem cleanBytes_of_clean {bs : List (Byte × Bool)} (h : bs.any Prod.snd = false) :
    cleanBytes bs = some (bs.map Prod.fst) := if_neg (Bool.eq_false_iff.1 h)

section
variable {s : State} {q : QueueId} {t : Stamp} {r : Queue} {va : Nat}

/-! Doorbells (R256, R257, R261, R264, R292) -/

theorem dbRing_of_named {fn db : Nat} (hbar : barAnswers (s.upTo t) fn = true)
    (hdb : doorbellQueue (s.upTo t) fn db = some q) (hq : getQueue (s.upTo t) q = some r) (hst : r.st ≠ .error) :
    let v := modQueue (mordantInput (s.upTo t) 1) q fun r => { r with wait := r.wait.map fun w => { w with due := true } }
    exec (.dbRing fn db t) s = .next (settleQueue (modQueue v q fun r =>
      if r.deadline ≠ 0 && r.sub.isNone then
        { r with latched := true, sub := some (v.stamp + r.deadline), subMissed := false, missed := false }
      else { r with latched := true }) q) := by
  simp only [exec_dbRing, execDbRing, hbar, hdb, hq, hst, Bool.not_true, Bool.false_eq_true, if_false]

/-! Link words (R249, R250, R255, R259, R293) -/

/-- Nothing keeps a served queue with fewer than nine torn reads from reading its link word (R259). -/
theorem linkWord_readable (hserved : queueServed s q r = true) (htorn : r.torn < 9) :
    (!queueServed s q r || decide (r.torn ≥ 9)) = false := by
  rw [hserved, decide_eq_false (Nat.not_le.2 htorn)]
  rfl

section
variable (hq : getQueue (s.upTo t) q = some r) (hchain : r.chain = .linkRead va)
  (hserved : queueServed (s.upTo t) q r = true)
include hq hchain hserved

theorem linkWordArrive_of_wait {w : State} (htorn : r.torn < 9)
    (hread : engineRead (s.upTo t) (queueEngine (s.upTo t) q) .load va 16 = .wait w) :
    exec (.linkWordArrive q t) s = .next w := by
  simp only [exec_linkWordArrive, execLinkWordArrive, hq, hchain, linkWord_readable hserved htorn, hread, Bool.false_eq_true,
    if_false]

theorem linkWordArrive_of_fault {e : XFault} {a : Nat} (htorn : r.torn < 9)
    (hread : engineRead (s.upTo t) (queueEngine (s.upTo t) q) .load va 16 = .fault e a) :
    exec (.linkWordArrive q t) s = .next (chainFault (s.upTo t) q va (some e)) := by
  simp only [exec_linkWordArrive, execLinkWordArrive, hq, hchain, linkWord_readable hserved htorn, hread, Bool.false_eq_true,
    if_false]

theorem linkWordArrive_of_poisoned {bs : List (Byte × Bool)} (htorn : r.torn < 9)
    (hread : engineRead (s.upTo t) (queueEngine (s.upTo t) q) .load va 16 = .ready bs) (hbs : bs.any Prod.snd = true) :
    exec (.linkWordArrive q t) s = .next (chainFault (s.upTo t) q va none) := by
  simp only [exec_linkWordArrive, execLinkWordArrive, hq, hchain, linkWord_readable hserved htorn, hread,
    cleanBytes_of_poisoned hbs, Bool.false_eq_true, if_false]

/-- A clean link word is followed where its two GEN fields agree, and counted as torn where they do not. -/
theorem linkWordArrive_of_clean {bs : List (Byte × Bool)} (htorn : r.torn < 9)
    (hread : engineRead (s.upTo t) (queueEngine (s.upTo t) q) .load va 16 = .ready bs) (hbs : bs.any Prod.snd = false) :
    let v := useReads (s.upTo t) (.queue q)
    let n := leNat (bs.map Prod.fst)
    exec (.linkWordArrive q t) s =
      .next (if bitsNat n 31 0 ≠ bitsNat n 127 96 then tornLink v q else followLink v q va n) := by
  simp only [exec_linkWordArrive, execLinkWordArrive, hq, hchain, linkWord_readable hserved htorn, hread,
    cleanBytes_of_clean hbs, Bool.false_eq_true, if_false, apply_ite Host.Outcome.next]

theorem chainTorn_of_torn (htorn : 9 ≤ r.torn) :
    exec (.chainTorn q t) s = .next (chainError (s.upTo t) q 0x0200 va 0#32) := by
  simp only [exec_chainTorn, execChainTorn, hq, hchain, hserved, htorn, decide_true, Bool.and_self, if_true]

end

/-! Polls of a parked queue and deadlines (R258, R266) -/

theorem tailPoll_of_due (hq : getQueue (s.upTo t) q = some r) (hchain : r.chain = .atEnd va)
    (htimed : timed (s.upTo t) = true) (hserved : queueServed (s.upTo t) q r = true) (hst : r.st = .parked)
    (hdue : r.park + (r.polls + 1) * r.parkPoll * 1000 ≤ (s.upTo t).stamp) :
    exec (.tailPoll q t) s =
      .next (modQueue (s.upTo t) q fun r => { r with chain := .linkRead va, polls := r.polls + 1 }) := by
  simp only [exec_tailPoll, execTailPoll, hq, hchain, htimed, hserved, hst, hdue, decide_true, Bool.and_self,
    if_true]

theorem deadlineMiss_of_due {d : Stamp} (hq : getQueue (s.upTo t) q = some r) (hsub : r.sub = some d)
    (htimed : timed (s.upTo t) = true) (hmissed : r.subMissed = false) (hdue : d ≤ (s.upTo t).stamp) :
    exec (.deadlineMiss q t) s = .next (declareMiss (s.upTo t) q) := by
  simp only [exec_deadlineMiss, execDeadlineMiss, hq, hsub, htimed, hmissed, hdue, decide_true, Bool.not_false,
    Bool.and_self, if_true]

end

/-- Settles O44: each row's case is one of the lemmas above; a link word by what its read has come to. -/
theorem doorbellsAndLinkWordsMoveTheQueue : Obligations.DoorbellsAndLinkWordsMoveTheQueue := by
  refine ⟨?doorbell, ?linkWord, ?poll, ?torn, ?deadline⟩
  case doorbell =>
    intro s fn db t q r u hbar hdb hq hst
    exact dbRing_of_named hbar hdb hq hst
  case linkWord =>
    intro s q t r va u hq hchain hserved htorn
    refine ⟨fun w => linkWordArrive_of_wait hq hchain hserved htorn,
      fun e a => linkWordArrive_of_fault hq hchain hserved htorn, fun bs hread => ⟨?_, fun hbs hgen => ?_, fun hbs hgen => ?_⟩⟩
    · exact linkWordArrive_of_poisoned hq hchain hserved htorn hread
    · rw [linkWordArrive_of_clean hq hchain hserved htorn hread hbs, if_neg (not_not_intro hgen)]
    · rw [linkWordArrive_of_clean hq hchain hserved htorn hread hbs, if_pos hgen]
  case poll =>
    intro s q t r va u hq hchain htimed hserved hst hdue
    exact tailPoll_of_due hq hchain htimed hserved hst hdue
  case torn =>
    intro s q t r va u hq hchain hserved htorn
    exact chainTorn_of_torn hq hchain hserved htorn
  case deadline =>
    intro s q t r d u hq hsub htimed hmissed hdue
    exact deadlineMiss_of_due hq hsub htimed hmissed hdue

end Sys2Proof.Laws
end

section
/-!
PROOFS. The common packets (spec 06): the accesses of a FENCE and a SEM_RELEASE to their word, said once for both, and the rows
NOP, MARKER, FENCE and BAD_PACKET.
-/

namespace Sys2Proof.Laws

open Machine

/-! The rows, by their meanings -/

theorem exec_badPacket (q : QueueId) (t : Stamp) (s : State) : exec (.badPacket q t) s = execBadPacket q t s := rfl

/-- The rows of FENCE, each with its OP and the kind of its signal (Table 06-5). -/
def fenceRows : List ((QueueId → Stamp → Instr) × Nat × SignalKind) :=
  [(Instr.fenceWrite, 0, SignalKind.write), (Instr.fenceAdd, 1, .add), (Instr.fenceMax, 2, .max),
    (Instr.fenceStamp, 3, .stamp)]

theorem exec_of_mem_fenceRows {row : QueueId → Stamp → Instr} {op : Nat} {kind : SignalKind}
    (h : (row, op, kind) ∈ fenceRows) (q : QueueId) (t : Stamp) (s : State) :
    exec (row q t) s = .next (signalRow (s.upTo t) q 1 (fenceOp · == op) kind) := by
  simp only [fenceRows, List.mem_cons, List.not_mem_nil, or_false, Prod.mk.injEq] at h
  rcases h with ⟨rfl, rfl, rfl⟩ | ⟨rfl, rfl, rfl⟩ | ⟨rfl, rfl, rfl⟩ | ⟨rfl, rfl, rfl⟩
  all_goals rfl

theorem ne_release_of_mem_fenceRows {row : QueueId → Stamp → Instr} {op : Nat} {kind : SignalKind}
    (h : (row, op, kind) ∈ fenceRows) : kind ≠ .release := by
  simp only [fenceRows, List.mem_cons, List.not_mem_nil, or_false, Prod.mk.injEq] at h
  rintro rfl
  simp only [reduceCtorEq, and_false, or_self] at h

/-! A packet that wants nothing but its start -/

/-- A row that is nothing but a packet's starts it wherever it may. -/
theorem startsTo_of_packetRow {row : QueueId → Stamp → Instr} {type : Nat} {mine : List Byte → Bool}
    {hold : QueueId → State → List Byte → Option State} {f : State → QueueId → Pkt → List Byte → State}
    (hrow : ∀ s q t, exec (row q t) s = .next (packetRow (s.upTo t) q type mine (hold q) fun s p bs => f s q p bs)) :
    startsTo row type mine hold f := by
  intro s q t x hx
  rw [hrow, packetRow_of_starting hx]

/-! Signals: their start (R243, R244, R272) -/

/-- A row of a signal starts its packet where no signal of its kind is in progress. -/
theorem signalRow_of_starting {s : State} {q : QueueId} {t : Stamp} {type : Nat} {mine : List Byte → Bool}
    {kind : SignalKind} {x : Started} (hx : starting s q t type mine (visibleHold q) = some x)
    (hnone : ((getQueue (s.upTo t) q).bind Queue.signal).all (fun o => o.kind != kind) = true) :
    signalRow (s.upTo t) q type mine kind = useReads (startSignal x.s q x.p x.bytes kind) (.queue q) := by
  cases hsig : (getQueue (s.upTo t) q).bind Queue.signal with
  | none => simp only [signalRow, hsig, packetRow_of_starting hx]
  | some o =>
    have hkind : o.kind ≠ kind := by simpa only [hsig, Option.all_some, bne_iff_ne] using hnone
    simp only [signalRow, hsig, hkind, if_false, packetRow_of_starting hx]

/-- An access of a signal to a word that translates and whose port is up leaves for the word's home. -/
theorem sendSignal_of_translate {s : State} {q : QueueId} {o : SignalOp} {h : Home} {l : Leaf}
    (htr : translate s q.ctx o.va o.kind.need = .ok (h, l)) (hhome : homeGone s h = false)
    (kind : Home → (Nat → AccKind) × Bool) :
    sendSignal s q o kind = wordAccess s q (.signal q) h l o.va (kind h).1 (kind h).2 := by
  simp only [sendSignal, htr, hhome, Bool.false_eq_true, if_false]

/-- The signal with which a packet of a kind starts, at its word. -/
def startedSignal (p : Pkt) (bs : List Byte) (kind : SignalKind) (va : Nat) : SignalOp :=
  { pkt := p.num, kind := kind, va := va, value := BitVec.ofNat 64 (fieldAt bs 16 8), tries := 1 }

section
variable {s : State} {q : QueueId} {p : Pkt} {bs : List Byte} {h : Home} {l : Leaf}

/-- A FENCE at an aligned word that can be reached becomes the queue's signal, and its first access leaves. -/
theorem startSignal_of_fence {kind : SignalKind} (hkind : kind ≠ .release) (halign : vaAt bs 8 % 8 = 0)
    (htr : translate (putSignal s q (startedSignal p bs kind (vaAt bs 8))) q.ctx (vaAt bs 8) kind.need = .ok (h, l))
    (hhome : homeGone (putSignal s q (startedSignal p bs kind (vaAt bs 8))) h = false) :
    let o := startedSignal p bs kind (vaAt bs 8)
    startSignal s q p bs kind =
      wordAccess (putSignal s q o) q (.signal q) h l (vaAt bs 8) (signalStart s h o).1 (signalStart s h o).2 := by
  rw [startSignal, if_neg hkind, if_neg (not_not_intro halign),
    if_neg (by simp only [hkind, decide_false, Bool.false_and, Bool.false_eq_true, not_false_eq_true])]
  exact sendSignal_of_translate htr hhome _

/-- A SEM_RELEASE at an aligned word that may use AtomicOps becomes the queue's signal, and the read of its word leaves. -/
theorem startSignal_of_release (halign : fieldAt bs 8 8 % 8 = 0) (hatomic : noAtomic s q.ctx (fieldAt bs 8 8) = false)
    (htr : translate (putSignal s q (startedSignal p bs .release (fieldAt bs 8 8))) q.ctx (fieldAt bs 8 8) .atomic = .ok (h, l))
    (hhome : homeGone (putSignal s q (startedSignal p bs .release (fieldAt bs 8 8))) h = false) :
    let o := startedSignal p bs .release (fieldAt bs 8 8)
    startSignal s q p bs .release =
      wordAccess (putSignal s q o) q (.signal q) h l (fieldAt bs 8 8) (fun _ => .read) false := by
  rw [startSignal, if_pos rfl, if_neg (not_not_intro halign),
    if_neg (by simp only [hatomic, Bool.and_false, Bool.false_eq_true, not_false_eq_true])]
  exact sendSignal_of_translate htr hhome _

end

/-! Signals: the answers of their accesses (R243, R272, R277, R278) -/

/-- The signal in progress of the row's kind takes the answer of its access. -/
theorem signalRow_of_answered {s : State} {q : QueueId} {o : SignalOp} {n : Nat} {a : Access}
    (hsig : (getQueue s q).bind Queue.signal = some o) (hacc : accessOf s (.signal q) = some (n, a))
    (hserved : waitServed s q = true) (hstage : a.stage = .answered) (type : Nat) (mine : List Byte → Bool) :
    signalRow s q type mine o.kind = signalAnswered (removeAccess s n) q o a := by
  simp only [signalRow, hsig, if_true, stepSignal, hacc, hserved, hstage, beq_self_eq_true, Bool.and_self]

section
variable {s : State} {q : QueueId} {o : SignalOp} {a : Access}

theorem signalAnswered_write (hwrite : a.kind.isWrite = true) (hpoison : a.poison = false) :
    signalAnswered s q o a = completePkt s q o.pkt := by
  cases hkind : a.kind with
  | write bytes poison => simp only [signalAnswered, hkind, hpoison, Bool.false_eq_true, if_false]
  | _ => simp only [hkind, AccKind.isWrite, Bool.false_eq_true] at hwrite

section
variable (hclean : (answeredWord a o.va).2 = false)
include hclean

theorem signalAnswered_atomic {aop : AtomOp} {wide : Bool} {ws : List (Nat × Dword × Dword)}
    (hkind : a.kind = .atomic aop wide ws) (hcas : aop ≠ .cas) :
    signalAnswered s q o a = completePkt s q o.pkt := by
  cases aop with
  | cas => exact absurd rfl hcas
  | _ => simp only [signalAnswered, hkind, hclean, Bool.false_eq_true, if_false]

theorem signalAnswered_cas {wide : Bool} {ws : List (Nat × Dword × Dword)} (hkind : a.kind = .atomic .cas wide ws)
    (hfence : o.kind ≠ .release) : signalAnswered s q o a = stepMax s q o (answeredWord a o.va).1 := by
  simp only [signalAnswered, hkind, hclean, Bool.false_eq_true, if_false]

theorem signalAnswered_read (hkind : a.kind = .read) (hfence : o.kind ≠ .release) :
    signalAnswered s q o a = sendSignal s q o fun _ => (wordWrite (updatedWord o (answeredWord a o.va).1), true) := by
  simp only [signalAnswered, hkind, hclean, Bool.false_eq_true, if_false]

theorem signalAnswered_releaseRead (hkind : a.kind = .read) (hrelease : o.kind = .release) :
    signalAnswered s q o a = stepRelease s q o false (answeredWord a o.va).1 := by
  simp only [signalAnswered, hkind, hrelease, hclean, Bool.false_eq_true, if_false]

theorem signalAnswered_releaseCas {wide : Bool} {ws : List (Nat × Dword × Dword)}
    (hkind : a.kind = .atomic .cas wide ws) (hrelease : o.kind = .release) :
    signalAnswered s q o a = stepRelease s q o true (answeredWord a o.va).1 := by
  simp only [signalAnswered, hkind, hrelease, hclean, Bool.false_eq_true, if_false]

end
end

/-! Bad packets (R242, R293) -/

theorem badPacket_of_bad {s : State} {q : QueueId} {t : Stamp} {r : Queue} {va endVa : Nat} {h : Hdr} {bs : List Byte}
    (hq : getQueue (s.upTo t) q = some r) (hserved : queueServed (s.upTo t) q r = true) (hwait : r.wait = none)
    (hpkt : packetAt (s.upTo t) q = .packet va endVa h bs) (hbad : isBadPacket (s.upTo t) r va endVa h = true) :
    exec (.badPacket q t) s = .next (chainError (useReads (s.upTo t) (.queue q)) q 0x0202 va h.tag) := by
  simp only [exec_badPacket, execBadPacket, hq, hserved, hwait, hpkt, hbad, Option.isSome_none, Bool.not_true, Bool.or_self,
    Bool.false_eq_true, if_false, if_true]

/-- Settles O45: NOP and MARKER start; a FENCE starts its signal, and takes the answer by what its access does. -/
theorem commonPacketsCompleteWithTheirEffect : Obligations.CommonPacketsCompleteWithTheirEffect := by
  refine ⟨startsTo_of_packetRow fun _ _ _ => rfl, startsTo_of_packetRow fun _ _ _ => rfl, ?fence, ?bad⟩
  case fence =>
    intro row op kind hrow
    have hfence := ne_release_of_mem_fenceRows hrow
    refine ⟨?starts, ?answered⟩
    case starts =>
      intro s q t x h l hx hnone va o v halign htr hhome
      rw [exec_of_mem_fenceRows hrow, signalRow_of_starting hx hnone, startSignal_of_fence hfence halign htr hhome]
      rfl
    case answered =>
      intro s q t o n a u hsig hkind hacc hserved hstage v
      subst hkind
      rw [exec_of_mem_fenceRows hrow, signalRow_of_answered hsig hacc hserved hstage]
      refine ⟨fun hwrite _ hpoison => ?_, fun hclean => ⟨fun aop wide ws ha hcas => ?_, fun wide ws ha => ?_, fun ha => ?_⟩⟩
      · rw [signalAnswered_write hwrite hpoison]
      · rw [signalAnswered_atomic hclean ha hcas]
      · rw [signalAnswered_cas hclean ha hfence]
      · rw [signalAnswered_read hclean ha hfence]
  case bad =>
    intro s q t r va endVa h bs u hq hserved hwait hpkt hbad
    exact badPacket_of_bad hq hserved hwait hpkt hbad

end Sys2Proof.Laws
end

section
/-!
PROOFS. Waits and semaphores (spec 06): a WAIT and an acquire start, evaluate and end; a release swaps its word. One lemma says
what each case of a row does; the statement is assembled from them.
-/

namespace Sys2Proof.Laws

open Machine

/-! The rows, by their meanings -/

theorem exec_wait (q : QueueId) (t : Stamp) (s : State) : exec (.wait q t) s = execWait q t s := rfl

theorem exec_semAcquire (q : QueueId) (t : Stamp) (s : State) : exec (.semAcquire q t) s = execSemAcquire q t s := rfl

theorem exec_semRelease (q : QueueId) (t : Stamp) (s : State) :
    exec (.semRelease q t) s = .next (signalRow (s.upTo t) q 4 anyBytes .release) := rfl

theorem exec_waitReevaluate (q : QueueId) (t : Stamp) (s : State) :
    exec (.waitReevaluate q t) s = execWaitReevaluate q t s := rfl

theorem exec_waitTimeout (q : QueueId) (t : Stamp) (s : State) : exec (.waitTimeout q t) s = execWaitTimeout q t s := rfl

/-! The start of a wait (R245, R271, R273, R276) -/

theorem wait_of_starting {s : State} {q : QueueId} {t : Stamp} {x : Started}
    (hx : starting s q t 2 anyBytes anyTime = some x) (hgood : waitBad (vaAt x.bytes 8) x.bytes = false) :
    exec (.wait q t) s = .next (useReads (startWait x.s q x.p x.bytes (vaAt x.bytes 8) false) (.queue q)) := by
  simp only [exec_wait, execWait, packetRow_of_starting hx, hgood, Bool.false_eq_true, if_false]

theorem semAcquire_of_starting {s : State} {q : QueueId} {t : Stamp} {x : Started}
    (hx : starting s q t 3 anyBytes anyTime = some x) (hgood : waitBad (fieldAt x.bytes 8 8) x.bytes = false)
    (hheld : semsHeld x.s q.ctx < 16) (hatomic : noAtomic x.s q.ctx (fieldAt x.bytes 8 8) = false) :
    exec (.semAcquire q t) s = .next (useReads (startWait x.s q x.p x.bytes (fieldAt x.bytes 8 8) true) (.queue q)) := by
  simp only [exec_semAcquire, execSemAcquire, packetRow_of_starting hx, hgood, Nat.not_le.2 hheld, hatomic,
    Bool.false_eq_true, if_false]

/-! The evaluations of a wait (R246, R247, R271) -/

section
variable {s : State} {q : QueueId} {t : Stamp} {r : Queue} {w : WaitRec}

theorem waitReevaluate_of_waiting (hq : getQueue (s.upTo t) q = some r) (hwait : r.wait = some w)
    (hserved : waitServed (s.upTo t) q = true) :
    exec (.waitReevaluate q t) s = .next (stepWait (s.upTo t) q r w) := by
  simp only [exec_waitReevaluate, execWaitReevaluate, hq, hwait, hserved, if_true]

theorem waitTimeout_of_late (hq : getQueue (s.upTo t) q = some r) (hwait : r.wait = some w)
    (htimed : timed (s.upTo t) = true) (hserved : waitServed (s.upTo t) q = true) (hlate : inTime (s.upTo t) w = false) :
    exec (.waitTimeout q t) s = .next (wordError (s.upTo t) q w.pkt 0x0210 w.addr) := by
  simp only [exec_waitTimeout, execWaitTimeout, hq, hwait, htimed, hserved, hlate, Bool.not_false, Bool.and_self, if_true]

/-- With no access of its own in flight, a wait starts an evaluation. -/
theorem stepWait_of_idle (hacc : accessOf s (.wait q) = none) : stepWait s q r w = startEvaluation s q r w := by
  simp only [stepWait, hacc]

theorem stepWait_of_answered {n : Nat} {a : Access} (hacc : accessOf s (.wait q) = some (n, a))
    (hstage : a.stage = .answered) : stepWait s q r w = waitAnswered (removeAccess s n) q w a := by
  simp only [stepWait, hacc, hstage, beq_self_eq_true, if_true]

theorem startEvaluation_of_occasion {h : Home} {l : Leaf}
    (htr : translate s q.ctx w.addr (if w.sem then .atomic else .load) = .ok (h, l)) (hhome : homeGone s h = false)
    (hoccasion : waitOccasion s r w h = true) (hallowed : acquireRefused s q w = none) :
    startEvaluation s q r w = wordAccess (putWait s q { w with due := false, polls := pollsPassed s r w }) q (.wait q) h l
      w.addr (fun _ => .read) false := by
  simp only [startEvaluation, htr, hhome, hoccasion, hallowed, Bool.not_true, Bool.or_self, Bool.false_eq_true, if_false]

/-! The answers of a wait's accesses (R245, R247, R271) -/

/-- A free semaphore word has BROKEN (bit 63) clear. -/
theorem bitOf_63_of_semFree {v : Dword} (hfree : semFree v = true) : bitOf v 63 = false := by
  simp only [semFree, Bool.and_eq_true, Bool.not_eq_true'] at hfree
  exact hfree.2

section
variable {a : Access} (hclean : (answeredWord a w.addr).2 = false)
include hclean

theorem waitAnswered_of_condHolds (hsem : w.sem = false) (hcond : condHolds w (answeredWord a w.addr).1 = true)
    (htime : inTime s w = true) : waitAnswered s q w a = completePkt s q w.pkt := by
  simp only [waitAnswered, hclean, hsem, hcond, htime, Bool.not_false, Bool.and_self, Bool.false_eq_true, if_false, if_true]

theorem waitAnswered_of_semFree (hsem : w.sem = true) (hread : a.kind = .read)
    (hfree : semFree (answeredWord a w.addr).1 = true) (htime : inTime s w = true) :
    waitAnswered s q w a = takeSem s q w (answeredWord a w.addr).1 := by
  simp only [waitAnswered, hclean, hsem, hread, hfree, bitOf_63_of_semFree hfree, htime, bne_self_eq_false, Bool.not_true,
    Bool.false_and, Bool.and_self, Bool.false_eq_true, if_false, if_true]

/-- The compare-and-swap applied: the word it returned is the one it compared with. -/
theorem waitAnswered_of_swapped (hsem : w.sem = true) (hswap : a.kind ≠ .read)
    (hword : (answeredWord a w.addr).1 = w.compare) :
    waitAnswered s q w a = completePkt (holdSem s q.ctx w.addr) q w.pkt := by
  simp only [waitAnswered, hclean, hsem, bne_iff_ne.2 hswap, hword, decide_true, Bool.not_true, Bool.and_self,
    Bool.false_eq_true, if_false, if_true]

end
end

/-! The steps of a release (R272) -/

section
variable {s : State} {q : QueueId} {o : SignalOp} {v : Dword}

theorem stepRelease_of_holder (hholder : semHolder v = ownerCode q.ctx) :
    stepRelease s q o false v = sendSwap s q { o with compare := v } (semReleased v) := by
  simp only [stepRelease, hholder, Bool.false_and, Bool.false_eq_true, ne_eq, not_true_eq_false, if_false]

theorem stepRelease_of_swapped (hword : v = o.compare) :
    stepRelease s q o true v = completePkt (dropSem s q.ctx o.va) q o.pkt := by
  simp only [stepRelease, hword, decide_true, Bool.and_self, if_true]

end

/-- Settles O46: a packet starts to wait; an evaluation and a release go on by what their accesses have come to. -/
theorem waitsAndSemaphoresComplete : Obligations.WaitsAndSemaphoresComplete := by
  refine ⟨?wait, ?acquire, ?evaluate, ?answered, ?timeout, ?release, ?released⟩
  case wait =>
    intro s q t x hx hgood
    exact wait_of_starting hx hgood
  case acquire =>
    intro s q t x hx va hgood hheld hatomic
    exact semAcquire_of_starting hx hgood hheld hatomic
  case evaluate =>
    intro s q t r w h l u hq hwait hserved hacc htr hhome hoccasion hallowed
    rw [waitReevaluate_of_waiting hq hwait hserved, stepWait_of_idle hacc,
      startEvaluation_of_occasion htr hhome hoccasion hallowed]
  case answered =>
    intro s q t r w n a u hq hwait hserved hacc hstage v word hclean
    rw [waitReevaluate_of_waiting hq hwait hserved, stepWait_of_answered hacc hstage]
    refine ⟨fun hsem hcond htime => ?_, fun hsem hread hfree htime => ?_, fun hsem hswap hword => ?_⟩
    · rw [waitAnswered_of_condHolds hclean hsem hcond htime]
    · rw [waitAnswered_of_semFree hclean hsem hread hfree htime]
    · rw [waitAnswered_of_swapped hclean hsem hswap hword]
  case timeout =>
    intro s q t r w u hq hwait htimed hserved hlate
    exact waitTimeout_of_late hq hwait htimed hserved hlate
  case release =>
    intro s q t x h l hx hnone va o v halign hatomic htr hhome
    rw [exec_semRelease, signalRow_of_starting hx hnone, startSignal_of_release halign hatomic htr hhome]
    rfl
  case released =>
    intro s q t o n a u hsig hkind hacc hserved hstage v word hclean
    rw [exec_semRelease, ← hkind, signalRow_of_answered hsig hacc hserved hstage]
    refine ⟨fun hread hholder => ?_, fun wide ws hswap hword => ?_⟩
    · rw [signalAnswered_releaseRead hclean hread hkind, stepRelease_of_holder hholder]
    · rw [signalAnswered_releaseCas hclean hswap hkind, stepRelease_of_swapped hword]
      rfl

end Sys2Proof.Laws
end

section
/-!
PROOFS. The memory network interfaces (spec 07): reads and write-backs below and beyond the usable capacity, oscillator tracking,
refresh, and the sample of resident lines. One lemma says what each case of a row does; the statement is assembled from them.
-/

namespace Sys2Proof.Laws

open Machine

/-! The rows, by their meanings -/

theorem exec_lpddrRead (what : LpddrTarget) (ecc : List EccResult) (t : Stamp) (s : State) :
    exec (.lpddrRead what ecc t) s = execLpddrRead what ecc t s := rfl

theorem exec_lpddrWriteBack (n : Nat) (ecc vat : EccResult) (t : Stamp) (s : State) :
    exec (.lpddrWriteBack n ecc vat t) s = execLpddrWriteBack n ecc vat t s := rfl

theorem exec_oscTracking (ch : Nat) (ok : Bool) (t : Stamp) (s : State) :
    exec (.oscTracking ch ok t) s = execOscTracking ch ok t s := rfl

theorem lpddrRefresh_eq (s : State) (ch : Nat) (rfm : Bool) (t : Stamp) :
    exec (.lpddrRefresh ch rfm t) s = .next (s.upTo t) := rfl

theorem exec_linesResidentSample (t : Stamp) (s : State) :
    exec (.linesResidentSample t) s = execLinesResidentSample t s := rfl

section
variable {s : State} {t : Stamp}

/-! Reads (R336, R340, R341, R344, R375) -/

theorem lpddrRead_access {n pa : Nat} {a : Access} {at_ : Stamp} (hacc : getAccess (s.upTo t) n = some a)
    (hstage : a.stage = .filling at_) (hhome : a.home = .device pa) (hwrites : lineWrites (s.upTo t) pa = false)
    (ecc : List EccResult) :
    exec (.lpddrRead (.access n) ecc t) s = .next (readAccess (s.upTo t) n a pa at_ ecc) := by
  simp only [exec_lpddrRead, execLpddrRead, hacc, hstage, hhome, hwrites, Bool.false_eq_true, if_false]

/-- A read of a table or another structure is served below the usable bytes, and names no address at or above them. -/
theorem lpddrRead_table (s : State) (pa : Nat) (ecc : List EccResult) (t : Stamp) :
    exec (.lpddrRead (.table pa) ecc t) s =
      if usableBytes (s.upTo t) ≤ pa then .fault .noSuchAddress else .next (readStructure (s.upTo t) pa true ecc) := rfl

theorem lpddrRead_structure (s : State) (pa : Nat) (ecc : List EccResult) (t : Stamp) :
    exec (.lpddrRead (.structure_ pa) ecc t) s =
      if usableBytes (s.upTo t) ≤ pa then .fault .noSuchAddress else .next (readStructure (s.upTo t) pa false ecc) := rfl

theorem lpddrRead_zeroWord {word : Nat} (hword : word < poolBytes (s.upTo t) / 2 ^ 20) (n : Nat) (e : EccResult)
    (rest : List EccResult) :
    exec (.lpddrRead (.zeroWord word n) (e :: rest) t) s = .next (readZeroWord (s.upTo t) word n e) := by
  simp only [exec_lpddrRead, execLpddrRead, ge_iff_le, Nat.not_le.2 hword, if_false, List.headD_cons]

/-! Write-backs (R366, R391) -/

theorem lpddrWriteBack_of_due {n : Nat} {w : WriteBack} (hdue : writeBackDue (s.upTo t) n = some w) (ecc vat : EccResult) :
    let r := checkSent (s.upTo t) w vat
    exec (.lpddrWriteBack n ecc vat t) s =
      if usableBytes (s.upTo t) ≤ w.pa then .fault .noSuchAddress
      else .next (performWrite (ackWriteBack r.1 n) r.2 ecc) := by
  simp only [exec_lpddrWriteBack, execLpddrWriteBack, hdue, ge_iff_le]

/-! Oscillator tracking (R342) -/

/-- The guard of OSC_TRACKING: the channel is in service and this is a multiple of 100 ms. -/
theorem oscTracking_of_due {ch : Nat} (hopen : isOpen (s.upTo t) = true) (htimed : timed (s.upTo t) = true)
    (hserves : (s.upTo t).lpddr.inService = true) (hch : ch < channels (s.upTo t)) (hdue : t % 100000000 = 0)
    (hstamp : (s.upTo t).stamp = t) (ok : Bool) :
    let u := s.upTo t
    let m := BitVec.ofNat 16 (2 ^ ch)
    let v : State := { u with lpddr := { u.lpddr with trackFail := u.lpddr.trackFail ||| m } }
    exec (.oscTracking ch ok t) s =
      if ok then .next { u with lpddr := { u.lpddr with trackFail := u.lpddr.trackFail &&& ~~~m } }
      else .next (pushRecord v { deviceRec v 0x0313 0 [.d] with
        loc := { unit := .lpddr, index := ch }, detail := detailOf (ch * 256) 0 0 0 }) := by
  simp only [exec_oscTracking, execOscTracking, hopen, htimed, hserves, hch, hdue, hstamp, decide_true, beq_self_eq_true,
    Bool.and_self, if_true]

/-! The sample of resident lines (R284, R371) -/

theorem linesResidentSample_of_due (hserves : mordantServes (s.upTo t) = true) (htimed : timed (s.upTo t) = true)
    (hdue : t % 1000000 = 0) (hstamp : (s.upTo t).stamp = t) :
    let u := s.upTo t
    exec (.linesResidentSample t) s = .next { u with ctxs := u.ctxs.map fun e =>
      (e.1, { e.2 with linesResident := ownerCount u (ownerCode e.1), linesStamp := t }) } := by
  simp only [exec_linesResidentSample, execLinesResidentSample, hserves, htimed, hdue, hstamp, beq_self_eq_true,
    Bool.and_self, if_true]

end

/-! Words of the zero map (R341, R355, Table 07-8) -/

/-- The state in which a zero-map word read for an access is lost with a code, recorded for the access's tenant. -/
def lostZeroWord (s : State) (word n code : Nat) : State :=
  let who := (getAccess s n).bind Access.ctx
  loseZeroWord (detect (countUe s)
    (memRec s code (if who.isSome then [.t, .d] else [.d]) who 0 (reservedBase s + 32 * word))) word

section
variable {s : State} (hserves : s.lpddr.inService = true) (word n : Nat)
include hserves

theorem readZeroWord_good : readZeroWord s word n .good = s := by
  simp only [readZeroWord, hserves, Bool.not_true, Bool.false_eq_true, if_false]

theorem readZeroWord_corrected : readZeroWord s word n .corrected = countCe s (reservedBase s + 32 * word) := by
  simp only [readZeroWord, hserves, Bool.not_true, Bool.false_eq_true, if_false]

theorem readZeroWord_linkUncorrectable : readZeroWord s word n .linkUncorrectable = lostZeroWord s word n 0x0311 := by
  simp only [readZeroWord, lostZeroWord, hserves, Bool.not_true, Bool.false_eq_true, if_false]

theorem readZeroWord_uncorrectable (hecc : s.lpddr.ecc = true) :
    readZeroWord s word n .uncorrectable = lostZeroWord s word n 0x0310 := by
  simp only [readZeroWord, lostZeroWord, hserves, hecc, Bool.not_true, Bool.false_eq_true, if_false, if_true]

end

/-- Settles O50: each row's case is one of the lemmas above; an address is below the usable bytes or beyond them. -/
theorem memoryInterfacesServe : Obligations.MemoryInterfacesServe := by
  refine ⟨?access, ?structures, ?zeroWord, ?writeBack, ?tracking, lpddrRefresh_eq, ?sample⟩
  case access =>
    intro s n ecc t a at_ pa u hacc hstage hhome hwrites
    exact lpddrRead_access hacc hstage hhome hwrites ecc
  case structures =>
    intro s pa ecc t u
    rw [lpddrRead_table, lpddrRead_structure]
    exact ⟨fun hlow => ⟨if_neg (Nat.not_le.2 hlow), if_neg (Nat.not_le.2 hlow)⟩, fun hhigh => ⟨if_pos hhigh, if_pos hhigh⟩⟩
  case zeroWord =>
    intro s word n rest t u hword hserves pa who letters lost
    simp only [lpddrRead_zeroWord hword]
    rw [readZeroWord_good hserves, readZeroWord_corrected hserves, readZeroWord_linkUncorrectable hserves]
    refine ⟨rfl, rfl, rfl, fun hecc => ?_⟩
    rw [readZeroWord_uncorrectable hserves word n hecc]
    rfl
  case writeBack =>
    intro s k ecc vat t w u hdue
    rw [lpddrWriteBack_of_due hdue]
    exact ⟨fun hlow => if_neg (Nat.not_le.2 hlow), fun hhigh => if_pos hhigh⟩
  case tracking =>
    intro s ch t u hopen htimed hserves hch hdue hstamp
    exact ⟨oscTracking_of_due hopen htimed hserves hch hdue hstamp true,
      oscTracking_of_due hopen htimed hserves hch hdue hstamp false⟩
  case sample =>
    intro s t u hserves htimed hdue hstamp
    exact ⟨_, linesResidentSample_of_due hserves htimed hdue hstamp, rfl, rfl⟩

end Sys2Proof.Laws
end

section
/-!
PROOFS. What a command does to the queue of commands and to LPDDR (spec 03, 07). Five commands change the cells or the fuses;
every other one keeps them, by the law of its meaning. A power-on reset clears the cells, and a write at its memory NI is one
write of the memory controller to its own sector.
-/

namespace Sys2Proof.Laws

open Machine

/-- The commands that can change LPDDR cells: a write at its memory NI, and the two that cause a power-on reset. -/
def changesCells : Instr → Bool
  | .lpddrWriteBack .. => true
  | .resetNAssert => true
  | .brownOut _ => true
  | _ => false

/-- The commands that can change the fuses. -/
def changesFuses : Instr → Bool
  | .fuseProg .. => true
  | .fuseBlowDone _ => true
  | _ => false

/-! Commands that keep the queue, the fuses and the cells -/

/-- Every command outside the five keeps the queue of commands, the fuses and the LPDDR cells, as its meaning does. -/
theorem exec_kept (c : Instr) (s : State) (hcells : changesCells c = false) (hfuses : changesFuses c = false) :
    KeptOut s (exec c s) := by
  have h0 := Kept.refl s
  cases c with
  | lpddrWriteBack | resetNAssert | brownOut => cases hcells
  | fuseProg | fuseBlowDone => cases hfuses
  | registerWrite => exact execRegisterWrite_kept _ _ _ _ _ _ _ _ h0
  | resetNRise => exact execResetNRise_kept _ _ h0
  | brownOutRelease => exact execBrownOutRelease_kept _ _ h0
  | metronomeLock => exact execMetronomeLock_kept _ _ h0
  | metronomeLockTimeout => exact execMetronomeLockTimeout_kept _ h0
  | lpddrTrainingDone => exact execLpddrTrainingDone_kept _ _ _ _ _ h0
  | warmResetComplete => exact execWarmResetComplete_kept _ _ _ _ h0
  | domainIdleOff => exact execDomainIdleOff_kept _ _ _ h0
  | domainWake => exact execDomainWake_kept _ _ _ h0
  | domainOffDone => exact execDomainOffDone_kept _ _ _ h0
  | forceOffDrained => exact execForceOffDrained_kept _ _ _ h0
  | crystalLoss => exact execCrystalLoss_kept _ _ h0
  | crystalReturn => exact execCrystalReturn_kept _ h0
  | thermtrip => exact execThermtrip_kept _ h0
  | sensorRefresh => exact execSensorRefresh_kept _ _ _ h0
  | governorSample => exact execGovernorSample_kept _ _ _ _ _ h0
  | governorOutput => exact execGovernorOutput_kept _ _ _ h0
  | spmiFrameDone => exact execSpmiFrameDone_kept _ _ _ h0
  | govSaturation => exact execGovSaturation_kept _ _ h0
  | govFlagClear => exact execGovFlagClear_kept _ _ _ _ h0
  | metroLoRead => exact execMetroLoRead_kept _ _ _ _ h0
  | perstAssert => exact execPerstAssert_kept _ _ _ h0
  | perstDeassert => exact execPerstDeassert_kept _ _ _ h0
  | dlDown => exact execDlDown_kept _ _ _ h0
  | linkUp => exact execLinkUp_kept _ _ _ _ _ h0
  | linkRetrain => exact execLinkRetrain_kept _ _ _ _ _ h0
  | configRequest => exact execConfigRequest_kept _ _ _ _ h0
  | numvfsWrite => exact execNumvfsWrite_kept _ _ _ _ h0
  | vfEnableSet => exact execVfEnableSet_kept _ _ _ h0
  | vfReady => exact execVfReady_kept _ _ _ h0
  | vfEnableClear => exact execVfEnableClear_kept _ _ _ h0
  | flrInitiate => exact execFlrInitiate_kept _ _ _ h0
  | flrComplete => exact execFlrComplete_kept _ _ _ h0
  | d3hotEnter => exact execD3hotEnter_kept _ _ _ h0
  | d3hotExit => exact execD3hotExit_kept _ _ _ h0
  | busMasterEnable => exact execBusMasterEnable_kept _ _ _ h0
  | msixUnmask => exact execMsixUnmask_kept _ _ _ _ h0
  | bar2Read => exact execBar2Read_kept _ _ _ _ _ h0
  | bar2Write => exact execBar2Write_kept _ _ _ _ _ _ h0
  | tagGrant => exact execTagGrant_kept _ _ _ _ h0
  | completionRx => exact execCompletionRx_kept _ _ _ _ _ _ h0
  | completionTimeout => exact execCompletionTimeout_kept _ _ _ h0
  | tagQuarantineExpire => exact execTagQuarantineExpire_kept _ _ _ _ h0
  | malformedTlp => exact execMalformedTlp_kept _ _ _ _ _ h0
  | mbxGo => exact execMbxGo_kept _ _ _ _ h0
  | mbxAck => exact execMbxAck_kept _ _ _ _ h0
  | nop => exact execNop_kept _ _ _ h0
  | tenantInfo => exact execTenantInfo_kept _ _ _ h0
  | ctxCreate => exact execCtxCreate_kept _ _ _ h0
  | ctxDestroy => exact execCtxDestroy_kept _ _ _ h0
  | ctxReset => exact execCtxReset_kept _ _ _ h0
  | ctxSet => exact execCtxSet_kept _ _ _ h0
  | qCreate => exact execQCreate_kept _ _ _ h0
  | qDestroy => exact execQDestroy_kept _ _ _ h0
  | qSet => exact execQSet_kept _ _ _ h0
  | memAlloc => exact execMemAlloc_kept _ _ _ h0
  | memFree => exact execMemFree_kept _ _ _ h0
  | memMap => exact execMemMap_kept _ _ _ h0
  | memUnmap => exact execMemUnmap_kept _ _ _ h0
  | segAcquire => exact execSegAcquire_kept _ _ _ h0
  | segRelease => exact execSegRelease_kept _ _ _ h0
  | vatMaintClean => exact execVatMaintClean_kept _ _ _ h0
  | vatMaintInvalidate => exact execVatMaintInvalidate_kept _ _ _ h0
  | vatMaintCleanInvalidate => exact execVatMaintCleanInvalidate_kept _ _ _ h0
  | queryCtx => exact execQueryCtx_kept _ _ _ h0
  | admGrant => exact execAdmGrant_kept _ _ _ h0
  | admRevoke => exact execAdmRevoke_kept _ _ _ h0
  | admTenantReset => exact execAdmTenantReset_kept _ _ _ h0
  | admPartCfg => exact execAdmPartCfg_kept _ _ _ h0
  | admShareExport => exact execAdmShareExport_kept _ _ _ h0
  | admShareImport => exact execAdmShareImport_kept _ _ _ h0
  | admShareRevoke => exact execAdmShareRevoke_kept _ _ _ h0
  | admTenantInfo => exact execAdmTenantInfo_kept _ _ _ h0
  | admPortShare => exact execAdmPortShare_kept _ _ _ h0
  | govSet => exact execGovSet_kept _ _ _ h0
  | govGet => exact execGovGet_kept _ _ _ h0
  | pwrPolicy => exact execPwrPolicy_kept _ _ _ h0
  | pwrIdleOff => exact execPwrIdleOff_kept _ _ _ h0
  | vatConvertToScratchpad => exact execVatConvertToScratchpad_kept _ _ _ h0
  | vatConvertToCache => exact execVatConvertToCache_kept _ _ _ h0
  | clusterModeExclusive => exact execClusterModeExclusive_kept _ _ _ h0
  | clusterModeShared => exact execClusterModeShared_kept _ _ _ h0
  | streamCfg => exact execStreamCfg_kept _ _ _ h0
  | warmReset => exact execWarmReset_kept _ _ _ h0
  | sepiaEnter => exact execSepiaEnter_kept _ _ _ h0
  | composeCopy => exact execComposeCopy_kept _ _ _ _ h0
  | composeFill => exact execComposeFill_kept _ _ _ _ h0
  | composeBlend => exact execComposeBlend_kept _ _ _ _ h0
  | dbRing => exact execDbRing_kept _ _ _ _ h0
  | linkWordArrive => exact execLinkWordArrive_kept _ _ _ h0
  | tailPoll => exact execTailPoll_kept _ _ _ h0
  | chainTorn => exact execChainTorn_kept _ _ _ h0
  | deadlineMiss => exact execDeadlineMiss_kept _ _ _ h0
  | nopPacket => exact execNopPacket_kept _ _ _ h0
  | fenceWrite => exact execFenceWrite_kept _ _ _ h0
  | fenceAdd => exact execFenceAdd_kept _ _ _ h0
  | fenceMax => exact execFenceMax_kept _ _ _ h0
  | fenceStamp => exact execFenceStamp_kept _ _ _ h0
  | wait => exact execWait_kept _ _ _ h0
  | waitReevaluate => exact execWaitReevaluate_kept _ _ _ h0
  | waitTimeout => exact execWaitTimeout_kept _ _ _ h0
  | semAcquire => exact execSemAcquire_kept _ _ _ h0
  | semRelease => exact execSemRelease_kept _ _ _ h0
  | marker => exact execMarker_kept _ _ _ h0
  | linesResidentSample => exact execLinesResidentSample_kept _ _ h0
  | lpddrRead => exact execLpddrRead_kept _ _ _ _ h0
  | oscTracking => exact execOscTracking_kept _ _ _ _ h0
  | lpddrRefresh ch rfm t => exact execLpddrRefresh_kept ch rfm t s h0
  | vatLoad => exact execVatLoad_kept _ _ _ _ _ _ h0
  | vatStore => exact execVatStore_kept _ _ _ _ _ _ h0
  | vatAtomic => exact execVatAtomic_kept _ _ _ _ _ _ h0
  | vatFillReturn => exact execVatFillReturn_kept _ _ _ _ h0
  | patrolScrub => exact execPatrolScrub_kept _ _ _ _ _ _ _ h0
  | admissionAttempt => exact execAdmissionAttempt_kept _ _ _ h0
  | windowBoundary => exact execWindowBoundary_kept _ _ _ h0
  | heldReattempt => exact execHeldReattempt_kept _ _ _ _ h0
  | flitAged => exact execFlitAged_kept _ _ h0
  | routerFlitArrive => exact execRouterFlitArrive_kept _ _ _ _ _ _ _ _ h0
  | fabricTimeout => exact execFabricTimeout_kept _ _ _ h0
  | routeTablePatrol => exact execRouteTablePatrol_kept _ _ _ h0
  | routeParityStorm => exact execRouteParityStorm_kept _ _ h0
  | dispatch => exact execDispatch_kept _ _ _ h0
  | dispatchIndirect => exact execDispatchIndirect_kept _ _ _ h0
  | workgroupPlace => exact execWorkgroupPlace_kept _ _ _ _ h0
  | placementReserve => exact execPlacementReserve_kept _ _ _ _ h0
  | preemptDecision => exact execPreemptDecision_kept _ _ _ _ h0
  | timeSliceBoundary => exact execTimeSliceBoundary_kept _ _ h0
  | groupStopComplete => exact execGroupStopComplete_kept _ _ _ h0
  | saveComplete => exact execSaveComplete_kept _ _ _ h0
  | queueResume => exact execQueueResume_kept _ _ _ h0
  | restoreComplete => exact execRestoreComplete_kept _ _ _ _ _ h0
  | loadReturn => exact execLoadReturn_kept _ _ _ _ h0
  | forfeitWritesPerformed => exact execForfeitWritesPerformed_kept _ _ _ h0
  | nopInstruction => exact execNopInstruction_kept _ _ _ _ h0
  | mov => exact execMov_kept _ _ _ _ h0
  | sel => exact execSel_kept _ _ _ _ h0
  | iadd => exact execIadd_kept _ _ _ _ h0
  | isub => exact execIsub_kept _ _ _ _ h0
  | imul => exact execImul_kept _ _ _ _ h0
  | imulhi => exact execImulhi_kept _ _ _ _ h0
  | imad => exact execImad_kept _ _ _ _ h0
  | imin => exact execImin_kept _ _ _ _ h0
  | imax => exact execImax_kept _ _ _ _ h0
  | andI => exact execAndI_kept _ _ _ _ h0
  | orI => exact execOrI_kept _ _ _ _ h0
  | xorI => exact execXorI_kept _ _ _ _ h0
  | notI => exact execNotI_kept _ _ _ _ h0
  | shl => exact execShl_kept _ _ _ _ h0
  | shr => exact execShr_kept _ _ _ _ h0
  | sar => exact execSar_kept _ _ _ _ h0
  | bfe => exact execBfe_kept _ _ _ _ h0
  | bfi => exact execBfi_kept _ _ _ _ h0
  | popc => exact execPopc_kept _ _ _ _ h0
  | clz => exact execClz_kept _ _ _ _ h0
  | brev => exact execBrev_kept _ _ _ _ h0
  | icmp => exact execIcmp_kept _ _ _ _ h0
  | iadd64 => exact execIadd64_kept _ _ _ _ h0
  | imadw => exact execImadw_kept _ _ _ _ h0
  | fadd => exact execFadd_kept _ _ _ _ h0
  | fmul => exact execFmul_kept _ _ _ _ h0
  | ffma => exact execFfma_kept _ _ _ _ h0
  | fmin => exact execFmin_kept _ _ _ _ h0
  | fmax => exact execFmax_kept _ _ _ _ h0
  | fcmp => exact execFcmp_kept _ _ _ _ h0
  | frcp => exact execFrcp_kept _ _ _ _ h0
  | frsq => exact execFrsq_kept _ _ _ _ h0
  | fsqrt => exact execFsqrt_kept _ _ _ _ h0
  | fexp2 => exact execFexp2_kept _ _ _ _ h0
  | flog2 => exact execFlog2_kept _ _ _ _ h0
  | fsin => exact execFsin_kept _ _ _ _ h0
  | fcos => exact execFcos_kept _ _ _ _ h0
  | ffract => exact execFfract_kept _ _ _ _ h0
  | frnd => exact execFrnd_kept _ _ _ _ h0
  | hadd2 => exact execHadd2_kept _ _ _ _ h0
  | hmul2 => exact execHmul2_kept _ _ _ _ h0
  | hfma2 => exact execHfma2_kept _ _ _ _ h0
  | hmin2 => exact execHmin2_kept _ _ _ _ h0
  | hmax2 => exact execHmax2_kept _ _ _ _ h0
  | hcmp2 => exact execHcmp2_kept _ _ _ _ h0
  | cvtf => exact execCvtf_kept _ _ _ _ h0
  | cvtfi => exact execCvtfi_kept _ _ _ _ h0
  | cvtif => exact execCvtif_kept _ _ _ _ h0
  | bscale => exact execBscale_kept _ _ _ _ h0
  | bquant => exact execBquant_kept _ _ _ _ h0
  | bdeq => exact execBdeq_kept _ _ _ _ h0
  | shfl => exact execShfl_kept _ _ _ _ h0
  | readlane => exact execReadlane_kept _ _ _ _ h0
  | ballot => exact execBallot_kept _ _ _ _ h0
  | reduce => exact execReduce_kept _ _ _ _ h0
  | sread => exact execSread_kept _ _ _ _ h0
  | plop => exact execPlop_kept _ _ _ _ h0
  | pmov => exact execPmov_kept _ _ _ _ h0
  | ld => exact execLd_kept _ _ _ _ h0
  | st => exact execSt_kept _ _ _ _ h0
  | sld => exact execSld_kept _ _ _ _ h0
  | ldl => exact execLdl_kept _ _ _ _ h0
  | stl => exact execStl_kept _ _ _ _ h0
  | ldp => exact execLdp_kept _ _ _ _ h0
  | stp => exact execStp_kept _ _ _ _ h0
  | atom => exact execAtom_kept _ _ _ _ h0
  | atoml => exact execAtoml_kept _ _ _ _ h0
  | fence => exact execFence_kept _ _ _ _ h0
  | bar => exact execBar_kept _ _ _ _ h0
  | tex => exact execTex_kept _ _ _ _ h0
  | tld => exact execTld_kept _ _ _ _ h0
  | tg4 => exact execTg4_kept _ _ _ _ h0
  | tqry => exact execTqry_kept _ _ _ _ h0
  | samplerReturn => exact execSamplerReturn_kept _ _ _ _ h0
  | interp => exact execInterp_kept _ _ _ _ h0
  | outv => exact execOutv_kept _ _ _ _ h0
  | outf => exact execOutf_kept _ _ _ _ h0
  | discard => exact execDiscard_kept _ _ _ _ h0
  | bra => exact execBra_kept _ _ _ _ h0
  | brx => exact execBrx_kept _ _ _ _ h0
  | call => exact execCall_kept _ _ _ _ h0
  | exit => exact execExit_kept _ _ _ _ h0
  | mark => exact execMark_kept _ _ _ _ h0
  | mload => exact execMload_kept _ _ _ _ h0
  | mma => exact execMma_kept _ _ _ _ h0
  | mstore => exact execMstore_kept _ _ _ _ h0
  | mzero => exact execMzero_kept _ _ _ _ h0
  | mmaf => exact execMmaf_kept _ _ _ _ h0
  | msync => exact execMsync_kept _ _ _ _ h0
  | madderHandoff => exact execMadderHandoff_kept _ _ _ h0
  | retireCommit => exact execRetireCommit_kept _ _ _ _ h0
  | retireSquash => exact execRetireSquash_kept _ _ _ h0
  | mloadDataReturn => exact execMloadDataReturn_kept _ _ _ h0
  | mdispatch => exact execMdispatch_kept _ _ _ h0
  | mdispatchIndirect => exact execMdispatchIndirect_kept _ _ _ h0
  | frameBegin => exact execFrameBegin_kept _ _ _ h0
  | attach => exact execAttach_kept _ _ _ h0
  | draw => exact execDraw_kept _ _ _ h0
  | drawIndirect => exact execDrawIndirect_kept _ _ _ h0
  | vertexGroupLaunch => exact execVertexGroupLaunch_kept _ _ _ _ h0
  | batchBin => exact execBatchBin_kept _ _ _ h0
  | publishedReadReturn => exact execPublishedReadReturn_kept _ _ _ h0
  | binGraceExpire => exact execBinGraceExpire_kept _ _ _ h0
  | partialFlushRewind => exact execPartialFlushRewind_kept _ _ _ h0
  | binnerYield => exact execBinnerYield_kept _ _ _ h0
  | frameEnd => exact execFrameEnd_kept _ _ _ h0
  | tileAssign => exact execTileAssign_kept _ _ _ _ h0
  | fragmentGroupLaunch => exact execFragmentGroupLaunch_kept _ _ _ h0
  | tileFlushDone => exact execTileFlushDone_kept _ _ _ h0
  | frameEndComplete => exact execFrameEndComplete_kept _ _ _ h0
  | xferCopy => exact execXferCopy_kept _ _ _ h0
  | xferCopy2d => exact execXferCopy2d_kept _ _ _ h0
  | xferFill => exact execXferFill_kept _ _ _ h0
  | channelAcquire => exact execChannelAcquire_kept _ _ _ h0
  | xferReadReturn => exact execXferReadReturn_kept _ _ _ _ h0
  | xferCompletionPulse => exact execXferCompletionPulse_kept _ _ _ h0
  | errorRecordStore => exact execErrorRecordStore_kept _ _ h0
  | errAck => exact execErrAck_kept _ _ _ _ h0
  | errSel => exact execErrSel_kept _ _ _ _ _ h0
  | comparatorSelftest => exact execComparatorSelftest_kept _ _ _ h0
  | selftestAlarm => exact execSelftestAlarm_kept _ _ h0
  | comparatorUnverified => exact execComparatorUnverified_kept _ _ h0
  | lockstepMismatch => exact execLockstepMismatch_kept _ _ _ h0
  | replayComplete => exact execReplayComplete_kept _ _ h0
  | mordantCheckpoint => exact execMordantCheckpoint_kept _ _ h0
  | sepiaEntryComplete => exact execSepiaEntryComplete_kept _ _ h0
  | watchdogHeartbeat => exact execWatchdogHeartbeat_kept _ _ h0
  | watchdogExpire => exact execWatchdogExpire_kept _ _ h0
  | extest => exact execExtest_kept _ _ _ h0
  | samplePreload => exact execSamplePreload_kept _ _ _ h0
  | idcode => exact execIdcode_kept _ h0
  | clamp => exact execClamp_kept _ h0
  | highz => exact execHighz_kept _ h0
  | bypass => exact execBypass_kept _ h0
  | dapAccess => exact execDapAccess_kept _ h0
  | dapCtrl => exact execDapCtrl_kept _ _ h0
  | fuseRead => exact execFuseRead_kept _ _ h0
  | tapReset => exact execTapReset_kept _ h0
  | i3cPrivateWrite => exact execI3cPrivateWrite_kept _ _ _ h0
  | i3cPrivateRead => exact execI3cPrivateRead_kept _ _ _ h0
  | tempAlertWrite => exact execTempAlertWrite_kept _ _ h0
  | i3cWarmResetOrder => exact execI3cWarmResetOrder_kept _ _ _ h0
  | ibiPendClear => exact execIbiPendClear_kept _ _ _ h0
  | ibiAccept => exact execIbiAccept_kept _ h0
  | enec => exact execEnec_kept _ h0
  | disec => exact execDisec_kept _ h0
  | rstdaa => exact execRstdaa_kept _ h0
  | entdaa => exact execEntdaa_kept _ _ h0
  | setdasa => exact execSetdasa_kept _ _ h0
  | getpid => exact execGetpid_kept _ h0
  | getbcr => exact execGetbcr_kept _ h0
  | getdcr => exact execGetdcr_kept _ h0
  | getstatus => exact execGetstatus_kept _ h0
  | vdda18Below1v => exact execVdda18Below1v_kept _ h0
  | writeAcknowledge => exact execWriteAcknowledge_kept _ _ _ h0
  | linkCorrectableError => exact execLinkCorrectableError_kept _ _ h0
  | unsupportedRequest => exact execUnsupportedRequest_kept _ _ _ _ _ _ _ h0
  | unknownCmd => exact execUnknownCmd_kept _ _ _ h0
  | badPacket => exact execBadPacket_kept _ _ _ h0
  | undefinedOpcode => exact execUndefinedOpcode_kept _ _ _ _ h0

/-! Fuses (R899, Table 21-10) -/

theorem exec_fuseProg (value : BitVec 8) (vpp : Bool) (s : State) :
    exec (.fuseProg value vpp) s = execFuseProg value vpp s := rfl

theorem exec_fuseBlowDone (verified : BitVec 2) (s : State) :
    exec (.fuseBlowDone verified) s = execFuseBlowDone verified s := rfl

/-- FUSE_PROG selects its instruction, which keeps the queue, the fuses and the cells, and then changes at most the fuses. -/
theorem fuseProg_fuses (value : BitVec 8) (vpp : Bool) (s : State) :
    ∃ u f, Kept s u ∧ exec (.fuseProg value vpp) s = .next { u with fuses := f } := by
  have selected : Kept s (selectInstr s .fuseProg .system) := selectInstr_kept _ _ _ (.refl s)
  rw [exec_fuseProg, execFuseProg]
  dsimp only
  split
  · exact ⟨_, _, bypassScan_kept _ selected, rfl⟩
  · split
    · exact ⟨_, _, selected, rfl⟩
    · exact ⟨_, _, selected, rfl⟩

/-- FUSE_BLOW_DONE changes the fuses alone. -/
theorem fuseBlowDone_fuses (verified : BitVec 2) (s : State) :
    ∃ f, exec (.fuseBlowDone verified) s = .next { s with fuses := f } := by
  rw [exec_fuseBlowDone, execFuseBlowDone]
  split
  · exact ⟨s.fuses, rfl⟩
  · exact ⟨_, rfl⟩

/-! Power-on resets (Table 03-9) -/

/-- A brown-out is a power-on reset that sets the flag, or finds the block held already. -/
theorem brownOut_powerOn (rail : Rail) (s : State) :
    exec (.brownOut rail) s = .next s ∨
      exec (.brownOut rail) s = .next (let v := powerOn s .brownOut true
        { v with life := { v.life with brownFlag := true } }) := by
  rw [exec_brownOut, execBrownOut]
  split
  · exact .inr rfl
  · exact .inl rfl

/-! Writes at a memory NI (R341, R344 to R346) -/

/-- An operation keeps the queue, the fuses and what LPDDR holds: the cells, the zero map, and whether it is in service. -/
structure SameContents (s x : State) : Prop where
  kept : Kept s x
  zeroMap : x.lpddr.zeroMap = s.lpddr.zeroMap
  inService : x.lpddr.inService = s.lpddr.inService

theorem SameContents.refl (s : State) : SameContents s s := ⟨.refl s, rfl, rfl⟩

theorem SameContents.trans {a b c : State} (h : SameContents a b) (k : SameContents b c) : SameContents a c :=
  ⟨h.kept.trans k.kept, k.zeroMap.trans h.zeroMap, k.inService.trans h.inService⟩

/-- The data of a sector comes from the cells, the zero map and the service alone. -/
theorem dramRead_congr {l m : Lpddr} (hcells : m.cells = l.cells) (hzero : m.zeroMap = l.zeroMap)
    (hservice : m.inService = l.inService) (a : Nat) : (dramRead m a).1 = (dramRead l a).1 := by
  have hmarked : zeroMarked m a = zeroMarked l a := by simp only [zeroMarked, hzero]
  simp only [dramRead, hcells, hservice, hmarked]
  split
  · rfl
  · split <;> rfl

theorem SameContents.sectorData {s x : State} (h : SameContents s x) (a : Nat) :
    (dramRead x.lpddr a).1 = (dramRead s.lpddr a).1 :=
  dramRead_congr h.kept.cells h.zeroMap h.inService a

theorem countCe_sameContents (s : State) (pa : Nat) : SameContents s (countCe s pa) := ⟨⟨rfl, rfl, rfl⟩, rfl, rfl⟩

theorem vatCe_sameContents (s : State) : SameContents s (vatCe s) := ⟨⟨rfl, rfl, rfl⟩, rfl, rfl⟩

theorem vatUe_sameContents (s : State) : SameContents s (vatUe s) := ⟨⟨rfl, rfl, rfl⟩, rfl, rfl⟩

theorem countUe_sameContents (s : State) : SameContents s (countUe s) := ⟨⟨rfl, rfl, rfl⟩, rfl, rfl⟩

theorem detect_sameContents (s : State) (r : ErrRec) : SameContents s (detect s r) := by
  obtain ⟨e, f, l, h⟩ := detect_frame s r
  rw [h]
  exact ⟨⟨rfl, rfl, rfl⟩, rfl, rfl⟩

theorem ackWriteBack_sameContents (s : State) (n : Nat) : SameContents s (ackWriteBack s n) := ⟨⟨rfl, rfl, rfl⟩, rfl, rfl⟩

/-- The check of a sector at its slice counts and records, and at most poisons the write. -/
theorem checkSent_sameContents (s : State) (w : WriteBack) (e : EccResult) :
    SameContents s (checkSent s w e).1 ∧ ∃ p, (checkSent s w e).2 = { w with poison := p } := by
  unfold checkSent
  split
  · exact ⟨vatCe_sameContents s, w.poison, rfl⟩
  · exact ⟨(vatUe_sameContents s).trans (detect_sameContents _ _), true, rfl⟩
  · exact ⟨.refl s, w.poison, rfl⟩

/-- A write that is performed counts and records its errors, writes its sector once, and records poison that is lost. -/
theorem performWrite_dramWrite (s : State) (w : WriteBack) (e : EccResult) :
    ∃ x p, SameContents s x ∧ (performWrite s w e).pending = x.pending ∧
      (performWrite s w e).lpddr = (dramWrite x.lpddr w.pa w.data w.mask p).1 := by
  unfold performWrite
  dsimp only
  generalize hx : (if (!s.lpddr.inService) = true then s else _) = x
  generalize (w.poison || _) = p
  refine ⟨x, p, ?counted, ?written⟩
  case counted =>
    rw [← hx]
    split
    · exact .refl s
    · cases e with
      | good => exact .refl s
      | corrected => exact countCe_sameContents s w.pa
      | uncorrectable =>
        dsimp only
        split
        · exact (countUe_sameContents s).trans (detect_sameContents _ _)
        · exact .refl s
      | linkUncorrectable => exact (countUe_sameContents s).trans (detect_sameContents _ _)
  case written =>
    split
    · exact ⟨rfl, rfl⟩
    · exact ⟨rfl, rfl⟩

/-- The state in which a write that is due has been performed. -/
def writtenBack (u : State) (n : Nat) (w : WriteBack) (ecc vat : EccResult) : State :=
  performWrite (ackWriteBack (checkSent u w vat).1 n) (checkSent u w vat).2 ecc

/-- A write that is due keeps the queue, and its LPDDR is that of before with one write of the controller. -/
theorem writtenBack_dramWrite (u : State) (n : Nat) (w : WriteBack) (ecc vat : EccResult) :
    ∃ x p, SameContents u x ∧ (writtenBack u n w ecc vat).pending = u.pending ∧
      (writtenBack u n w ecc vat).lpddr = (dramWrite x.lpddr w.pa w.data w.mask p).1 := by
  obtain ⟨hsent, q, hw⟩ := checkSent_sameContents u w vat
  obtain ⟨x, p, hx, hpending, hlpddr⟩ :=
    performWrite_dramWrite (ackWriteBack (checkSent u w vat).1 n) (checkSent u w vat).2 ecc
  have same := (hsent.trans (ackWriteBack_sameContents _ n)).trans hx
  refine ⟨x, p, same, hpending.trans same.kept.pending, hlpddr.trans ?_⟩
  rw [hw]

/-- LPDDR_WRITE_BACK performs the write that is due, and nothing where none is. -/
theorem lpddrWriteBack_next {s v : State} {n : Nat} {ecc vat : EccResult} {t : Stamp}
    (h : exec (.lpddrWriteBack n ecc vat t) s = .next v) : v = s.upTo t ∨ ∃ w, v = writtenBack (s.upTo t) n w ecc vat := by
  cases hdue : writeBackDue (s.upTo t) n with
  | none =>
    rw [exec_lpddrWriteBack] at h
    simp only [execLpddrWriteBack, hdue, Host.Outcome.next.injEq] at h
    exact .inl h.symm
  | some w =>
    rw [lpddrWriteBack_of_due hdue] at h
    split at h
    · cases h
    · injection h with h
      exact .inr ⟨w, h.symm⟩

/-! Every command -/

/-- A command outside the three keeps the queue and the cells. -/
theorem exec_keeps_cells {c : Instr} {s v : State} (hcells : changesCells c = false) (h : exec c s = .next v) :
    v.pending = s.pending ∧ v.lpddr.cells = s.lpddr.cells := by
  cases hfuses : changesFuses c with
  | false =>
    obtain ⟨hpending, -, hkept⟩ := exec_kept c s hcells hfuses v h
    exact ⟨hpending, hkept⟩
  | true =>
    unfold changesFuses at hfuses
    split at hfuses
    next value vpp =>
      obtain ⟨u, f, hkept, hexec⟩ := fuseProg_fuses value vpp s
      cases hexec.symm.trans h
      exact ⟨hkept.pending, hkept.cells⟩
    next verified =>
      obtain ⟨f, hexec⟩ := fuseBlowDone_fuses verified s
      cases hexec.symm.trans h
      exact ⟨rfl, rfl⟩
    next => cases hfuses

/-- Each of the three keeps the queue; the cells are as before, or cleared by a power-on reset, or those after one write of the
memory controller. -/
theorem exec_changes_cells {c : Instr} {s v : State} (hcells : changesCells c = true) (h : exec c s = .next v) :
    v.pending = s.pending ∧ (v.lpddr.cells = s.lpddr.cells ∨ v.lpddr.cells = [] ∨
      ∃ l pa d mask p, l.cells = s.lpddr.cells ∧ v.lpddr.cells = (dramWrite l pa d mask p).1.cells) := by
  unfold changesCells at hcells
  split at hcells
  next n ecc vat t =>
    obtain rfl | ⟨w, rfl⟩ := lpddrWriteBack_next h
    · exact ⟨rfl, .inl rfl⟩
    · obtain ⟨x, p, same, hpending, hlpddr⟩ := writtenBack_dramWrite (s.upTo t) n w ecc vat
      exact ⟨hpending, .inr (.inr ⟨_, _, _, _, _, same.kept.cells, congrArg Lpddr.cells hlpddr⟩)⟩
  next =>
    obtain ⟨ph, hexec, -⟩ := resetNAssert_powerOn s
    cases hexec.symm.trans h
    exact ⟨rfl, .inr (.inl rfl)⟩
  next rail =>
    obtain hexec | hexec := brownOut_powerOn rail s
    · cases hexec.symm.trans h
      exact ⟨rfl, .inl rfl⟩
    · cases hexec.symm.trans h
      exact ⟨rfl, .inr (.inl rfl)⟩
  next => cases hcells

/-- Every command keeps the canonical form of the cells. -/
theorem exec_wf {c : Instr} {s v : State} (hwf : Memory.wf s.lpddr.cells = true) (h : exec c s = .next v) :
    Memory.wf v.lpddr.cells = true := by
  cases hcells : changesCells c with
  | false => rwa [(exec_keeps_cells hcells h).2]
  | true =>
    obtain ⟨-, hkept | hcleared | ⟨l, pa, d, mask, p, hl, hwritten⟩⟩ := exec_changes_cells hcells h
    · rwa [hkept]
    · rw [hcleared]
      rfl
    · rw [hwritten]
      exact dramWrite_wf pa d mask p (by rwa [hl])

/-- Settles O3: a handshake step of the idle Mordant keeps the cells, and every command keeps their form. -/
theorem everyStepKeepsTheMemoryForm : Obligations.EveryStepKeepsTheMemoryForm := by
  intro s s' hwf h
  unfold step at h
  split at h
  next =>
    cases h
    rwa [(mordantIdle_kept s (.refl s)).cells]
  next c rest _ => exact exec_wf (s := { s with pending := rest }) hwf h

/-- Settles O5: a command outside the three keeps both, and each of the three keeps the queue. -/
theorem commandsLeaveTheQueueAndMemoryAlone : Obligations.CommandsLeaveTheQueueAndMemoryAlone := by
  intro c s v h
  cases hcells : changesCells c with
  | false =>
    obtain ⟨hpending, hkept⟩ := exec_keeps_cells hcells h
    exact ⟨hpending, fun _ _ _ a => by rw [hkept]⟩
  | true =>
    refine ⟨(exec_changes_cells hcells h).1, fun hwrite hassert hbrown => ?_⟩
    unfold changesCells at hcells
    split at hcells
    next n ecc vat t => exact absurd rfl (hwrite n ecc vat t)
    next => exact absurd rfl hassert
    next rail => exact absurd rfl (hbrown rail)
    next => cases hcells

/-- Settles O6: the write that is performed is one write of the memory controller, which merges its bytes into its own sector. -/
theorem writeBackChangesItsOwnSectorAlone : Obligations.WriteBackChangesItsOwnSectorAlone := by
  intro s k ecc vat t w u hwf hdue hlow haligned
  obtain ⟨x, p, same, -, hlpddr⟩ := writtenBack_dramWrite u k w ecc vat
  refine ⟨writtenBack u k w ecc vat, ?_, fun a ha => ?_⟩
  · rw [lpddrWriteBack_of_due hdue]
    exact if_neg (Nat.not_le.2 hlow)
  · rw [hlpddr, dramRead_dramWrite (by rwa [same.kept.cells]) haligned ha, same.sectorData, same.sectorData, same.inService]

end Sys2Proof.Laws
end

section
/-!
PROOFS. Every command completes but the two of the memory network interfaces, which can name an address beyond the capacity
(spec 07). A command's meaning answers a next state outright, issues an instruction, or answers a next state on each of its
branches.
-/

namespace Sys2Proof.Laws

open Machine

/-- A command completes: it answers a next state. -/
def Completes (o : Out) : Prop := ∃ v, o = .next v

/-- Whether or not an instruction issues, is held back or is killed, the issue answers a next state. -/
theorem issue_completes (slot : Nat) (w : Insn) (t : Stamp) (s : State) (mine : Nat → Bool) (body : Body)
    (bad : State → Nat → Group → IWord → Option Nat) : Completes (issue slot w t s mine body bad) := by
  unfold issue
  dsimp only
  repeat' split
  all_goals exact ⟨_, rfl⟩

/-- Every command but LPDDR_READ and LPDDR_WRITE_BACK completes: the rows of instructions by the issue, most others outright, and
the rest on each branch of their conditions. -/
theorem exec_completes (c : Instr) (s : State) (hread : ∀ x ecc t, c ≠ .lpddrRead x ecc t)
    (hwrite : ∀ k ecc vat t, c ≠ .lpddrWriteBack k ecc vat t) : Completes (exec c s) := by
  cases c with
  | lpddrRead x ecc t => exact absurd rfl (hread x ecc t)
  | lpddrWriteBack k ecc vat t => exact absurd rfl (hwrite k ecc vat t)
  | nopInstruction | mov | sel | iadd | isub | imul | imulhi | imad | imin | imax | andI | orI | xorI | notI | shl | shr |
    sar | bfe | bfi | popc | clz | brev | icmp | iadd64 | imadw | fadd | fmul | ffma | fmin | fmax | fcmp | frcp | frsq |
    fsqrt | fexp2 | flog2 | fsin | fcos | ffract | frnd | hadd2 | hmul2 | hfma2 | hmin2 | hmax2 | hcmp2 | cvtf | cvtfi |
    cvtif | bscale | bquant | bdeq | shfl | readlane | ballot | reduce | sread | plop | pmov | ld | st | sld | ldl | stl |
    ldp | stp | atom | atoml | fence | bar | tex | tld | tg4 | tqry | interp | outv | outf | discard | bra | brx | call |
    exit | mark | mload | mma | mstore | mzero | mmaf | msync | undefinedOpcode =>
    dsimp only [exec,
      execNopInstruction, execMov, execSel, execIadd, execIsub, execImul, execImulhi, execImad, execImin, execImax,
      execAndI, execOrI, execXorI, execNotI, execShl, execShr, execSar, execBfe, execBfi, execPopc, execClz, execBrev,
      execIcmp, execIadd64, execImadw, execFadd, execFmul, execFfma, execFmin, execFmax, execFcmp, execFrcp, execFrsq,
      execFsqrt, execFexp2, execFlog2, execFsin, execFcos, execFfract, execFrnd, execHadd2, execHmul2, execHfma2, execHmin2,
      execHmax2, execHcmp2, execCvtf, execCvtfi, execCvtif, execBscale, execBquant, execBdeq, execShfl, execReadlane,
      execBallot, execReduce, execSread, execPlop, execPmov, execLd, execSt, execSld, execLdl, execStl, execLdp, execStp,
      execAtom, execAtoml, execFence, execBar, execTex, execTld, execTg4, execTqry, execInterp, execOutv, execOutf,
      execDiscard, execBra, execBrx, execCall, execExit, execMark, execMload, execMma, execMstore, execMzero, execMmaf,
      execMsync, execUndefinedOpcode, unRow, binRow, wordRow, groupRow, fpRow, sfuRow, halfRow, convRow, madderIssue]
    exact issue_completes ..
  | crystalReturn | thermtrip | perstAssert | perstDeassert | dlDown | linkUp | linkRetrain | numvfsWrite | vfEnableSet |
    vfReady | vfEnableClear | flrComplete | d3hotEnter | d3hotExit | busMasterEnable | msixUnmask | tagQuarantineExpire |
    malformedTlp | mbxAck | nop | tenantInfo | ctxCreate | ctxDestroy | ctxReset | ctxSet | qCreate | qDestroy | qSet |
    memAlloc | memFree | memMap | memUnmap | segAcquire | segRelease | vatMaintClean | vatMaintInvalidate |
    vatMaintCleanInvalidate | queryCtx | admGrant | admRevoke | admTenantReset | admPartCfg | admShareExport |
    admShareImport | admShareRevoke | admTenantInfo | admPortShare | govSet | govGet | pwrPolicy | pwrIdleOff |
    vatConvertToScratchpad | vatConvertToCache | clusterModeExclusive | clusterModeShared | streamCfg | warmReset |
    sepiaEnter | composeCopy | composeFill | composeBlend | nopPacket | fenceWrite | fenceAdd | fenceMax | fenceStamp |
    wait | semAcquire | semRelease | marker | lpddrRefresh | heldReattempt | flitAged | routeParityStorm | dispatch |
    dispatchIndirect | saveComplete | mdispatch | mdispatchIndirect | frameBegin | attach | draw | drawIndirect | frameEnd |
    xferCopy | xferCopy2d | xferFill | channelAcquire | replayComplete | mordantCheckpoint | extest | samplePreload |
    idcode | clamp | highz | bypass | dapAccess | dapCtrl | fuseProg | fuseRead | tapReset | i3cPrivateWrite |
    i3cPrivateRead | tempAlertWrite | i3cWarmResetOrder | ibiPendClear | enec | disec | rstdaa | entdaa | setdasa | getpid |
    getbcr | getdcr | getstatus | vdda18Below1v | linkCorrectableError | unknownCmd =>
    exact ⟨_, rfl⟩
  | _ =>
    dsimp only [exec,
      execRegisterWrite, execResetNAssert, execResetNRise, execBrownOut, execBrownOutRelease, execMetronomeLock,
      execMetronomeLockTimeout, execLpddrTrainingDone, execWarmResetComplete, execDomainIdleOff, execDomainWake,
      execDomainOffDone, execForceOffDrained, execCrystalLoss, execSensorRefresh, execGovernorSample, execGovernorOutput,
      execSpmiFrameDone, execGovSaturation, execGovFlagClear, execMetroLoRead, execConfigRequest, execFlrInitiate,
      execBar2Read, execBar2Write, execTagGrant, execCompletionRx, execCompletionTimeout, execMbxGo, execDbRing,
      execLinkWordArrive, execTailPoll, execChainTorn, execDeadlineMiss, execWaitReevaluate, execWaitTimeout,
      execLinesResidentSample, execOscTracking, execVatLoad, execVatStore, execVatAtomic, execVatFillReturn,
      execPatrolScrub, execAdmissionAttempt, execWindowBoundary, execRouterFlitArrive, execFabricTimeout,
      execRouteTablePatrol, execWorkgroupPlace, execPlacementReserve, execPreemptDecision, execTimeSliceBoundary,
      execGroupStopComplete, execQueueResume, execRestoreComplete, execLoadReturn, execForfeitWritesPerformed,
      execSamplerReturn, execMadderHandoff, execRetireCommit, execRetireSquash, execMloadDataReturn, execVertexGroupLaunch,
      execBatchBin, execPublishedReadReturn, execBinGraceExpire, execPartialFlushRewind, execBinnerYield, execTileAssign,
      execFragmentGroupLaunch, execTileFlushDone, execFrameEndComplete, execXferReadReturn, execXferCompletionPulse,
      execErrorRecordStore, execErrAck, execErrSel, execComparatorSelftest, execSelftestAlarm, execComparatorUnverified,
      execLockstepMismatch, execSepiaEntryComplete, execWatchdogHeartbeat, execWatchdogExpire, execFuseBlowDone,
      execIbiAccept, execWriteAcknowledge, execUnsupportedRequest, execBadPacket]
    repeat' split
    all_goals exact ⟨_, rfl⟩

/-- LPDDR_READ completes, or names an address beyond the capacity. -/
theorem lpddrRead_completes_or_faults (what : LpddrTarget) (ecc : List EccResult) (t : Stamp) (s : State) :
    Completes (exec (.lpddrRead what ecc t) s) ∨ exec (.lpddrRead what ecc t) s = .fault .noSuchAddress := by
  rw [exec_lpddrRead]
  unfold execLpddrRead
  cases what with
  | access n =>
    left
    dsimp only
    repeat' split
    all_goals exact ⟨_, rfl⟩
  | table | structure_ | zeroWord =>
    dsimp only
    split
    · exact .inr rfl
    · exact .inl ⟨_, rfl⟩

/-- LPDDR_WRITE_BACK completes, or names an address beyond the capacity. -/
theorem lpddrWriteBack_completes_or_faults (n : Nat) (ecc vat : EccResult) (t : Stamp) (s : State) :
    Completes (exec (.lpddrWriteBack n ecc vat t) s) ∨ exec (.lpddrWriteBack n ecc vat t) s = .fault .noSuchAddress := by
  cases hdue : writeBackDue (s.upTo t) n with
  | none =>
    left
    simp only [exec_lpddrWriteBack, execLpddrWriteBack, hdue]
    exact ⟨_, rfl⟩
  | some w =>
    rw [lpddrWriteBack_of_due hdue]
    split
    · exact .inr rfl
    · exact .inl ⟨_, rfl⟩

/-- Settles O7: the two commands complete or fault as noSuchAddress, and every other one completes. -/
theorem everyCommandButTwoCompletes : Obligations.EveryCommandButTwoCompletes := by
  refine ⟨exec_completes, fun c s => ?_⟩
  by_cases hread : ∃ x ecc t, c = .lpddrRead x ecc t
  · obtain ⟨x, ecc, t, rfl⟩ := hread
    exact lpddrRead_completes_or_faults x ecc t s
  by_cases hwrite : ∃ k ecc vat t, c = .lpddrWriteBack k ecc vat t
  · obtain ⟨k, ecc, vat, t, rfl⟩ := hwrite
    exact lpddrWriteBack_completes_or_faults k ecc vat t s
  · exact .inl (exec_completes c s (fun x ecc t e => hread ⟨x, ecc, t, e⟩) fun k ecc vat t e => hwrite ⟨k, ecc, vat, t, e⟩)

end Sys2Proof.Laws
end

section
/-!
PROOFS. Memory commands (spec 05, 07, 08): each row serves its command, which is what serving a mailbox row says of it; MEM_MAP by
its source, and the three rows of VAT_MAINT as one.
-/

namespace Sys2Proof.Laws

open Machine

/-! The rows, by their meanings -/

theorem exec_memAlloc (k : SlotId) (t : Stamp) (s : State) : exec (.memAlloc k t) s = execMemAlloc k t s := rfl

theorem exec_memFree (k : SlotId) (t : Stamp) (s : State) : exec (.memFree k t) s = execMemFree k t s := rfl

theorem exec_memMap (k : SlotId) (t : Stamp) (s : State) : exec (.memMap k t) s = execMemMap k t s := rfl

theorem exec_memUnmap (k : SlotId) (t : Stamp) (s : State) : exec (.memUnmap k t) s = execMemUnmap k t s := rfl

theorem exec_segAcquire (k : SlotId) (t : Stamp) (s : State) : exec (.segAcquire k t) s = execSegAcquire k t s := rfl

theorem exec_segRelease (k : SlotId) (t : Stamp) (s : State) : exec (.segRelease k t) s = execSegRelease k t s := rfl

/-! MEM_MAP (R315, R316) -/

/-- The row runs a map wherever it starts. -/
theorem memMap_servedBy : servedBy .memMap 0x0032 anyCmd memMapCauses runMap := servedBy_of_mbxRow exec_memMap

/-- A map adds the leaves of its source and answers their count. -/
theorem runMap_of_source {s : State} {k : SlotId} {cmd : List Word} {src : MapSource} (h : mapSource s k.fn cmd = some src) :
    runMap s k cmd = slotDone (addPages s (argCtx k.fn cmd) (argVa cmd 2) (mapEnd cmd) (mapLeaves cmd src)) k
      [resWord (argN cmd 7)] := by
  simp only [runMap, h]

/-! VAT_MAINT (R378, R379) -/

/-- The rows of VAT_MAINT with their operations. -/
def maintRows : List ((SlotId → Stamp → Instr) × Nat) :=
  [(.vatMaintClean, 1), (.vatMaintInvalidate, 2), (.vatMaintCleanInvalidate, 3)]

/-- The three rows of VAT_MAINT serve one command, each for its own operation. -/
theorem exec_vatMaint {row : SlotId → Stamp → Instr} {op : Nat} (h : (row, op) ∈ maintRows) (k : SlotId) (t : Stamp)
    (s : State) :
    exec (row k t) s = .next (mbxRow (s.upTo t) k 0x0042 (maintMine op) maintCauses startMaint endMaint) := by
  simp only [maintRows, List.mem_cons, Prod.mk.injEq, List.not_mem_nil, or_false] at h
  obtain ⟨rfl, rfl⟩ | ⟨rfl, rfl⟩ | ⟨rfl, rfl⟩ := h
  · rfl
  · rfl
  · rfl

/-- Settles O23: each row serves its command, and those that wait also go on; a map acts by its source. -/
theorem memoryCommandsAct : Obligations.MemoryCommandsAct := by
  refine ⟨?alloc, ?free, ?endFree, ?map, ?unmap, ?endUnmap, ?acquire, ?release, ?endRelease, ?maint, ?endMaint⟩
  case alloc => exact servedBy_of_mbxRow exec_memAlloc
  case free => exact servedBy_of_mbxRow exec_memFree
  case endFree => exact resumedBy_of_mbxRow exec_memFree
  case map =>
    intro s k t src u cmd hserving hsource
    rw [memMap_servedBy s k t hserving, runMap_of_source hsource]
  case unmap => exact servedBy_of_mbxRow exec_memUnmap
  case endUnmap => exact resumedBy_of_mbxRow exec_memUnmap
  case acquire => exact servedBy_of_mbxRow exec_segAcquire
  case release => exact servedBy_of_mbxRow exec_segRelease
  case endRelease => exact resumedBy_of_mbxRow exec_segRelease
  case maint => exact fun row op h => servedBy_of_mbxRow (exec_vatMaint h)
  case endMaint => exact fun row op h => resumedBy_of_mbxRow (exec_vatMaint h)

end Sys2Proof.Laws
end

section
/-!
PROOFS. The slices (spec 08): what a load, a store, an atomic and a returned fill come to at the home of their access, on a line
and in a segment, and the two kinds of way that the patrol reads. One lemma says what each case of a row does.
-/

namespace Sys2Proof.Laws

open Machine

/-! The rows, by their meanings -/

theorem exec_vatLoad (n lru : Nat) (ecc : List EccResult) (tags : TagCheck) (t : Stamp) (s : State) :
    exec (.vatLoad n lru ecc tags t) s = execVatLoad n lru ecc tags t s := rfl

theorem exec_vatStore (n lru : Nat) (ecc : List EccResult) (tags : TagCheck) (t : Stamp) (s : State) :
    exec (.vatStore n lru ecc tags t) s = execVatStore n lru ecc tags t s := rfl

theorem exec_vatAtomic (n lru : Nat) (ecc : List EccResult) (tags : TagCheck) (t : Stamp) (s : State) :
    exec (.vatAtomic n lru ecc tags t) s = execVatAtomic n lru ecc tags t s := rfl

theorem exec_vatFillReturn (n lru : Nat) (t : Stamp) (s : State) :
    exec (.vatFillReturn n lru t) s = execVatFillReturn n lru t s := rfl

theorem exec_patrolScrub (slice set way : Nat) (ecc : List EccResult) (tags : TagCheck) (t : Stamp) (s : State) :
    exec (.patrolScrub slice set way ecc tags t) s = execPatrolScrub slice set way ecc tags t s := rfl

/-! Accesses to a line (R365, R367, R369, R372, R374, R388, R391) -/

section
variable {s : State} {n : Nat} {t : Stamp} {a : Access} (hacc : atHome (s.upTo t) n = some a)
  (lru : Nat) {ecc : List EccResult} {tags : TagCheck}
include hacc

section
variable {pa : Nat} {u : State} {ln : Line} (hhome : a.home = .device pa)
include hhome

section
variable (hkind : a.kind = .read)
include hkind

/-- A load hits where its used sectors are valid in the line that passed its checks. -/
theorem vatLoad_of_hit (hline : checkedLine (s.upTo t) a.pri pa (usedSectors a pa) ecc tags = (u, some ln))
    (hvalid : ((usedSectors a pa).all fun k => (lineSector ln k).sv) = true) :
    exec (.vatLoad n lru ecc tags t) s = .next (answerRead (touchLine u ln) n a pa []) := by
  simp only [exec_vatLoad, execVatLoad, hacc, hkind, hhome, hline, hvalid, if_true]

/-- A load without a line asks a memory NI, whether or not a line can be allocated. -/
theorem vatLoad_of_noLine (hline : checkedLine (s.upTo t) a.pri pa (usedSectors a pa) ecc tags = (u, none)) :
    exec (.vatLoad n lru ecc tags t) s = .next (miss u n pa (lineOrRoom u a pa lru)) := by
  simp only [exec_vatLoad, execVatLoad, hacc, hkind, hhome, hline]

end

section
variable {op : AtomOp} {wide : Bool} {words : List (Nat × Dword × Dword)} (hkind : a.kind = .atomic op wide words)
include hkind

theorem vatAtomic_of_hit (hline : checkedLine (s.upTo t) a.pri pa (usedSectors a pa) ecc tags = (u, some ln))
    (hvalid : ((usedSectors a pa).all fun k => (lineSector ln k).sv) = true) :
    exec (.vatAtomic n lru ecc tags t) s = .next (answerAtomic u n a op wide words lru false) := by
  simp only [exec_vatAtomic, execVatAtomic, hacc, hkind, hhome, hline, hvalid, if_true]

theorem vatAtomic_of_noLine (hline : checkedLine (s.upTo t) a.pri pa (usedSectors a pa) ecc tags = (u, none)) :
    exec (.vatAtomic n lru ecc tags t) s = .next (miss u n pa (lineOrRoom u a pa lru)) := by
  simp only [exec_vatAtomic, execVatAtomic, hacc, hkind, hhome, hline]

end

/-- A store is judged, and performed on a line in which every sector that it covers in part is valid. -/
theorem vatStore_of_hit {bytes : List (Nat × Byte)} {poison : Bool} (hkind : a.kind = .write bytes poison)
    (hline : checkedLine (s.upTo t) a.pri pa (partialSectors pa bytes) ecc tags = (u, some ln))
    (hvalid : ((partialSectors pa bytes).all fun k => (lineSector ln k).sv) = true) :
    let j := judgeStore u (detectorOf u a) a.ctx a.va (pa % 128 == 0 && coversLine bytes)
    exec (.vatStore n lru ecc tags t) s = .next (performStore j.2 n a bytes poison j.1 lru) := by
  simp only [exec_vatStore, execVatStore, hacc, hkind, hhome, hline, hvalid, if_true]

end

/-! Accesses to a segment (R392) -/

section
variable {x : Nat} (hhome : a.home = .scratch x)
include hhome

theorem vatLoad_of_segment (hkind : a.kind = .read) :
    exec (.vatLoad n lru ecc tags t) s = .next (answerRead (checkSeg (s.upTo t) x (usedSectors a x) ecc) n a x []) := by
  simp only [exec_vatLoad, execVatLoad, hacc, hkind, hhome]

theorem vatStore_of_segment {bytes : List (Nat × Byte)} {poison : Bool} (hkind : a.kind = .write bytes poison) :
    exec (.vatStore n lru ecc tags t) s =
      .next (performStore (checkSeg (s.upTo t) x (partialSectors x bytes) ecc) n a bytes poison false lru) := by
  simp only [exec_vatStore, execVatStore, hacc, hkind, hhome]

theorem vatAtomic_of_segment {op : AtomOp} {wide : Bool} {words : List (Nat × Dword × Dword)}
    (hkind : a.kind = .atomic op wide words) :
    exec (.vatAtomic n lru ecc tags t) s =
      .next (answerAtomic (checkSeg (s.upTo t) x (usedSectors a x) ecc) n a op wide words lru false) := by
  simp only [exec_vatAtomic, execVatAtomic, hacc, hkind, hhome]

end

end

/-! Returned fills (R365, R367, R368, Table 09-6) -/

/-- The state in which a returned fill is charged to the partition of its access and is in the line. -/
def filledState (s : State) (a : Access) (pa lru : Nat) : State :=
  installFill (chargeUngated s a.part a.fills.length) a pa lru a.fills

section
variable {s : State} {n pa : Nat} {t at_ : Stamp} {a : Access} (lru : Nat) (hacc : getAccess (s.upTo t) n = some a)
  (hstage : a.stage = .filled at_) (hhome : a.home = .device pa)
include hacc hstage hhome

/-- An access tries again where a sector that it needs is gone. -/
theorem vatFillReturn_of_lost (hserves : fillServes (filledState (s.upTo t) a pa lru) a pa = false) :
    let v := filledState (s.upTo t) a pa lru
    exec (.vatFillReturn n lru t) s = .next (modAccess v n fun a => { a with stage := .admitted v.stamp }) := by
  rw [filledState] at hserves ⊢
  simp only [exec_vatFillReturn, execVatFillReturn, hacc, hstage, hhome, hserves, Bool.not_false, if_true]

section
variable (hserves : fillServes (filledState (s.upTo t) a pa lru) a pa = true)
include hserves

theorem vatFillReturn_of_read (hkind : a.kind = .read) :
    let v := filledState (s.upTo t) a pa lru
    exec (.vatFillReturn n lru t) s = .next (answerRead v n a pa (fillBad v a pa)) := by
  rw [filledState] at hserves ⊢
  simp only [exec_vatFillReturn, execVatFillReturn, hacc, hstage, hhome, hserves, hkind, Bool.not_true, Bool.false_eq_true,
    if_false]

theorem vatFillReturn_of_write {bytes : List (Nat × Byte)} {poison : Bool} (hkind : a.kind = .write bytes poison) :
    let v := filledState (s.upTo t) a pa lru
    exec (.vatFillReturn n lru t) s = .next (performStore v n a bytes poison (findLine v pa).isNone lru) := by
  rw [filledState] at hserves ⊢
  simp only [exec_vatFillReturn, execVatFillReturn, hacc, hstage, hhome, hserves, hkind, Bool.not_true, Bool.false_eq_true,
    if_false]

theorem vatFillReturn_of_atomic {op : AtomOp} {wide : Bool} {words : List (Nat × Dword × Dword)}
    (hkind : a.kind = .atomic op wide words) :
    let v := filledState (s.upTo t) a pa lru
    exec (.vatFillReturn n lru t) s =
      .next (answerAtomic v n a op wide words lru ((usedSectors a pa).any fun k => (fillBad v a pa).getD k false)) := by
  rw [filledState] at hserves ⊢
  simp only [exec_vatFillReturn, execVatFillReturn, hacc, hstage, hhome, hserves, hkind, Bool.not_true, Bool.false_eq_true,
    if_false]

end

end

/-! The patrol (R394) -/

section
variable {s : State} {t : Stamp} {slice set way : Nat} {ecc : List EccResult} {tags : TagCheck}

/-- PATROL_SCRUB's guard: a place of a powered slice that the patrol has not read in its window. -/
def PatrolDue (s : State) (slice set way : Nat) : Prop :=
  (!isOpen s || !timed s || slice ≥ 48 || set ≥ 1024 || way ≥ 16 || !sliceOn s slice ||
    (patrolDone s).contains (slice, set, way)) = false

theorem patrolDue_of_unread (hopen : isOpen s = true) (htimed : timed s = true) (hslice : slice < 48) (hset : set < 1024)
    (hway : way < 16) (hon : sliceOn s slice = true) (hunread : (patrolDone s).contains (slice, set, way) = false) :
    PatrolDue s slice set way := by
  simp only [PatrolDue, hopen, htimed, hon, hunread, ge_iff_le, Nat.not_le.2 hslice, Nat.not_le.2 hset, Nat.not_le.2 hway,
    decide_false, Bool.not_true, Bool.or_self]

section
variable (hdue : PatrolDue (s.upTo t) slice set way)
include hdue

/-- A way that is converted holds a line of a segment, which the patrol checks there. -/
theorem patrolScrub_of_converted (hconv : (s.upTo t).vat.convMask.getLsbD way = true) :
    exec (.patrolScrub slice set way ecc tags t) s = .next (checkSeg (patrolRead (s.upTo t) (slice, set, way))
      ((24 * way + (set * 48 + slice) / 2048) * segBytes + (set * 48 + slice) % 2048 * 128) (List.range 4) ecc) := by
  rw [PatrolDue] at hdue
  have hread : (patrolRead (s.upTo t) (slice, set, way)).vat.convMask.getLsbD way = true := hconv
  simp only [exec_patrolScrub, execPatrolScrub, hdue, hread, Bool.false_eq_true, if_false, if_true]

/-- A way of the cache holds a line, whose tags are checked before its sectors. -/
theorem patrolScrub_of_cached {ln ln' : Line} {v : State} (hconv : (s.upTo t).vat.convMask.getLsbD way = false)
    (hline : ((s.upTo t).vat.lines.find? fun l => l.slice == slice && l.set == set && l.way == way) = some ln)
    (htags : checkTags (patrolRead (s.upTo t) (slice, set, way)) ln tags = (v, some ln')) :
    exec (.patrolScrub slice set way ecc tags t) s = .next (checkLine v 0 ln' (List.range 4) ecc).1 := by
  rw [PatrolDue] at hdue
  have hread : (patrolRead (s.upTo t) (slice, set, way)).vat.convMask.getLsbD way = false := hconv
  have hfound : ((patrolRead (s.upTo t) (slice, set, way)).vat.lines.find?
      fun l => l.slice == slice && l.set == set && l.way == way) = some ln := hline
  simp only [exec_patrolScrub, execPatrolScrub, hdue, hread, hfound, htags, Bool.false_eq_true, if_false]

end

end

/-- Settles O51: each row's case is one of the lemmas above. -/
theorem slicesPerformAccesses : Obligations.SlicesPerformAccesses := by
  refine ⟨?line, ?store, ?segment, ?fill, ?patrol⟩
  case line =>
    intro s n lru ecc tags t a pa u hacc hhome r
    refine ⟨fun hkind => ⟨fun ln hline hvalid => ?_, fun hline => ?_⟩,
      fun op wide words hkind => ⟨fun ln hline hvalid => ?_, fun hline => ?_⟩⟩
    · exact vatLoad_of_hit hacc lru hhome hkind (Prod.ext rfl hline) hvalid
    · exact vatLoad_of_noLine hacc lru hhome hkind (Prod.ext rfl hline)
    · exact vatAtomic_of_hit hacc lru hhome hkind (Prod.ext rfl hline) hvalid
    · exact vatAtomic_of_noLine hacc lru hhome hkind (Prod.ext rfl hline)
  case store =>
    intro s n lru ecc tags t a pa bytes poison ln u hacc hkind hhome r j hline hvalid
    exact vatStore_of_hit hacc lru hhome hkind (Prod.ext rfl hline) hvalid
  case segment =>
    intro s n lru ecc tags t a x u hacc hhome
    exact ⟨vatLoad_of_segment hacc lru hhome, fun _ _ => vatStore_of_segment hacc lru hhome,
      fun _ _ _ => vatAtomic_of_segment hacc lru hhome⟩
  case fill =>
    intro s n lru t a at_ pa u hacc hstage hhome v
    exact ⟨vatFillReturn_of_lost lru hacc hstage hhome, fun hserves =>
      ⟨vatFillReturn_of_read lru hacc hstage hhome hserves, fun _ _ => vatFillReturn_of_write lru hacc hstage hhome hserves,
        fun _ _ _ => vatFillReturn_of_atomic lru hacc hstage hhome hserves⟩⟩
  case patrol =>
    intro s slice set way ecc tags t u hopen htimed hslice hset hway hon hunread w
    have hdue := patrolDue_of_unread hopen htimed hslice hset hway hon hunread
    exact ⟨patrolScrub_of_converted hdue, fun _ _ _ => patrolScrub_of_cached hdue⟩

end Sys2Proof.Laws
end

section
/-!
PROOFS. Tiles and the end of a frame (spec 14, 15): the arguments that a launch takes, and what the assignment of a tile, the
launch of its fragment groups, the end of its flush and the end of its frame do where their guards hold.
-/

namespace Sys2Proof.Laws

open Machine

/-! The rows, by their meanings -/

theorem exec_tileAssign (q : QueueId) (core : Nat) (t : Stamp) (s : State) :
    exec (.tileAssign q core t) s = execTileAssign q core t s := rfl

theorem exec_fragmentGroupLaunch (core : Nat) (t : Stamp) (s : State) :
    exec (.fragmentGroupLaunch core t) s = execFragmentGroupLaunch core t s := rfl

theorem exec_tileFlushDone (core : Nat) (t : Stamp) (s : State) :
    exec (.tileFlushDone core t) s = execTileFlushDone core t s := rfl

theorem exec_frameEndComplete (q : QueueId) (t : Stamp) (s : State) :
    exec (.frameEndComplete q t) s = execFrameEndComplete q t s := rfl

/-! Launch arguments (R459) -/

section
variable {s : State} {q : QueueId} {core va : Nat} (tag : Word) (launch : State → List Byte → State)

theorem withArgs_of_wait {w : State} (h : readArgs s q core va = .wait w) : withArgs s q tag core va launch = w := by
  simp only [withArgs, h]

theorem withArgs_of_clean {bs : List (Byte × Bool)} (h : readArgs s q core va = .ready bs) (hclean : bs.any Prod.snd = false) :
    withArgs s q tag core va launch = useReads (launch s (bs.map Prod.fst)) (.args q core) := by
  simp only [withArgs, h, cleanBytes_of_clean hclean]

end

/-! Assignment (R457, R679, R680, R753, R758) -/

/-- The tile that a backend takes of a frame on a core: its samples, its primitives and its pass. -/
def takenTile (s : State) (q : QueueId) (f : Frame) (tile : Nat) : Tile :=
  { queue := q, tile := tile, part := f.flushing, samples := initialSamples f tile s.free, todo := tilePrims f tile
    pass := passNumber f }

/-- A tile of an allowed frame that no other outranks starts on a powered core that is free. -/
theorem tileAssign_of_free {s : State} {q : QueueId} {core tile : Nat} {t : Stamp} {f : Frame}
    (hmay : mayTile (s.upTo t) q = true) (hallowed : tileAllowed (s.upTo t) core q.ctx = true)
    (hrank : ((s.upTo t).gfx.frames.any fun e => e.1 != q && mayTile (s.upTo t) e.1 && tileAllowed (s.upTo t) core e.1.ctx &&
      lexLt (queueKey (s.upTo t) e.1) (queueKey (s.upTo t) q)) = false)
    (hbackend : domOn (s.upTo t) (65 + core / 4) = true) (hcore : domOn (s.upTo t) core = true)
    (hnone : getTile (s.upTo t) core = none) (hlocal : localUsed (s.upTo t) core (fun _ => false) ≤ 0x20000)
    (hpop : (getFrame (s.upTo t) q).bind popTile = some (tile, f)) :
    let u := s.upTo t
    let v := modFrame (useLocal { u with free := u.free + freePerIssue } core 0x10000) q fun _ => f
    exec (.tileAssign q core t) s =
      .next (startBins (startLoad (putTile v core (takenTile u q f tile)) core q f tile) core q f tile) := by
  simp only [exec_tileAssign, execTileAssign, takenTile, hmay, hallowed, hrank, hbackend, hcore, hnone, hpop, gt_iff_lt,
    Nat.not_lt.2 hlocal, decide_false, Bool.not_true, Option.isSome_none, Bool.or_self, Bool.false_eq_true, if_false]

/-! Fragment groups (R693, R694) -/

/-- Where the next closed quads may launch, they do with their arguments. -/
theorem fragmentGroupLaunch_of_fits {s : State} {core k : Nat} {t : Stamp} {tl : Tile} {f : Frame} {x : Quad}
    {rest : List (Nat × Quad)} {d : Draw} (htile : getTile (tileAdvance (s.upTo t) core) core = some tl)
    (hframe : getFrame (tileAdvance (s.upTo t) core) tl.queue = some f) (hquads : tl.quads = (k, x) :: rest)
    (hdraw : drawAt f k = some d) (hplace : placeable (tileAdvance (s.upTo t) core) tl.queue = true)
    (hcore : domOn (tileAdvance (s.upTo t) core) core = true)
    (hfits : fits (tileAdvance (s.upTo t) core) core (graphicsNeed tl.queue (fieldAt d.state 0x90 1)) = true) :
    exec (.fragmentGroupLaunch core t) s =
      .next (withArgs (tileAdvance (s.upTo t) core) tl.queue d.tag core (fieldAt d.state 0x88 6)
        fun s bs => launchQuads s core f tl d (nextQuads tl) bs) := by
  simp only [exec_fragmentGroupLaunch, execFragmentGroupLaunch, htile, hframe, hquads, hdraw, hplace, hcore, hfits,
    Bool.not_true, Bool.or_self, Bool.false_eq_true, if_false]

/-! The end of a flush (R389, R680, R684) -/

/-- A tile in its flush, with its writes sent and none left, is finished. -/
theorem tileFlushDone_of_flushed {s : State} {core : Nat} {t : Stamp} {tl : Tile} {f : Frame}
    (htile : getTile (tileAdvance (s.upTo t) core) core = some tl)
    (hframe : getFrame (tileAdvance (s.upTo t) core) tl.queue = some f) (hsent : tl.listDone = false)
    (hphase : tl.phase = .flush) (hacc : tileAccesses (tileAdvance (s.upTo t) core) core = []) :
    exec (.tileFlushDone core t) s = .next (finishTile (tileAdvance (s.upTo t) core) core f tl) := by
  simp only [exec_tileFlushDone, execTileFlushDone, htile, hframe, hsent, hphase, hacc, List.isEmpty_nil, decide_true,
    Bool.and_self, Bool.false_eq_true, if_false, if_true]

/-! The end of a frame (R631, R658, R662, R684) -/

section
variable {s : State} {q : QueueId} {t : Stamp} {f : Frame} {num : Nat} (hframe : getFrame (s.upTo t) q = some f)
  (hend : f.endPkt = some num) (hrendering : f.rendering = true) (hflushing : f.flushing = false) (htodo : f.todo = [])
  (htiles : noTiles (s.upTo t) q = true)
include hframe hend hrendering hflushing htodo htiles

/-- A rendered frame is closed with the writes of its status record, of RETIRED and of STATUS. -/
theorem frameEndComplete_of_rendered (hclosing : f.closing = false) :
    let v := binWrite (discardBins (s.upTo t) q f) q f.statusVa (statusRecord f)
    exec (.frameEndComplete q t) s =
      .next (modFrame (writePool (binWrite v q (f.pool + 0x14) (leBytes 4 f.taken)) q false) q
        fun f => { f with closing := true }) := by
  simp only [exec_frameEndComplete, execFrameEndComplete, hframe, hend, hrendering, hflushing, htodo, htiles, hclosing,
    List.isEmpty_nil, Bool.not_true, Bool.not_false, Bool.or_self, Bool.false_eq_true, if_false, if_true]

/-- A closed frame whose writes are performed is gone, and its FRAME_END completes. -/
theorem frameEndComplete_of_closed (hclosing : f.closing = true) (hpending : geomPending (s.upTo t) q = []) :
    let u := s.upTo t
    exec (.frameEndComplete q t) s = .next (completePkt { u with gfx := { u.gfx with
      frames := tblErase u.gfx.frames q, bound := if u.gfx.bound = some q then none else u.gfx.bound } } q num) := by
  simp only [exec_frameEndComplete, execFrameEndComplete, hframe, hend, hrendering, hflushing, htodo, htiles, hclosing, hpending,
    List.isEmpty_nil, Bool.not_true, Bool.or_self, Bool.false_eq_true, if_false]

end

/-- Settles O55: each row's case is one of the lemmas above; a launch goes on by what the reads of its arguments have come to. -/
theorem tileCommandsAct : Obligations.TileCommandsAct := by
  refine ⟨?assign, ?launch, ?flush, ?frameEnd⟩
  case assign =>
    intro s q core t tile f u hmay hallowed hrank hbackend hcore hnone hlocal hpop
    exact tileAssign_of_free hmay hallowed hrank hbackend hcore hnone hlocal hpop
  case launch =>
    intro s core t tl f k x rest d u htile hframe hquads hdraw hplace hcore hfits va
    rw [fragmentGroupLaunch_of_fits htile hframe hquads hdraw hplace hcore hfits]
    refine ⟨fun w hwait => ?_, fun bs hread hclean => ?_⟩
    · rw [withArgs_of_wait _ _ hwait]
    · rw [withArgs_of_clean _ _ hread hclean]
  case flush =>
    intro s core t tl f u htile hframe hsent hphase hacc
    exact tileFlushDone_of_flushed htile hframe hsent hphase hacc
  case frameEnd =>
    intro s q t f num u hframe hend hrendering hflushing htodo htiles v w
    exact ⟨frameEndComplete_of_rendered hframe hend hrendering hflushing htodo htiles,
      frameEndComplete_of_closed hframe hend hrendering hflushing htodo htiles⟩

end Sys2Proof.Laws
end

section
/-!
PROOFS. The fabric and the regulator (spec 09): the guard of each row, and what admission, boundaries, the routers, the timeouts, the
parity of the route tables and the acknowledgements do where their guards hold.
-/

namespace Sys2Proof.Laws

open Machine

/-! The rows, by their meanings -/

theorem exec_admissionAttempt (n : Nat) (t : Stamp) (s : State) :
    exec (.admissionAttempt n t) s = execAdmissionAttempt n t s := rfl

theorem exec_heldReattempt (ni part : Nat) (t : Stamp) (s : State) :
    exec (.heldReattempt ni part t) s = execHeldReattempt ni part t s := rfl

theorem exec_windowBoundary (part : Nat) (t : Stamp) (s : State) :
    exec (.windowBoundary part t) s = execWindowBoundary part t s := rfl

theorem exec_flitAged (k : Nat) (s : State) : exec (.flitAged k) s = execFlitAged k s := rfl

theorem exec_routerFlitArrive (n router flit : Nat) (ecc : EccResult) (grants : Nat) (upset : List Nat) (t : Stamp) (s : State) :
    exec (.routerFlitArrive n router flit ecc grants upset t) s = execRouterFlitArrive n router flit ecc grants upset t s := rfl

theorem exec_fabricTimeout (n : Nat) (t : Stamp) (s : State) : exec (.fabricTimeout n t) s = execFabricTimeout n t s := rfl

theorem exec_routeTablePatrol (upset : List (Nat × Nat)) (t : Stamp) (s : State) :
    exec (.routeTablePatrol upset t) s = execRouteTablePatrol upset t s := rfl

theorem exec_routeParityStorm (t : Stamp) (s : State) : exec (.routeParityStorm t) s = execRouteParityStorm t s := rfl

theorem exec_writeAcknowledge (n : Nat) (t : Stamp) (s : State) :
    exec (.writeAcknowledge n t) s = execWriteAcknowledge n t s := rfl

section
variable {s : State} {t : Stamp}

/-! Admission and windows (R425, R426, R429, R431, R434, R436) -/

/-- The request that is next in turn has its attempt, and the channel whose write beat it is has been served. -/
theorem admissionAttempt_of_next {n p : Nat} {a : Access} (hacc : getAccess (s.upTo t) n = some a) (hpart : a.part = some p)
    (hstage : a.stage = .atNi) (hnext : (nextQueued (s.upTo t) a.ni p).map Prod.fst = some n)
    (hwindow : inPartWindow (s.upTo t) p = true) :
    let v := (tryAdmit (s.upTo t) n a p).2
    exec (.admissionAttempt n t) s = .next (match a.writeBeat with | some ch => beatServed v ch true | none => v) := by
  simp only [exec_admissionAttempt, execAdmissionAttempt, hacc, hpart, hstage, hnext, hwindow, ne_eq, not_true_eq_false,
    decide_false, Bool.not_true, Bool.or_self, Bool.false_eq_true, if_false] <;> rfl

theorem heldReattempt_of_window {part : Nat} (htimed : timed (s.upTo t) = true) (hwindow : inPartWindow (s.upTo t) part = true)
    (ni : Nat) :
    exec (.heldReattempt ni part t) s =
      .next (reattempt (s.upTo t) ni part (queued (s.upTo t) ni part).length) := by
  simp only [exec_heldReattempt, execHeldReattempt, htimed, hwindow, Bool.and_self, if_true]

theorem windowBoundary_of_due {part : Nat} {b : Stamp} (htimed : timed (s.upTo t) = true) (hpart : part < 16)
    (hnext : nextBoundary (getPart (s.upTo t).fabric part) = some b) (hdue : b ≤ (s.upTo t).stamp) :
    let u := s.upTo t
    exec (.windowBoundary part t) s = .next { u with fabric := modPart u.fabric part fun p => p.boundary b } := by
  simp only [exec_windowBoundary, execWindowBoundary, htimed, hnext, hdue, ge_iff_le, Nat.not_le.2 hpart, decide_false,
    Bool.not_true, Bool.or_self, Bool.false_eq_true, if_false, if_true]

/-! Routers (R416, R418 to R420, R440, R442) -/

/-- A flit after its ageing: aged once it has waited 1,024 steps. -/
def agedFlit (f : WaitingFlit) : WaitingFlit := if 1024 ≤ f.steps then { f with aged := true } else f

theorem flitAged_eq (s : State) (k : Nat) :
    exec (.flitAged k) s = .next { s with fabric := { s.fabric with flits := s.fabric.flits.modify k agedFlit } } := rfl

/-- A router after the handshake steps up to the arrival of a flit; it has seen the flit if that is the header. -/
def arrivedAt (s : State) (router flit grants : Nat) (p : Packet) : State :=
  let v : State := { s with fabric := routerSteps s.fabric router (grants % 4096) }
  if flit = 0 then traceHeader v router (headerOf v p) else v

/-- A flit of a packet that waits at the output that the packet's route takes at a router. -/
def flitOf (p : Packet) (router : Nat) (e : Nat × Nat × Nat) : WaitingFlit :=
  { router := router, out := e.2.2, inp := e.2.1, response := p.response, yx := p.yx, pri := p.pri, spine := p.spine }

/-- A flit at a router of its packet's route is checked, and waits at its output unless its packet is dropped. -/
theorem routerFlitArrive_of_path {n router flit grants : Nat} {upset : List Nat} {y : InFlight} {p : Packet}
    {e : Nat × Nat × Nat} (hflight : inFlight (routeHeader (s.upTo t) n router flit upset) n = some (y, p))
    (hpath : p.path.find? (fun e => e.1 == router) = some e) (hflit : flit < 3) (ecc : EccResult) :
    let v := arrivedAt (routeHeader (s.upTo t) n router flit upset) router flit grants p
    let r := checkFlit v n y p router flit ecc
    exec (.routerFlitArrive n router flit ecc grants upset t) s = .next (if r.2 then
      { r.1 with fabric := { r.1.fabric with flits := r.1.fabric.flits ++ [flitOf p router e] } } else r.1) := by
  intro v r
  have hchecked : exec (.routerFlitArrive n router flit ecc grants upset t) s = if r.2 then
      .next { r.1 with fabric := { r.1.fabric with flits := r.1.fabric.flits ++ [flitOf p router e] } } else .next r.1 := by
    simp only [exec_routerFlitArrive, execRouterFlitArrive, hflight, hpath, ge_iff_le, Nat.not_le.2 hflit, if_false]
    rfl
  rw [hchecked, apply_ite Host.Outcome.next]

/-! Timeouts (R443) -/

/-- FABRIC_TIMEOUT gives up an access that has waited for the fabric to its limit. -/
theorem fabricTimeout_of_limit {n : Nat} {a : Access} (hacc : getAccess (s.upTo t) n = some a) (hwaits : awaitsFabric a = true)
    (htimed : timed (s.upTo t) = true) (hlimit : a.stamp + fabricLimit (s.upTo t) a.home ≤ (s.upTo t).stamp) :
    exec (.fabricTimeout n t) s = .next (timeoutRequest (s.upTo t) n a) := by
  simp only [exec_fabricTimeout, execFabricTimeout, hacc, hwaits, htimed, Nat.not_lt.2 hlimit, decide_false, Bool.not_true,
    Bool.or_self, Bool.false_eq_true, if_false]

theorem timeoutRequest_of_lost {a : Access} {at_ : Stamp} (hstage : a.stage = .lost at_) (s : State) (n : Nat) :
    timeoutRequest s n a =
      answerPoison (modAccess (timeoutRec s a.ctx a.ni) n fun y => { y with ended := some 0x0411 }) n := by
  simp only [timeoutRequest, hstage]

/-- A request that is not lost is answered with poison and goes on, its response to be discarded. -/
theorem timeoutRequest_of_served {a : Access} (hstage : ∀ at_, a.stage ≠ .lost at_) (hdropped : a.dropped = false) (s : State)
    (n : Nat) :
    let v := timeoutRec s a.ctx a.ni
    timeoutRequest s n a =
      deliver (addAccess (modAccess v n fun y => { y with dropped := true, lateFor := accessQueue v a.client }) { a with
        stage := .answered, bytes := List.replicate a.len 0#8, poison := true, fillPoison := List.replicate 4 true,
        stamp := v.stamp, ended := some 0x0411 }) a.client := by
  unfold timeoutRequest
  split
  · next at_ hlost => exact absurd hlost (hstage at_)
  · rw [hdropped]
    rfl

/-! Route-table parity (R444, R445) -/

theorem routeTablePatrol_of_due (hserves : mordantServes (s.upTo t) = true) (htimed : timed (s.upTo t) = true)
    (hdue : (s.upTo t).fabric.patrolled ≠ some ((s.upTo t).stamp / 10000000)) (upset : List (Nat × Nat)) :
    let u := s.upTo t
    exec (.routeTablePatrol upset t) s = .next (((List.range 96).filter niExists).foldl (fun v ni => patrolNi v upset ni)
      { u with fabric := { u.fabric with patrolled := some (u.stamp / 10000000) } }) := by
  simp only [exec_routeTablePatrol, execRouteTablePatrol, hserves, htimed, hdue, ne_eq, not_false_eq_true, decide_true,
    Bool.and_self, if_true]

theorem routeParityStorm_of_storm (hstorm : 16 < (settleParity (s.upTo t)).fabric.parityWin)
    (hmay : mayEnter (settleParity (s.upTo t)) 0x0413 = true) :
    let v := settleParity (s.upTo t)
    exec (.routeParityStorm t) s = .next (decideSepia (pushRecord v (deviceRec v 0x0413 6 [.b])) 0x0413 none) := by
  simp only [exec_routeParityStorm, execRouteParityStorm, hstorm, hmay, decide_true, Bool.and_self, if_true]

/-! Acknowledgements (R473) -/

theorem writeAcknowledge_of_answered {n : Nat} {a : Access} (hacc : getAccess (s.upTo t) n = some a)
    (hkind : a.kind.isWrite = true) (hstage : a.stage = .answered) (hkeeps : a.client.keepsWrite = false) :
    exec (.writeAcknowledge n t) s = .next (afterWrite (removeAccess (s.upTo t) n) a.client) := by
  simp only [exec_writeAcknowledge, execWriteAcknowledge, hacc, hkind, hstage, hkeeps, Bool.not_true, Bool.false_eq_true,
    if_false]

end

/-- Settles O52: each row's case is one of the lemmas above; a timeout acts by whether its request is lost. -/
theorem fabricCommandsAct : Obligations.FabricCommandsAct := by
  refine ⟨?attempt, ?held, ?boundary, ?aged, ?arrive, ?timeout, ?patrol, ?storm, ?acknowledge⟩
  case attempt =>
    intro s n t a p u hacc hpart hstage hnext hwindow v
    exact admissionAttempt_of_next hacc hpart hstage hnext hwindow
  case held =>
    intro s ni part t u htimed hwindow
    exact heldReattempt_of_window htimed hwindow ni
  case boundary =>
    intro s part t b u htimed hpart hnext hdue
    exact windowBoundary_of_due htimed hpart hnext hdue
  case aged =>
    intro s k f hflit
    refine ⟨_, flitAged_eq s k, rfl, ?_, fun j hj => ?_⟩
    · rw [List.getElem?_modify_eq, hflit]
      rfl
    · exact List.getElem?_modify_ne _ _ hj.symm
  case arrive =>
    intro s n router flit ecc grants upset t y p e u₀ _ hpath hflit u v₀ v r f hflight
    exact routerFlitArrive_of_path hflight hpath hflit ecc
  case timeout =>
    intro s n t a u hacc hwaits htimed hlimit v
    rw [fabricTimeout_of_limit hacc hwaits htimed hlimit]
    refine ⟨fun at_ hlost => ?_, fun hstage hdropped => ?_⟩
    · rw [timeoutRequest_of_lost hlost]
    · rw [timeoutRequest_of_served hstage hdropped]
  case patrol =>
    intro s upset t u hserves htimed hdue
    exact routeTablePatrol_of_due hserves htimed hdue upset
  case storm =>
    intro s t v hstorm hmay
    exact routeParityStorm_of_storm hstorm hmay
  case acknowledge =>
    intro s n t a u hacc hkind hstage hkeeps
    exact writeAcknowledge_of_answered hacc hkind hstage hkeeps

end Sys2Proof.Laws
end

section
/-!
PROOFS. The local store, fences, barriers and the return of loads (spec 10, 11): what a local access does where no lane
executes and where every executing lane is inside the allocation, said once for LDL, STL and ATOML; then the rows of FENCE, BAR
and LOAD_RETURN.
-/

namespace Sys2Proof.Laws

open Machine

/-! The rows, by their meanings -/

theorem exec_atoml (slot : Nat) (w : Insn) (t : Stamp) (s : State) : exec (.atoml slot w t) s = execAtoml slot w t s := rfl

theorem exec_fence (slot : Nat) (w : Insn) (t : Stamp) (s : State) : exec (.fence slot w t) s = execFence slot w t s := rfl

theorem exec_bar (slot : Nat) (w : Insn) (t : Stamp) (s : State) : exec (.bar slot w t) s = execBar slot w t s := rfl

theorem exec_loadReturn (slot num : Nat) (t : Stamp) (s : State) :
    exec (.loadReturn slot num t) s = execLoadReturn slot num t s := rfl

/-! Issued words and lanes -/

/-- An instruction with no check beyond its encoding runs its body where it issues. -/
theorem issueRow_of_issuing {s : State} {slot : Nat} {w : Insn} {t : Stamp} {mine : Nat → Bool} {x : Issued}
    (h : issuing s slot w t mine = some x) (body : Body) :
    issue slot w t s mine body = .next (body x.s slot x.g x.iw x.pc x.active x.fr) :=
  issue_of_issuing h body _ fun _ _ => rfl

/-- An issued instruction's fields are those of its word. -/
theorem iw_of_issuing {s : State} {slot : Nat} {w : Insn} {t : Stamp} {mine : Nat → Bool} {x : Issued}
    (h : issuing s slot w t mine = some x) : x.iw = iword w := by
  cases hg : getGroup (s.upTo t) slot with
  | none => simp [issuing, hg] at h
  | some g =>
    cases hp : groupPc g with
    | none => simp [issuing, hg, hp] at h
    | some pc =>
      simp only [issuing, hg, hp] at h
      grind

/-- A mask with no lane in it is 0. -/
theorem eq_zero_of_lanesOf_eq_nil {m : Word} (h : lanesOf m = []) : m = 0#32 := by
  refine BitVec.eq_of_getLsbD_eq fun l hl => ?_
  have hout := List.filter_eq_nil_iff.1 h l (List.mem_range.2 hl)
  simpa only [BitVec.getLsbD_zero, Bool.not_eq_true] using hout

/-! Local accesses (R469, R470, R478, R543) -/

/-- The executing lanes of an issued instruction, each with its offset in the local store. -/
def localLanes (x : Issued) (addr : Group → IWord → Nat → Nat) : List (Nat × Nat) :=
  (lanesOf (runMask x.g x.iw x.active)).map fun l => (l, addr x.g x.iw l)

/-- The effect of LDL on its group: each lane's bytes go to its registers. -/
def localLoad (iw : IWord) (_ : State) (wg : Workgroup) (g : Group) (lanes : List (Nat × Nat)) : Workgroup × Group :=
  (wg, lanes.foldl (fun h e =>
    putWords h false iw.d e.1 (loadWords (iw.mod % 8) (localBytes g.wg wg e.2 (widthBytes (iw.mod % 8))))) g)

/-- The effect of STL on its workgroup: each lane's data goes to its bytes. -/
def localStore (iw : IWord) (_ : State) (wg : Workgroup) (g : Group) (lanes : List (Nat × Nat)) : Workgroup × Group :=
  (lanes.foldl (fun v e => localPut v e.2 (storeData g iw (widthBytes (iw.mod % 8)) e.1)) wg, g)

/-- The bytes of an atomic's word: 8 in the wide form, else 4 (R530). -/
def atomBytes (iw : IWord) : Nat := if bitNat iw.aux 2 then 8 else 4

/-- The effect of ATOML on its workgroup and its group, lane by lane. -/
def localAtomic (iw : IWord) (_ : State) (wg : Workgroup) (g : Group) (lanes : List (Nat × Nat)) : Workgroup × Group :=
  lanes.foldl (fun acc e =>
    let old : Dword := BitVec.ofNat 64 (leNat (localBytes g.wg acc.1 e.2 (atomBytes iw)))
    let b := if iw.mod % 16 = 2 then atomOperand g iw iw.ck iw.c e.1 else 0#64
    let new := atomApply (atomOpOf (iw.mod % 16)) (bitNat iw.aux 2) old (atomOperand g iw iw.bk iw.b e.1) b
    (localPut acc.1 e.2 (leBytes (atomBytes iw) new.toNat),
      if iw.dk = 0 then
        putWords acc.2 false iw.d e.1 (loadWords (if bitNat iw.aux 2 then 5 else 4) (leBytes (atomBytes iw) old.toNat))
      else acc.2)) (wg, g)

/-- The offset of a lane of ATOML: a plus IMM32. -/
def atomOff (g : Group) (iw : IWord) (l : Nat) : Nat := (srcA g iw l + iw.imm).toNat

section
variable {x : Issued} {slot : Nat} {wg : Workgroup} (hwg : getWg x.s x.g.wg = some wg) {n : Nat}
  {addr : Group → IWord → Nat → Nat} (w : Insn) (f : State → Workgroup → Group → List (Nat × Nat) → Workgroup × Group)
  (fr : Nat)
include hwg

theorem localAccess_of_noLane (hlanes : localLanes x addr = []) :
    localAccess w n addr f x.s slot x.g x.iw x.pc x.active fr = x.next slot x.g := by
  rw [localLanes] at hlanes
  simp only [localAccess, hwg, hlanes, List.isEmpty_nil, if_true, Issued.next]

/-- An access that nothing holds, with every lane aligned and inside the allocation, has its effect; the fence is spent. -/
theorem localAccess_of_inside (hlanes : localLanes x addr ≠ []) (hmay : mayAccess x.s slot x.g = true)
    (hinside : ∀ e ∈ localLanes x addr, e.2 % n = 0 ∧ e.2 + n ≤ wg.lsBytes) :
    let r := f x.s wg x.fenced (localLanes x addr)
    localAccess w n addr f x.s slot x.g x.iw x.pc x.active fr =
      putGroup (putWg x.s x.g.wg r.1) slot (advance r.2 x.iw x.pc x.active) := by
  have haligned : ((localLanes x addr).find? fun e => e.2 % n != 0) = none :=
    List.find?_eq_none.2 fun e he => by simp only [(hinside e he).1, bne_self_eq_false, Bool.false_eq_true, not_false_eq_true]
  have hbounds : ((localLanes x addr).find? fun e => e.2 + n > wg.lsBytes) = none :=
    List.find?_eq_none.2 fun e he => by simpa only [gt_iff_lt, decide_eq_true_eq, Nat.not_lt] using (hinside e he).2
  have hsome : (localLanes x addr).isEmpty = false := List.isEmpty_eq_false_iff.2 hlanes
  rw [localLanes] at haligned hbounds hsome
  simp only [localAccess, hwg, hsome, hmay, haligned, hbounds, Bool.not_true, Bool.false_eq_true, if_false]
  rfl

end

theorem exec_ldl (slot : Nat) (w : Insn) (t : Stamp) (s : State) :
    exec (.ldl slot w t) s = issue slot w t s (· == 0x53)
      (localAccess w (widthBytes ((iword w).mod % 8)) localOff (localLoad (iword w))) := rfl

theorem exec_stl (slot : Nat) (w : Insn) (t : Stamp) (s : State) :
    exec (.stl slot w t) s = issue slot w t s (· == 0x54)
      (localAccess w (widthBytes ((iword w).mod % 8)) localOff (localStore (iword w))) := rfl

section
variable {s : State} {slot : Nat} {w : Insn} {t : Stamp} {x : Issued}

theorem ldl_of_issuing (hx : issuing s slot w t (· == 0x53) = some x) :
    exec (.ldl slot w t) s = .next (localAccess w (widthBytes (x.iw.mod % 8)) localOff (localLoad x.iw) x.s slot x.g x.iw x.pc
      x.active x.fr) := by
  rw [exec_ldl, issueRow_of_issuing hx, iw_of_issuing hx]

theorem stl_of_issuing (hx : issuing s slot w t (· == 0x54) = some x) :
    exec (.stl slot w t) s = .next (localAccess w (widthBytes (x.iw.mod % 8)) localOff (localStore x.iw) x.s slot x.g x.iw x.pc
      x.active x.fr) := by
  rw [exec_stl, issueRow_of_issuing hx, iw_of_issuing hx]

/-- ATOML goes on to its access where no lane executes, or where the fence that its release ordering asks for is met (R478). -/
theorem atoml_of_issuing (hx : issuing s slot w t (· == 0x58) = some x)
    (hready : lanesOf (runMask x.g x.iw x.active) = [] ∨ atomReady x.s slot x.g x.iw (atomScope x.iw) = true) :
    exec (.atoml slot w t) s = .next (localAccess w (atomBytes x.iw) atomOff (localAtomic x.iw) x.s slot x.g x.iw x.pc x.active
      x.fr) := by
  have hgo : (runMask x.g x.iw x.active != 0#32 && !atomReady x.s slot x.g x.iw (atomScope x.iw)) = false := by
    rcases hready with hnone | hready
    · rw [eq_zero_of_lanesOf_eq_nil hnone, bne_self_eq_false, Bool.false_and]
    · rw [hready, Bool.not_true, Bool.and_false]
  simp only [exec_atoml, execAtoml, issueRow_of_issuing hx, ← iw_of_issuing hx, hgo, Bool.false_eq_true, if_false]
  rfl

end

/-- Settles O36: each row is a local access, with no lane or with every lane inside the allocation. -/
theorem localAccessesActOnTheWorkgroupStore : Obligations.LocalAccessesActOnTheWorkgroupStore := by
  refine ⟨?load, ?store, ?atomic⟩
  case load =>
    intro s slot w t x wg hx hwg n lanes
    rw [ldl_of_issuing hx]
    refine ⟨fun hnone => ?_, fun hsome hmay hinside => ?_⟩
    · rw [localAccess_of_noLane hwg _ _ _ hnone]
    · rw [localAccess_of_inside hwg _ _ _ hsome hmay hinside]
      rfl
  case store =>
    intro s slot w t x wg hx hwg n lanes
    rw [stl_of_issuing hx]
    refine ⟨fun hnone => ?_, fun hsome hmay hinside => ?_⟩
    · rw [localAccess_of_noLane hwg _ _ _ hnone]
    · rw [localAccess_of_inside hwg _ _ _ hsome hmay hinside]
      rfl
  case atomic =>
    intro s slot w t x wg hx hwg wide n lanes
    refine ⟨fun hnone => ?_, fun hsome hmay hready hinside => ?_⟩
    · rw [atoml_of_issuing hx (.inl (List.map_eq_nil_iff.1 hnone)), localAccess_of_noLane (addr := atomOff) hwg _ _ _ hnone]
    · intro r
      rw [atoml_of_issuing hx (.inr hready),
        localAccess_of_inside (n := atomBytes x.iw) (addr := atomOff) hwg _ _ _ hsome hmay hinside]
      rfl

/-! Fences and barriers (R477, R478, R481, R531, R612) -/

section
variable {s : State} {slot : Nat} {w : Insn} {t : Stamp} {x : Issued} (hx : issuing s slot w t (· == 0x59) = some x)
include hx

theorem fence_of_noLane (hnone : runMask x.g x.iw x.active = 0#32) : exec (.fence slot w t) s = .next (x.next slot x.g) := by
  simp only [exec_fence, execFence, issueRow_of_issuing hx, hnone, if_true, Issued.next]

theorem fence_of_scopeZero (hsome : runMask x.g x.iw x.active ≠ 0#32) (hscope : x.iw.mod % 4 = 0) :
    exec (.fence slot w t) s = .next (x.next slot { x.g with fence := joinFence x.g.fence 0 }) := by
  simp only [exec_fence, execFence, issueRow_of_issuing hx, hsome, hscope, if_false, if_true, Issued.next]

/-- A fence of a wider scope, its stores acknowledged and the numeric status published, stays pending for later accesses. -/
theorem fence_of_published {v : State} {g : Group} (hsome : runMask x.g x.iw x.active ≠ 0#32) (hscope : x.iw.mod % 4 ≠ 0)
    (hmet : fenceMet x.s slot x.g 1 = true) (hpublish : publish x.s slot x.g x.pc w = .done v g) :
    exec (.fence slot w t) s = .next (putGroup v slot
      (advance { g with fence := joinFence g.fence (x.iw.mod % 4) } x.iw x.pc x.active)) := by
  simp only [exec_fence, execFence, issueRow_of_issuing hx, hsome, hscope, hmet, hpublish, Bool.not_true,
    Bool.false_eq_true, if_false]

end

/-! The return of a load (R476) -/

/-- A group after a load's data went to its registers: the load is gone, and an acquire that waited for it has ended. -/
def returnedLoad (g : Group) (l : LoadRec) (num : Nat) (as : List (Nat × Access)) : Group :=
  let g' := returnLoad g l as
  { g' with loads := g'.loads.filter fun y => y.num ≠ num, hold := if g'.hold = some num then none else g'.hold }

theorem loadReturn_of_answered {s : State} {slot num : Nat} {t : Stamp} {g : Group} {l : LoadRec}
    (hgroup : getGroup (s.upTo t) slot = some g) (hload : (g.loads.find? fun l => l.num = num) = some l)
    (hrunning : g.stopped = false) (hreplays : (g.replays.any fun a => a.client == .groupLoad slot num) = false)
    (hanswered : ∀ e ∈ loadAccesses (s.upTo t) slot num, e.2.stage = .answered ∧ e.2.poison = false) :
    let u := s.upTo t
    let as := loadAccesses u slot num
    exec (.loadReturn slot num t) s = .next
      (reapGroup (putGroup (as.foldl (fun v e => removeAccess v e.1) u) slot (returnedLoad g l num as)) slot) := by
  have hall : ((loadAccesses (s.upTo t) slot num).all fun e => e.2.stage == .answered) = true :=
    List.all_eq_true.2 fun e he => beq_iff_eq.2 (hanswered e he).1
  have hclean : ((loadAccesses (s.upTo t) slot num).any fun e => e.2.poison) = false :=
    List.any_eq_false.2 fun e he => Bool.eq_false_iff.1 (hanswered e he).2
  simp only [exec_loadReturn, execLoadReturn, hgroup, hload, hrunning, hreplays, hall, hclean, Bool.or_self, Bool.not_true,
    Bool.false_eq_true, if_false, returnedLoad]

/-- Settles O37: a fence by its lanes and its scope; BAR has no case of its own; a load returns once its lines have answered. -/
theorem fencesBarriersAndLoadReturnsComplete : Obligations.FencesBarriersAndLoadReturnsComplete := by
  refine ⟨?fence, ?barrier, ?loadReturn⟩
  case fence =>
    intro s slot w t x hx
    exact ⟨fence_of_noLane hx, fence_of_scopeZero hx, fun hsome hscope hmet v g => fence_of_published hx hsome hscope hmet⟩
  case barrier =>
    intro s slot w t x hx
    rw [exec_bar, execBar, issueRow_of_issuing hx]
  case loadReturn =>
    intro s slot num t g l hgroup hload u as hrunning hreplays hanswered
    exact loadReturn_of_answered hgroup hload hrunning hreplays hanswered

end Sys2Proof.Laws
end

section
/-!
PROOFS. Instructions that do not execute (spec 11 Table 11-11, R480, R494, R496, R503, R550): what an issue does at each of its
checks before the instruction's own meaning, said once for every row.
-/

namespace Sys2Proof.Laws

open Machine

/-! The checks of an issue, in their order -/

section
variable {s : State} {slot : Nat} {w : Insn} {t : Stamp} {g : Group} {pc : Nat} {mine : Nat → Bool} {body : Body}
  {bad : State → Nat → Group → IWord → Option Nat} (hgroup : getGroup (s.upTo t) slot = some g) (hpc : groupPc g = some pc)
include hgroup hpc

/-- A word that contradicts what was fetched changes nothing. -/
theorem issue_of_notFetched (hword : fetched (s.upTo t) g pc (iword w).len w = false) :
    issue slot w t s mine body bad = .next (s.upTo t) := by
  simp only [issue, hgroup, hpc, hword, Bool.not_false, Bool.or_true, if_true]

variable (hready : groupReady (s.upTo t) slot g = true) (hmine : mine (iword w).op = true)
  (hword : fetched (s.upTo t) g pc (iword w).len w = true)
include hready hmine hword

theorem issue_of_missing {v : Nat} (hfetch : instrFetch (s.upTo t) g pc (iword w).len = .missing v) :
    issue slot w t s mine body bad = .next (startFetch (s.upTo t) slot g v) := by
  simp only [issue, hgroup, hpc, hready, hmine, hword, hfetch, Bool.not_true, Bool.or_self, Bool.false_eq_true, if_false]

theorem issue_of_fetchFault {code v : Nat} (hfetch : instrFetch (s.upTo t) g pc (iword w).len = .fault code v) :
    issue slot w t s mine body bad = .next (groupFault (s.upTo t) slot g code (.va v) pc (activeMask g pc) w) := by
  simp only [issue, hgroup, hpc, hready, hmine, hword, hfetch, Bool.not_true, Bool.or_self, Bool.false_eq_true, if_false]

variable (hfetch : instrFetch (s.upTo t) g pc (iword w).len = .ready)
include hfetch

theorem issue_of_illegal {r : Nat} (hreason : illegalReason (iword w) g.kind (activeMask g pc) = some r) :
    issue slot w t s mine body bad = .next (groupFault (s.upTo t) slot g 0x0505 .none pc (activeMask g pc) w r) := by
  simp only [issue, hgroup, hpc, hready, hmine, hword, hfetch, hreason, Option.some_or, Bool.not_true, Bool.or_self,
    Bool.false_eq_true, if_false]

theorem issue_of_vregRange (hreason : illegalReason (iword w) g.kind (activeMask g pc) = none)
    (hbad : bad (s.upTo t) slot g (iword w) = none) (hrange : vregRange (iword w) g.vregs = true) :
    issue slot w t s mine body bad = .next (groupFault (s.upTo t) slot g 0x0504 .none pc (activeMask g pc) w) := by
  simp only [issue, hgroup, hpc, hready, hmine, hword, hfetch, hreason, hbad, hrange, Option.or_none, Bool.not_true,
    Bool.or_self, Bool.false_eq_true, if_false, if_true]

end

/-! The rows -/

theorem exec_undefinedOpcode (slot : Nat) (w : Insn) (t : Stamp) (s : State) :
    exec (.undefinedOpcode slot w t) s = execUndefinedOpcode slot w t s := rfl

/-- An opcode that Table 11-4 does not list is illegal with reason 1. -/
theorem illegalReason_of_undefined {iw : IWord} (hshape : shapeOf iw = none) (k : GroupKind) (active : Word) :
    illegalReason iw k active = some 1 := by
  simp only [illegalReason, hshape]

/-- The rows whose checks the statement names, each with its opcode. -/
def checkedRows : List ((Nat → Insn → Stamp → Instr) × Nat) :=
  [(Instr.mov, 0x01), (Instr.sel, 0x02), (Instr.iadd, 0x03), (Instr.fadd, 0x20), (Instr.ld, 0x50), (Instr.st, 0x51),
    (Instr.fence, 0x59), (Instr.bra, 0x70), (Instr.mark, 0x74), (Instr.mma, 0x81)]

/-- Each of these rows is an issue of its opcode with no check of its own. -/
theorem exec_of_mem_checkedRows {row : Nat → Insn → Stamp → Instr} {op : Nat} (h : (row, op) ∈ checkedRows) (slot : Nat)
    (w : Insn) (t : Stamp) (s : State) :
    ∃ body, exec (row slot w t) s = issue slot w t s (· == op) body fun _ _ _ _ => none := by
  simp only [checkedRows, List.mem_cons, List.not_mem_nil, or_false, Prod.mk.injEq] at h
  rcases h with ⟨rfl, rfl⟩ | ⟨rfl, rfl⟩ | ⟨rfl, rfl⟩ | ⟨rfl, rfl⟩ | ⟨rfl, rfl⟩ | ⟨rfl, rfl⟩ | ⟨rfl, rfl⟩ | ⟨rfl, rfl⟩ |
    ⟨rfl, rfl⟩ | ⟨rfl, rfl⟩
  all_goals exact ⟨_, rfl⟩

/-- Settles O41: an undefined opcode is illegal with reason 1; the other rows stop at the first check that fails. -/
theorem illegalInstructionsKillTheContext : Obligations.IllegalInstructionsKillTheContext := by
  intro s slot w t g pc hgroup hpc u iw active hready
  refine ⟨fun hword hfetch hshape => ?undefined, fun row op hrow hop => ?rows⟩
  case undefined =>
    have hmine : (shapeOf iw).isNone = true := Option.isNone_iff_eq_none.2 hshape
    rw [exec_undefinedOpcode, execUndefinedOpcode, issue_of_illegal hgroup hpc hready hmine hword hfetch
      (illegalReason_of_undefined hshape g.kind active)]
  case rows =>
    obtain ⟨body, hexec⟩ := exec_of_mem_checkedRows hrow slot w t s
    have hmine : (iw.op == op) = true := beq_iff_eq.2 hop
    rw [hexec]
    refine ⟨?_, fun v hword hfetch => ?_, fun code v hword hfetch => ?_, fun hword hfetch => ⟨fun r => ?_, fun hreason => ?_⟩⟩
    · exact issue_of_notFetched hgroup hpc
    · exact issue_of_missing hgroup hpc hready hmine hword hfetch
    · exact issue_of_fetchFault hgroup hpc hready hmine hword hfetch
    · exact issue_of_illegal hgroup hpc hready hmine hword hfetch
    · exact issue_of_vregRange hgroup hpc hready hmine hword hfetch hreason rfl

end Sys2Proof.Laws
end

section
/-!
PROOFS. Dispatches, placement and pre-emption (spec 10, 12, 17): a dispatch opens its grid, placement takes the core that fits,
and pre-emption takes the victims of its rank. One lemma says what a row does where its guard holds.
-/

namespace Sys2Proof.Laws

open Machine

/-! The rows, by their meanings -/

theorem exec_dispatch (q : QueueId) (t : Stamp) (s : State) : exec (.dispatch q t) s = execDispatch q t s := rfl

theorem exec_mdispatch (q : QueueId) (t : Stamp) (s : State) : exec (.mdispatch q t) s = execMdispatch q t s := rfl

theorem exec_dispatchIndirect (q : QueueId) (t : Stamp) (s : State) :
    exec (.dispatchIndirect q t) s = execDispatchIndirect q t s := rfl

theorem exec_mdispatchIndirect (q : QueueId) (t : Stamp) (s : State) :
    exec (.mdispatchIndirect q t) s = execMdispatchIndirect q t s := rfl

theorem exec_workgroupPlace (d core : Nat) (t : Stamp) (s : State) :
    exec (.workgroupPlace d core t) s = execWorkgroupPlace d core t s := rfl

theorem exec_placementReserve (d core : Nat) (t : Stamp) (s : State) :
    exec (.placementReserve d core t) s = execPlacementReserve d core t s := rfl

theorem exec_preemptDecision (q : QueueId) (kind : PreemptKind) (t : Stamp) (s : State) :
    exec (.preemptDecision q kind t) s = execPreemptDecision q kind t s := rfl

theorem exec_timeSliceBoundary (t : Stamp) (s : State) :
    exec (.timeSliceBoundary t) s = execTimeSliceBoundary t s := rfl

/-! Dispatch packets (R450, R451, R461, R561) -/

/-- The state in which a dispatch has joined those in progress. -/
def openDispatch (s : State) (d : Dispatch) : State :=
  { s with cores := { s.cores with
      dispatches := s.cores.dispatches ++ [(s.cores.nextDispatch, d)], nextDispatch := s.cores.nextDispatch + 1 } }

section
variable {s : State} {q : QueueId} {p : Pkt} {d : Dispatch} {accBad : Bool} (hfields : dispatchBad d = false)
  (hacc : accBad = false) (hgrid : gridBad d.grid = false) (hfits : unfit d = false)
include hfields hacc hgrid hfits

theorem startDispatch_of_grid (hsome : gridEmpty d.grid = false) (indirect : Bool) :
    startDispatch s q p d accBad indirect = openDispatch s d := by
  simp only [startDispatch, hfields, hacc, hgrid, hsome, hfits, Bool.and_false, Bool.or_self, Bool.false_eq_true, if_false,
    openDispatch]

/-- A grid read from memory may be empty: its packet then completes at once. -/
theorem startDispatch_of_indirect :
    startDispatch s q p d accBad true = if gridEmpty d.grid then completePkt s q p.num else openDispatch s d := by
  simp only [startDispatch, hfields, hacc, hgrid, hfits, Bool.not_true, Bool.false_and, Bool.or_self, Bool.false_eq_true,
    if_false, openDispatch]

end

/-- ACC_TILES of at most 64 is in range (Table 12-3). -/
theorem accTilesBad_of_le {bs : List Byte} (h : fieldAt bs 64 1 ≤ 64) : accTilesBad bs = false :=
  decide_eq_false (Nat.not_lt.2 h)

/-- An indirect dispatch whose grid words came without poison starts with them. -/
theorem indirectDispatch_of_clean {s : State} {q : QueueId} {bs : List Byte} {words : List (Byte × Bool)}
    (halign : gridVa bs % 4 = 0) (hread : readGrid s q bs = .ready words) (hclean : words.any Prod.snd = false) (p : Pkt)
    (drive : Option Nat) (accBad : Bool) :
    let g := words.map Prod.fst
    indirectDispatch s q p bs drive accBad =
      startDispatch s q p (dispatchOf s q p bs (fieldAt g 0 4, fieldAt g 4 4, fieldAt g 8 4) drive) accBad true := by
  simp only [indirectDispatch, halign, hread, cleanBytes_of_clean hclean, ne_eq, not_true_eq_false, if_false]

/-- Settles O47: a packet in range opens its grid; an indirect one takes its grid from memory, and completes where it is empty. -/
theorem dispatchPacketsOpenAGrid : Obligations.DispatchPacketsOpenAGrid := by
  refine ⟨?dispatch, ?mdispatch, ?dispatchIndirect, ?mdispatchIndirect⟩
  case dispatch =>
    intro s q t x hx d hfields hgrid hsome hfits
    rw [exec_dispatch, execDispatch, packetRow_of_starting hx, startDispatch_of_grid hfields rfl hgrid hfits hsome]
    rfl
  case mdispatch =>
    intro s q t x hx d hfields hgrid hsome hfits hacc
    rw [exec_mdispatch, execMdispatch, packetRow_of_starting hx,
      startDispatch_of_grid hfields (accTilesBad_of_le hacc) hgrid hfits hsome]
    rfl
  case dispatchIndirect =>
    intro s q t x bs hx halign hread hclean g d hfields hgrid hfits
    rw [exec_dispatchIndirect, execDispatchIndirect, packetRow_of_starting hx, indirectDispatch_of_clean halign hread hclean,
      startDispatch_of_indirect hfields rfl hgrid hfits]
    rfl
  case mdispatchIndirect =>
    intro s q t x bs hx halign hread hclean g d hfields hgrid hfits hacc
    rw [exec_mdispatchIndirect, execMdispatchIndirect, packetRow_of_starting hx,
      indirectDispatch_of_clean halign hread hclean,
      startDispatch_of_indirect hfields (accTilesBad_of_le hacc) hgrid hfits]
    rfl

/-! Placement (R453, R460, R755, R756) -/

section
variable {s : State} {d core : Nat} {t : Stamp} {x : Dispatch} (hdispatch : tblGet (s.upTo t).cores.dispatches d = some x)
include hdispatch

/-- The next workgroup goes, with its arguments, to the core chosen for it, unless another dispatch outranks its own there. -/
theorem workgroupPlace_of_fits (hcore : placeCore (s.upTo t) d x = some core)
    (hrank : outranked (s.upTo t) core (orderKey (s.upTo t) x.queue x.ready) = false) :
    exec (.workgroupPlace d core t) s =
      .next (withArgs (s.upTo t) x.queue x.tag core x.argVa fun s bs => launchWg s d x core bs) := by
  simp only [exec_workgroupPlace, execWorkgroupPlace, hdispatch, hcore, hrank, ne_eq, not_true_eq_false, decide_false,
    Bool.or_self, Bool.false_eq_true, if_false]

theorem placementReserve_of_late (htimed : timed (s.upTo t) = true) (hready : dispatchReady (s.upTo t) x = true)
    (htop : topDispatch (s.upTo t) d x = true) (hnone : ((s.upTo t).cores.reserve.any fun e => e.2 == d) = false)
    (hlate : heldMoreThan x.ready (s.upTo t).stamp 100000 = true)
    (hfirst : ((eligibleCores (s.upTo t) d x).find? fun c => fitsLess (s.upTo t) c x.need fun _ => true) = some core) :
    let u := s.upTo t
    exec (.placementReserve d core t) s =
      .next { u with cores := { u.cores with reserve := tblSet u.cores.reserve core d } } := by
  simp only [exec_placementReserve, execPlacementReserve, hdispatch, htimed, hready, htop, hnone, hlate, hfirst,
    beq_self_eq_true, Bool.not_false, Bool.and_self, if_true]

end

/-! Pre-emption (R757 to R760) -/

section
variable {s : State} {q : QueueId} {t : Stamp}

theorem preemptDecision_of_core {core d : Nat} {x : Dispatch} {vs : List (Nat × Workgroup)}
    (hwaiting : waitingDispatch (s.upTo t) q = some (d, x)) (hvictims : corePreempt (s.upTo t) d x = some (core, vs)) :
    exec (.preemptDecision q (.core core) t) s = .next (startCorePreempt (s.upTo t) d core vs) := by
  simp only [exec_preemptDecision, execPreemptDecision, hwaiting, hvictims, if_true]

theorem preemptDecision_of_queue {victim : QueueId} {r : Queue} (hvictim : getQueue (s.upTo t) victim = some r)
    (hrunning : r.preempting = none) (hplace : placeable (s.upTo t) q = true)
    (hwants : (wantsChannel (s.upTo t) q victim || wantsBinner (s.upTo t) q victim) = true) :
    exec (.preemptDecision q (.queue victim) t) s =
      .next (preemptQueue (s.upTo t) victim (preemptCode (s.upTo t) victim)) := by
  simp only [exec_preemptDecision, execPreemptDecision, hvictim, hrunning, hplace, hwants, Option.any_some, Option.isNone_none,
    Bool.and_self, if_true]

/-- The end of a time slice for one dispatch: where its queue starved, the lowest-ranked holder is pre-empted. -/
def endSlice (t : Stamp) (s : State) (e : Nat × Dispatch) : State :=
  if starved s e.1 e.2 t then
    match lowestQueue s (sliceHolders s e.1 e.2) with
    | some x => preemptQueue s x (preemptCode s x)
    | none => s
  else s

theorem timeSliceBoundary_of_due (htimed : timed (s.upTo t) = true) (hstamp : (s.upTo t).stamp = t)
    (hslice : t % 1000000 = 0) :
    exec (.timeSliceBoundary t) s = .next ((s.upTo t).cores.dispatches.foldl (endSlice t) (s.upTo t)) := by
  have hdue : (timed (s.upTo t) && (s.upTo t).stamp == t && t % 1000000 == 0) = true := by
    rw [htimed, hstamp, hslice, beq_self_eq_true, beq_self_eq_true, Bool.and_self, Bool.and_self]
  exact if_pos hdue

end

/-- Settles O48: each row's case is one of the lemmas above; a launch goes on by what the reads of its arguments have come to. -/
theorem placementAndPreemptionAct : Obligations.PlacementAndPreemptionAct := by
  refine ⟨?place, ?reserve, ?core, ?queue, ?slice⟩
  case place =>
    intro s d core t x u hdispatch hcore hrank
    rw [workgroupPlace_of_fits hdispatch hcore hrank]
    refine ⟨fun w hwait => ?_, fun bs hread hclean => ?_⟩
    · rw [withArgs_of_wait _ _ hwait]
    · rw [withArgs_of_clean _ _ hread hclean]
  case reserve =>
    intro s d core t x u hdispatch htimed hready htop hnone hlate hfirst
    exact placementReserve_of_late hdispatch htimed hready htop hnone hlate hfirst
  case core =>
    intro s q core t d x vs u hwaiting hvictims
    exact preemptDecision_of_core hwaiting hvictims
  case queue =>
    intro s q victim t r u hvictim hrunning hplace hwants
    exact preemptDecision_of_queue hvictim hrunning hplace hwants
  case slice =>
    intro s t u htimed hstamp hslice
    exact timeSliceBoundary_of_due htimed hstamp hslice

end Sys2Proof.Laws
end

section
/-!
PROOFS. Instructions that compute registers (spec 11 Table 11-4): a row is issued with the group that its function gives, which
is what its result by executing lane says; each statement is that fact at its rows.
-/

namespace Sys2Proof.Laws

open Machine

/-! The rows, by their meanings -/

theorem exec_frnd (slot : Nat) (w : Insn) (t : Stamp) (s : State) : exec (.frnd slot w t) s = execFrnd slot w t s := rfl

theorem exec_fcmp (slot : Nat) (w : Insn) (t : Stamp) (s : State) : exec (.fcmp slot w t) s = execFcmp slot w t s := rfl

theorem exec_hcmp2 (slot : Nat) (w : Insn) (t : Stamp) (s : State) : exec (.hcmp2 slot w t) s = execHcmp2 slot w t s := rfl

theorem exec_cvtf (slot : Nat) (w : Insn) (t : Stamp) (s : State) : exec (.cvtf slot w t) s = execCvtf slot w t s := rfl

theorem exec_cvtif (slot : Nat) (w : Insn) (t : Stamp) (s : State) : exec (.cvtif slot w t) s = execCvtif slot w t s := rfl

theorem exec_bquant (slot : Nat) (w : Insn) (t : Stamp) (s : State) :
    exec (.bquant slot w t) s = execBquant slot w t s := rfl

theorem exec_cvtfi (slot : Nat) (w : Insn) (t : Stamp) (s : State) : exec (.cvtfi slot w t) s = execCvtfi slot w t s := rfl

theorem exec_bdeq (slot : Nat) (w : Insn) (t : Stamp) (s : State) : exec (.bdeq slot w t) s = execBdeq slot w t s := rfl

theorem exec_bscale (slot : Nat) (w : Insn) (t : Stamp) (s : State) :
    exec (.bscale slot w t) s = execBscale slot w t s := rfl

theorem exec_icmp (slot : Nat) (w : Insn) (t : Stamp) (s : State) : exec (.icmp slot w t) s = execIcmp slot w t s := rfl

theorem exec_iadd64 (slot : Nat) (w : Insn) (t : Stamp) (s : State) :
    exec (.iadd64 slot w t) s = execIadd64 slot w t s := rfl

theorem exec_imadw (slot : Nat) (w : Insn) (t : Stamp) (s : State) : exec (.imadw slot w t) s = execImadw slot w t s := rfl

theorem exec_shfl (slot : Nat) (w : Insn) (t : Stamp) (s : State) : exec (.shfl slot w t) s = execShfl slot w t s := rfl

theorem exec_readlane (slot : Nat) (w : Insn) (t : Stamp) (s : State) :
    exec (.readlane slot w t) s = execReadlane slot w t s := rfl

theorem exec_ballot (slot : Nat) (w : Insn) (t : Stamp) (s : State) :
    exec (.ballot slot w t) s = execBallot slot w t s := rfl

theorem exec_reduce (slot : Nat) (w : Insn) (t : Stamp) (s : State) :
    exec (.reduce slot w t) s = execReduce slot w t s := rfl

theorem exec_sread (slot : Nat) (w : Insn) (t : Stamp) (s : State) : exec (.sread slot w t) s = execSread slot w t s := rfl

theorem exec_plop (slot : Nat) (w : Insn) (t : Stamp) (s : State) : exec (.plop slot w t) s = execPlop slot w t s := rfl

theorem exec_pmov (slot : Nat) (w : Insn) (t : Stamp) (s : State) : exec (.pmov slot w t) s = execPmov slot w t s := rfl

/-! Rows by what they give their group -/

section
variable {s : State} {slot : Nat} {w : Insn} {t : Stamp} {op : Nat} {x : Issued} (hx : issuing s slot w t (· == op) = some x)
include hx

/-- A row with a result by lane. -/
theorem wordRow_of_issuing (f : Group → IWord → Nat → Word) :
    wordRow slot w t s op f = .next (x.result slot (f x.g x.iw)) :=
  groupRow_of_issuing hx fun g iw lanes _ => writeResult g iw lanes (f g iw)

/-- A row of one source. -/
theorem unRow_of_issuing (f : Word → Word) : unRow slot w t s op f = .next (x.result slot fun l => f (x.a l)) :=
  wordRow_of_issuing hx _

/-- A row of two sources. -/
theorem binRow_of_issuing (f : IWord → Word → Word → Word) :
    binRow slot w t s op f = .next (x.result slot fun l => f x.iw (x.a l) (x.b l)) := wordRow_of_issuing hx _

/-- A row of FP32 arithmetic rounds the exact result of its modified sources (R515). -/
theorem fpRow_of_issuing (f : IWord → FVal → FVal → FVal → FVal) :
    fpRow slot w t s op f = .next (x.result slot fun l =>
      roundF x.iw (f x.iw (fA x.g x.iw l x.fr) (fB x.g x.iw l x.fr) (fC x.g x.iw l x.fr))) := groupRow_of_issuing hx _

/-- A row of the special-function unit takes its modified source and the free value of the lane (R516). -/
theorem sfuRow_of_issuing (f : FVal → Word → Word) :
    sfuRow slot w t s op f = .next (x.result slot fun l => f (fA x.g x.iw l x.fr) (Config.freeWord (x.fr + l))) :=
  groupRow_of_issuing hx _

/-- A row of FP16×2 arithmetic gives its two halves (R517). -/
theorem halfRow_of_issuing (f : IWord → FVal → FVal → FVal → FVal) :
    halfRow slot w t s op f = .next (x.result slot fun l =>
      BitVec.ofNat 32 (halfResult f x.g x.iw l x.fr false + 65536 * halfResult f x.g x.iw l x.fr true)) :=
  groupRow_of_issuing hx _

/-- A conversion writes the codes of the lanes and notes their events in ascending lane order, with a draw for each lane where it
draws (R521, R611). -/
theorem convRow_of_issuing (draws : IWord → Bool) (f : Group → IWord → Nat → Nat → Nat × NumEvent) :
    convRow slot w t s op draws f = .next (x.next slot
      { writeResult x.g x.iw x.lanes fun l => BitVec.ofNat 32 (f x.g x.iw l x.fr).1 with
        num := x.lanes.foldl (fun n l =>
          let n := Numeric.note n (f x.g x.iw l x.fr).2
          if draws x.iw then n.advance l else n) x.g.num }) := groupRow_of_issuing hx _

end

/-- Settles O27: each row is one of one source, of two sources or of three. -/
theorem logicAndAddInstructionsWriteTheirResult : Obligations.LogicAndAddInstructionsWriteTheirResult := by
  refine ⟨?mov, ?iadd, ?isub, ?imul, ?imad, ?and, ?or, ?xor, ?not, ?shl, ?shr, ?sar, ?sel⟩
  case mov => exact fun _ _ _ _ _ hx => unRow_of_issuing hx fun a => a
  case iadd => exact fun _ _ _ _ _ hx => binRow_of_issuing hx fun _ a b => a + b
  case isub => exact fun _ _ _ _ _ hx => binRow_of_issuing hx fun _ a b => a - b
  case imul => exact fun _ _ _ _ _ hx => binRow_of_issuing hx fun _ a b => a * b
  case imad => exact fun _ _ _ _ _ hx => wordRow_of_issuing hx fun g iw l => srcA g iw l * srcB g iw l + srcC g iw l
  case and => exact fun _ _ _ _ _ hx => binRow_of_issuing hx fun _ a b => a &&& b
  case or => exact fun _ _ _ _ _ hx => binRow_of_issuing hx fun _ a b => a ||| b
  case xor => exact fun _ _ _ _ _ hx => binRow_of_issuing hx fun _ a b => a ^^^ b
  case not => exact fun _ _ _ _ _ hx => unRow_of_issuing hx fun a => ~~~a
  case shl => exact fun _ _ _ _ _ hx => binRow_of_issuing hx fun _ a b => a <<< shiftCount b
  case shr => exact fun _ _ _ _ _ hx => binRow_of_issuing hx fun _ a b => a >>> shiftCount b
  case sar => exact fun _ _ _ _ _ hx => binRow_of_issuing hx fun _ a b => a.sshiftRight (shiftCount b)
  case sel => exact fun _ _ _ _ _ hx => wordRow_of_issuing hx fun g iw l => if srcC g iw l = 0#32 then srcB g iw l else srcA g iw l

/-! The lesser and the greater of two words -/

/-- The order of two words is at most 0 exactly where the second one is not less. -/
theorem intOrder_le_zero (sgn : Bool) (a b : Word) : intOrder sgn a b ≤ 0 ↔ (if sgn then b.slt a else b.ult a) = false := by
  cases sgn
  · simp only [intOrder, BitVec.ult]
    grind
  · simp only [intOrder, BitVec.slt]
    grind

theorem zero_le_intOrder (sgn : Bool) (a b : Word) : 0 ≤ intOrder sgn a b ↔ (if sgn then a.slt b else a.ult b) = false := by
  cases sgn
  · simp only [intOrder, BitVec.ult]
    grind
  · simp only [intOrder, BitVec.slt]
    grind

theorem intMin_eq (sgn : Bool) (a b : Word) :
    intMin sgn a b = if sgn then (if b.slt a then b else a) else if b.ult a then b else a := by
  cases sgn <;> grind [intMin, intOrder_le_zero]

theorem intMax_eq (sgn : Bool) (a b : Word) :
    intMax sgn a b = if sgn then (if a.slt b then b else a) else if a.ult b then b else a := by
  cases sgn <;> grind [intMax, zero_le_intOrder]

theorem popCount_eq (a : Word) : popCount a = BitVec.ofNat 32 ((List.range 32).countP fun k => a.getLsbD k) := by
  rw [popCount, List.countP_eq_length_filter]

/-- Settles O28: the rows of one and of two sources by their functions, the field instructions by lane. -/
theorem wideAndBitInstructionsWriteTheirResult : Obligations.WideAndBitInstructionsWriteTheirResult := by
  refine ⟨?imulhi, ?imin, ?imax, ?bfe, ?bfi, ?popc, ?clz, ?brev⟩
  case imulhi => exact fun _ _ _ _ _ hx => binRow_of_issuing hx fun iw a b => mulHigh (bitNat iw.mod 0) a b
  case imin =>
    intro s slot w t x hx
    simp only [← intMin_eq]
    exact binRow_of_issuing hx fun iw a b => intMin (bitNat iw.mod 0) a b
  case imax =>
    intro s slot w t x hx
    simp only [← intMax_eq]
    exact binRow_of_issuing hx fun iw a b => intMax (bitNat iw.mod 0) a b
  case bfe =>
    exact fun _ _ _ _ _ hx => wordRow_of_issuing hx fun g iw l =>
      bitExtract (bitNat iw.mod 0) (srcA g iw l) (srcB g iw l) (srcC g iw l)
  case bfi => exact fun _ _ _ _ _ hx => wordRow_of_issuing hx fun g iw l => bitInsert (srcA g iw l) (srcB g iw l) (srcC g iw l)
  case popc =>
    intro s slot w t x hx
    simp only [← popCount_eq]
    exact unRow_of_issuing hx popCount
  case clz => exact fun _ _ _ _ _ hx => unRow_of_issuing hx leadingZeros
  case brev => exact fun _ _ _ _ _ hx => unRow_of_issuing hx bitReverse

/-- Settles O29: five rows of FP32 arithmetic, FFRACT of the special-function unit, and FRND. -/
theorem floatArithmeticRoundsTheExactResult : Obligations.FloatArithmeticRoundsTheExactResult := by
  refine ⟨?fadd, ?fmul, ?ffma, ?fmin, ?fmax, ?ffract, ?frnd⟩
  case fadd => exact fun _ _ _ _ _ hx => fpRow_of_issuing hx fun iw a b _ => faddExact (downMode iw) a b
  case fmul => exact fun _ _ _ _ _ hx => fpRow_of_issuing hx fun _ a b _ => fmulExact a b
  case ffma => exact fun _ _ _ _ _ hx => fpRow_of_issuing hx fun iw a b c => faddExact (downMode iw) (fmulExact a b) c
  case fmin => exact fun _ _ _ _ _ hx => fpRow_of_issuing hx fun _ a b _ => fminNum a b
  case fmax => exact fun _ _ _ _ _ hx => fpRow_of_issuing hx fun _ a b _ => fmaxNum a b
  case ffract => exact fun _ _ _ _ _ hx => sfuRow_of_issuing hx fun a _ => toF32 0 (faddExact false a (floorVal a).neg)
  case frnd => exact fun s slot w t _ hx => (exec_frnd slot w t s).trans (groupRow_of_issuing hx _)

/-- Settles O30: every row is one of the special-function unit. -/
theorem specialFunctionsWriteABoundedResult : Obligations.SpecialFunctionsWriteABoundedResult := by
  refine ⟨?frcp, ?frsq, ?fsqrt, ?fexp2, ?flog2, ?fsin, ?fcos⟩
  case frcp => exact fun _ _ _ _ _ hx => sfuRow_of_issuing hx frcp
  case frsq => exact fun _ _ _ _ _ hx => sfuRow_of_issuing hx frsq
  case fsqrt => exact fun _ _ _ _ _ hx => sfuRow_of_issuing hx fsqrt
  case fexp2 => exact fun _ _ _ _ _ hx => sfuRow_of_issuing hx fexp2
  case flog2 => exact fun _ _ _ _ _ hx => sfuRow_of_issuing hx flog2
  case fsin => exact fun _ _ _ _ _ hx => sfuRow_of_issuing hx fun a f => fsincos a 0 f
  case fcos => exact fun _ _ _ _ _ hx => sfuRow_of_issuing hx fun a f => fsincos a (2 ^ 78) f

/-- Settles O31: five rows of FP16×2 arithmetic, the comparison FCMP, and the two comparisons of HCMP2. -/
theorem halfPairsComputeEachHalf : Obligations.HalfPairsComputeEachHalf := by
  refine ⟨?hadd2, ?hmul2, ?hfma2, ?hmin2, ?hmax2, ?fcmp, ?hcmp2⟩
  case hadd2 => exact fun _ _ _ _ _ hx => halfRow_of_issuing hx fun iw a b _ => faddExact (downMode iw) a b
  case hmul2 => exact fun _ _ _ _ _ hx => halfRow_of_issuing hx fun _ a b _ => fmulExact a b
  case hfma2 => exact fun _ _ _ _ _ hx => halfRow_of_issuing hx fun iw a b c => faddExact (downMode iw) (fmulExact a b) c
  case hmin2 => exact fun _ _ _ _ _ hx => halfRow_of_issuing hx fun _ a b _ => fminNum a b
  case hmax2 => exact fun _ _ _ _ _ hx => halfRow_of_issuing hx fun _ a b _ => fmaxNum a b
  case fcmp => exact fun s slot w t _ hx => (exec_fcmp slot w t s).trans (groupRow_of_issuing hx _)
  case hcmp2 => exact fun s slot w t _ hx => (exec_hcmp2 slot w t s).trans (groupRow_of_issuing hx _)

/-- Settles O32: three conversions that count, two that do not, and BSCALE. -/
theorem conversionsWriteTheCodeAndCountEvents : Obligations.ConversionsWriteTheCodeAndCountEvents := by
  refine ⟨?cvtf, ?cvtif, ?bquant, ?cvtfi, ?bdeq, ?bscale⟩
  case cvtf => exact fun s slot w t _ hx => (exec_cvtf slot w t s).trans (convRow_of_issuing hx _ _)
  case cvtif => exact fun s slot w t _ hx => (exec_cvtif slot w t s).trans (convRow_of_issuing hx _ _)
  case bquant => exact fun s slot w t _ hx => (exec_bquant slot w t s).trans (convRow_of_issuing hx _ _)
  case cvtfi => exact fun s slot w t _ hx => (exec_cvtfi slot w t s).trans (groupRow_of_issuing hx _)
  case bdeq => exact fun s slot w t _ hx => (exec_bdeq slot w t s).trans (groupRow_of_issuing hx _)
  case bscale => exact fun s slot w t _ hx => (exec_bscale slot w t s).trans (groupRow_of_issuing hx _)

/-- Settles O33: rows by the group, the word, the pair or the condition that they give; SHFL, READLANE and SREAD read more than
their group. -/
theorem laneAndPredicateInstructionsWriteTheirResult : Obligations.LaneAndPredicateInstructionsWriteTheirResult := by
  refine ⟨?nop, ?icmp, ?iadd64, ?imadw, ?shfl, ?readlane, ?ballot, ?reduce, ?sread, ?plop, ?pmov⟩
  case nop => exact fun _ _ _ _ _ hx => groupRow_of_issuing hx fun g _ _ _ => g
  case icmp => exact fun s slot w t _ hx => (exec_icmp slot w t s).trans (groupRow_of_issuing hx _)
  case iadd64 => exact fun s slot w t _ hx => (exec_iadd64 slot w t s).trans (groupRow_of_issuing hx _)
  case imadw => exact fun s slot w t _ hx => (exec_imadw slot w t s).trans (groupRow_of_issuing hx _)
  case shfl => exact fun s slot w t _ hx => (exec_shfl slot w t s).trans (issueRow_of_issuing hx _)
  case readlane => exact fun s slot w t _ hx => (exec_readlane slot w t s).trans (issueRow_of_issuing hx _)
  case ballot => exact fun s slot w t _ hx => (exec_ballot slot w t s).trans (groupRow_of_issuing hx _)
  case reduce => exact fun s slot w t _ hx => (exec_reduce slot w t s).trans (groupRow_of_issuing hx _)
  case sread => exact fun s slot w t _ hx => (exec_sread slot w t s).trans (issueRow_of_issuing hx _)
  case plop => exact fun s slot w t _ hx => (exec_plop slot w t s).trans (groupRow_of_issuing hx _)
  case pmov => exact fun s slot w t _ hx => (exec_pmov slot w t s).trans (groupRow_of_issuing hx _)

end Sys2Proof.Laws
end

section
/-!
PROOFS. What a register instruction leaves unchanged (spec 11 R509, R512): a write of one register or predicate in one lane
leaves the others, so does a result or a condition by lane, and the command leaves the other groups and the rest of the state.
-/

namespace Sys2Proof.Laws

open Machine

/-! One register, one predicate -/

theorem vreg_setVreg_of_ne (g : Group) {r l r' l' : Nat} (x : Word) (h : r ≠ r' ∨ l ≠ l') :
    vreg (setVreg g r l x) r' l' = vreg g r' l' := by
  simp only [vreg, setVreg, List.getD_eq_getElem?_getD, List.getElem?_modify]
  by_cases hr : r = r'
  · subst hr
    have hl : l ≠ l' := h.resolve_left fun k => k rfl
    cases g.v[r]? with
    | none => rfl
    | some ws => simp [List.getElem?_set_ne hl]
  · simp [hr]

theorem sreg_setSreg_of_ne (g : Group) {r r' : Nat} (x : Word) (h : r ≠ r') : sreg (setSreg g r x) r' = sreg g r' := by
  simp only [sreg, setSreg, List.getD_eq_getElem?_getD, List.getElem?_set_ne h]

/-- The mask with bit l has no other bit. -/
theorem getLsbD_one_shiftLeft_of_ne {l l' : Nat} (h : l ≠ l') : (1#32 <<< l).getLsbD l' = false := by
  simp only [BitVec.getLsbD_shiftLeft, BitVec.getLsbD_one]
  grind

theorem preg_setPreg_of_ne (g : Group) {r l r' l' : Nat} (x : Bool) (hl' : l' < 32) (h : r ≠ r' ∨ l ≠ l') :
    preg (setPreg g r l x) r' l' = preg g r' l' := by
  simp only [preg, setPreg, List.getD_eq_getElem?_getD, List.getElem?_modify]
  by_cases hr : r = r'
  · subst hr
    have hl : l ≠ l' := h.resolve_left fun k => k rfl
    have hbit := getLsbD_one_shiftLeft_of_ne hl
    cases g.preds[r]? with
    | none => rfl
    | some p =>
      cases x <;> simp only [if_true, Option.map_some, Option.map_eq_map, Option.getD_some, Bool.false_eq_true, if_false,
        BitVec.getLsbD_or, BitVec.getLsbD_and, BitVec.getLsbD_not, hbit, hl', decide_true, Bool.not_false, Bool.and_true,
        Bool.or_false]
  · simp [hr]

/-! Results and conditions by lane -/

/-- A group after a result of `width` registers in lanes went to the destination of a word: only its vector and scalar registers
can differ, and of them only those of the destination. -/
structure ResultFrame (iw : IWord) (lanes : List Nat) (width : Nat) (g g' : Group) : Prop where
  rest : g' = { g with v := g'.v, sregs := g'.sregs }
  vregs : ∀ r l, (iw.dk = 1 ∨ r < iw.d ∨ iw.d + width ≤ r ∨ l ∉ lanes) → vreg g' r l = vreg g r l
  sregs : ∀ r, (iw.dk ≠ 1 ∨ r < iw.d ∨ iw.d + width ≤ r) → sreg g' r = sreg g r

namespace ResultFrame

variable {iw : IWord} {lanes : List Nat} {width : Nat} {g g' g'' : Group}

theorem refl (g : Group) : ResultFrame iw lanes width g g := ⟨rfl, fun _ _ _ => rfl, fun _ _ => rfl⟩

theorem trans (h : ResultFrame iw lanes width g g') (h' : ResultFrame iw lanes width g' g'') :
    ResultFrame iw lanes width g g'' where
  rest := h'.rest.trans (congrArg (fun k : Group => { k with v := g''.v, sregs := g''.sregs }) h.rest)
  vregs r l hout := (h'.vregs r l hout).trans (h.vregs r l hout)
  sregs r hout := (h'.sregs r hout).trans (h.sregs r hout)

/-- A write of a vector register of the destination in a lane. -/
theorem setVreg {r l : Nat} (hk : iw.dk ≠ 1) (hlo : iw.d ≤ r) (hhi : r < iw.d + width) (hl : l ∈ lanes) (x : Word) :
    ResultFrame iw lanes width g (setVreg g r l x) where
  rest := rfl
  vregs r' l' hout := vreg_setVreg_of_ne g x (by
    by_cases hr : r = r'
    · rcases hout with h | h | h | h
      · exact absurd h hk
      · omega
      · omega
      · exact .inr fun e => h (e ▸ hl)
    · exact .inl hr)
  sregs _ _ := rfl

/-- A write of a scalar register of the destination. -/
theorem setSreg {r : Nat} (hk : iw.dk = 1) (hlo : iw.d ≤ r) (hhi : r < iw.d + width) (x : Word) :
    ResultFrame iw lanes width g (setSreg g r x) where
  rest := rfl
  vregs _ _ _ := rfl
  sregs r' hout := sreg_setSreg_of_ne g x (by
    rcases hout with h | h | h
    · exact absurd hk h
    · omega
    · omega)

/-- A fold over lanes keeps the frame where each of its steps does. -/
theorem foldl {f : Group → Nat → Group} (h : ∀ g, ∀ l ∈ lanes, ResultFrame iw lanes width g (f g l)) :
    ResultFrame iw lanes width g (lanes.foldl f g) :=
  List.foldlRecOn (motive := fun g' => ResultFrame iw lanes width g g') lanes f (refl g)
    fun g' hg' l hl => hg'.trans (h g' l hl)

theorem writeResult (g : Group) (f : Nat → Word) : ResultFrame iw lanes 1 g (writeResult g iw lanes f) := by
  unfold Machine.writeResult
  split
  case isTrue hk => exact setSreg hk (Nat.le_refl _) (by omega) _
  case isFalse hk => exact foldl fun g' l hl => setVreg hk (Nat.le_refl _) (by omega) hl _

theorem writeResult64 (g : Group) (f : Nat → Dword) : ResultFrame iw lanes 2 g (writeResult64 g iw lanes f) := by
  unfold Machine.writeResult64
  dsimp only
  split
  case isTrue hk => exact (setSreg hk (Nat.le_refl _) (by omega) _).trans (setSreg hk (by omega) (by omega) _)
  case isFalse hk =>
    exact foldl fun g' l hl =>
      (setVreg hk (Nat.le_refl _) (by omega) hl _).trans (setVreg hk (by omega) (by omega) hl _)

end ResultFrame

/-- A group after a condition in lanes went to the destination of a word: only its predicates and scalar registers can differ,
and of them only the destination. -/
structure CondFrame (iw : IWord) (lanes : List Nat) (g g' : Group) : Prop where
  rest : g' = { g with preds := g'.preds, sregs := g'.sregs }
  pregs : ∀ r l, l < 32 → (iw.dk = 1 ∨ r ≠ iw.d ∨ l ∉ lanes) → preg g' r l = preg g r l
  sregs : ∀ r, (iw.dk ≠ 1 ∨ r ≠ iw.d) → sreg g' r = sreg g r

namespace CondFrame

variable {iw : IWord} {lanes : List Nat} {g g' g'' : Group}

theorem trans (h : CondFrame iw lanes g g') (h' : CondFrame iw lanes g' g'') : CondFrame iw lanes g g'' where
  rest := h'.rest.trans (congrArg (fun k : Group => { k with preds := g''.preds, sregs := g''.sregs }) h.rest)
  pregs r l hl hout := (h'.pregs r l hl hout).trans (h.pregs r l hl hout)
  sregs r hout := (h'.sregs r hout).trans (h.sregs r hout)

/-- A write of the destination predicate in a lane. -/
theorem setPreg {l : Nat} (hk : iw.dk ≠ 1) (hl : l ∈ lanes) (x : Bool) : CondFrame iw lanes g (setPreg g iw.d l x) where
  rest := rfl
  pregs r' l' hl' hout := preg_setPreg_of_ne g x hl' (by
    rcases hout with h | h | h
    · exact absurd h hk
    · exact .inl h.symm
    · exact .inr fun e => h (e ▸ hl))
  sregs _ _ := rfl

theorem writeCond (g : Group) (f : Nat → Bool) : CondFrame iw lanes g (writeCond g iw lanes f) := by
  unfold Machine.writeCond
  split
  case isTrue hk => exact ⟨rfl, fun _ _ _ _ => rfl, fun r hout => sreg_setSreg_of_ne g _ (hout.resolve_left fun h => h hk).symm⟩
  case isFalse hk =>
    exact List.foldlRecOn (motive := fun g' => CondFrame iw lanes g g') lanes _ ⟨rfl, fun _ _ _ _ => rfl, fun _ _ => rfl⟩
      fun g' hg' l hl => hg'.trans (setPreg hk hl _)

end CondFrame

/-! The state after the issue -/

section
variable {x : Issued} {slot : Nat} {h : Group} (hslot : getGroup x.s slot = some h)
include hslot

/-- The slot of an instruction that has issued holds the group that it gives, advanced. -/
theorem getGroup_next (g : Group) : getGroup (x.next slot g) slot = some (advance g x.iw x.pc x.active) := by
  rw [Issued.next, getGroup_putGroup, if_pos rfl, hslot]
  rfl

end

theorem getGroup_next_of_ne (x : Issued) {slot k : Nat} (g : Group) (hk : k ≠ slot) :
    getGroup (x.next slot g) k = getGroup x.s k := by
  rw [Issued.next, getGroup_putGroup, if_neg hk.symm]

/-- A row gives its group a result of a width in registers. -/
def GivesResult (row : Nat → Insn → Stamp → Instr) (op width : Nat) : Prop :=
  ∃ f : Issued → Group, issuesTo row op (fun x slot => x.next slot (f x)) ∧ ∀ x, ResultFrame x.iw x.lanes width x.g (f x)

section
variable {row : Nat → Insn → Stamp → Instr} {op : Nat}

theorem givesResult_of_issuesWord {f : Issued → Nat → Word} (hrow : issuesWord row op f) : GivesResult row op 1 :=
  ⟨_, hrow, fun x => .writeResult x.g _⟩

theorem givesResult_of_issuesWord64 {f : Issued → Nat → Dword} (hrow : issuesWord64 row op f) : GivesResult row op 2 :=
  ⟨_, hrow, fun x => .writeResult64 x.g _⟩

end

/-- Every row of `wordRows` gives its group a result of its width. -/
theorem wordRows_giveResult : ∀ e ∈ wordRows, GivesResult e.1 e.2.1 e.2.2 := by
  have word {row op f} (h : issuesWord row op f) : GivesResult row op 1 := givesResult_of_issuesWord h
  have pair {row op f} (h : issuesWord64 row op f) : GivesResult row op 2 := givesResult_of_issuesWord64 h
  obtain ⟨mov, iadd, isub, imul, imad, and_, or_, xor, not_, shl, shr, sar, sel⟩ := logicAndAddInstructionsWriteTheirResult
  obtain ⟨imulhi, imin, imax, bfe, bfi, popc, clz, brev⟩ := wideAndBitInstructionsWriteTheirResult
  obtain ⟨fadd, fmul, ffma, fmin, fmax, ffract, frnd⟩ := floatArithmeticRoundsTheExactResult
  obtain ⟨frcp, frsq, fsqrt, fexp2, flog2, fsin, fcos⟩ := specialFunctionsWriteABoundedResult
  obtain ⟨hadd2, hmul2, hfma2, hmin2, hmax2, -, -⟩ := halfPairsComputeEachHalf
  obtain ⟨-, -, -, cvtfi, bdeq, -⟩ := conversionsWriteTheCodeAndCountEvents
  obtain ⟨-, -, iadd64, imadw, shfl, -, -, -, -, -, -⟩ := laneAndPredicateInstructionsWriteTheirResult
  simp only [wordRows, List.cons_append, List.nil_append, List.forall_mem_cons, List.not_mem_nil, false_implies,
    implies_true, and_true]
  exact ⟨word mov, word sel, word iadd, word isub, word imul, word imulhi, word imad, word imin, word imax, word and_, word or_,
    word xor, word not_, word shl, word shr, word sar, word bfe, word bfi, word popc, word clz, word brev, pair iadd64,
    pair imadw, word fadd, word fmul, word ffma, word fmin, word fmax, word frcp, word frsq, word fsqrt, word fexp2, word flog2,
    word fsin, word fcos, word ffract, word frnd, word hadd2, word hmul2, word hfma2, word hmin2, word hmax2, word cvtfi,
    word bdeq, word shfl⟩

/-- Every comparison and predicate operation gives its group a condition. -/
theorem condRows_giveCond :
    ∀ e ∈ [(Instr.icmp, 0x16), (Instr.fcmp, 0x25), (Instr.plop, 0x45), (Instr.pmov, 0x46)], ∃ f, issuesCond e.1 e.2 f := by
  obtain ⟨-, -, -, -, -, fcmp, -⟩ := halfPairsComputeEachHalf
  obtain ⟨-, icmp, -, -, -, -, -, -, -, plop, pmov⟩ := laneAndPredicateInstructionsWriteTheirResult
  simp only [List.forall_mem_cons, List.not_mem_nil, false_implies, implies_true, and_true]
  exact ⟨⟨_, icmp⟩, ⟨_, fcmp⟩, ⟨_, plop⟩, ⟨_, pmov⟩⟩

/-- Settles O11: a row gives its group a result or a condition, which keeps the rest of the group, and the issue keeps the rest of
the state. -/
theorem registerInstructionsFrame : Obligations.RegisterInstructionsFrame := by
  refine ⟨fun row op width hrow s slot w t x hx h hslot => ?word, fun row op hrow s slot w t x hx h hslot => ?cond⟩
  case word =>
    obtain ⟨f, hissues, hframe⟩ := wordRows_giveResult _ hrow
    obtain ⟨hrest, hvregs, hsregs⟩ := hframe x
    exact ⟨_, _, hissues s slot w t x hx, rfl, fun k hk => getGroup_next_of_ne x _ hk, getGroup_next hslot _,
      congrArg (fun g : Group => { g with pcs := (advance (f x) x.iw x.pc x.active).pcs }) hrest, hvregs, hsregs⟩
  case cond =>
    obtain ⟨f, hissues⟩ := condRows_giveCond _ hrow
    obtain ⟨hrest, hpregs, hsregs⟩ := CondFrame.writeCond (iw := x.iw) (lanes := x.lanes) x.g (f x)
    exact ⟨_, _, hissues s slot w t x hx, rfl, fun k hk => getGroup_next_of_ne x _ hk, getGroup_next hslot _,
      congrArg (fun g : Group => { g with pcs := (advance (writeCond x.g x.iw x.lanes (f x)) x.iw x.pc x.active).pcs }) hrest,
      hpregs, hsregs⟩

end Sys2Proof.Laws
end

section
/-!
PROOFS. Loads, stores and atomics of global memory and of a thread's own (spec 11 R471 to R484, R528 to R530): a load, a store and an
access by an address of a thread's own memory whose lanes reach the fabric, said once for the rows; then ATOM.
-/

namespace Sys2Proof.Laws

open Machine

section
variable {s : State} {slot : Nat} {w : Insn} {t : Stamp} {mine : Nat → Bool} {x : Issued}
  (hx : issuing s slot w t mine = some x)
include hx

/-- An issued access that reaches the fabric enters it, and the group has changed and moved on. -/
theorem globalAccess_of_issuing {need : AccessNeed} {width : Nat} {lanes : List (Nat × Nat)}
    (h : x.reaches slot need width lanes = true) (client : Client) (mk : Home → Nat → List (Nat × Nat) → List AccKind)
    (f : Group → Group) :
    (globalAccess x.s slot x.g w x.pc x.active x.fr client need width lanes mk fun g => advance (f g) x.iw x.pc x.active) =
      x.enters slot client need width lanes mk (f x.fenced) := by
  rw [globalAccess_of_reaches h, ← iw_of_issuing hx]
  rfl

end

/-- An access that reaches the fabric has a lane. -/
theorem isEmpty_of_reaches {x : Issued} {slot : Nat} {need : AccessNeed} {width : Nat} {lanes : List (Nat × Nat)}
    (h : x.reaches slot need width lanes = true) : lanes.isEmpty = false := by
  simp only [Issued.reaches, Bool.and_eq_true, Bool.not_eq_true'] at h
  exact h.1.1.1

theorem laneFault_of_reaches {x : Issued} {slot : Nat} {need : AccessNeed} {width : Nat} {lanes : List (Nat × Nat)}
    (h : x.reaches slot need width lanes = true) : (laneFault x.s x.g.ctx need width lanes).isSome = false := by
  simp only [Issued.reaches, Bool.and_eq_true, Bool.not_eq_true'] at h
  simpa only [Option.isNone_iff_eq_none, Option.isSome_eq_false_iff] using h.1.2

/-- The lanes of an access, each with its address. -/
def accessLanes (x : Issued) (lanes : List Nat) (addr : Group → IWord → Nat → Nat) : List (Nat × Nat) :=
  lanes.map fun l => (l, addr x.g x.iw l)

/-- The lanes of a load: lane 0 for a scalar one, else those that execute. -/
def loadLanes (x : Issued) (scalar : Bool) (addr : Group → IWord → Nat → Nat) : List (Nat × Nat) :=
  accessLanes x (if scalar then [0] else lanesOf (runMask x.g x.iw x.active)) addr

/-- The write of a line with the data of its lanes, in ascending order (R488, R529, R543). -/
def storeWrite (x : Issued) (line : Nat) (mine : List (Nat × Nat)) : List AccKind :=
  [.write (mine.flatMap fun e =>
    (storeData x.g x.iw (widthBytes (x.iw.mod % 8)) e.1).zipIdx.map fun b => (e.2 - line + b.2, b.1)) false]

section
variable {s : State} {slot : Nat} {w : Insn} {t : Stamp} {mine : Nat → Bool} {x : Issued}
  (hx : issuing s slot w t mine = some x)
include hx

/-- A load that reaches the fabric sends its reads and becomes pending (R471, R529). -/
theorem loadBody_of_reaches {scalar : Bool} {addr : Group → IWord → Nat → Nat}
    (h : x.reaches slot .load (widthBytes (x.iw.mod % 8)) (loadLanes x scalar addr) = true) :
    loadBody w scalar addr x.s slot x.g x.iw x.pc x.active x.fr =
      x.enters slot (.groupLoad slot x.g.nextLoad) .load (widthBytes (x.iw.mod % 8)) (loadLanes x scalar addr)
        (fun _ _ _ => [.read])
        (addLoad x.fenced (.load (x.iw.mod % 8) scalar) x.iw.d (loadLanes x scalar addr) x.pc w) := by
  have hsome := isEmpty_of_reaches h
  have hbody := globalAccess_of_issuing hx h (.groupLoad slot x.g.nextLoad) (fun _ _ _ => [.read])
    fun g => addLoad g (.load (x.iw.mod % 8) scalar) x.iw.d (loadLanes x scalar addr) x.pc w
  unfold loadLanes accessLanes at *
  simp only [loadBody, hsome, Bool.false_eq_true, if_false, hbody]

/-- A store that reaches the fabric sends its writes (R471, R529). -/
theorem storeBody_of_reaches {lanes : Group → IWord → Word → List Nat} {addr : Group → IWord → Nat → Nat}
    (h : x.reaches slot .store (widthBytes (x.iw.mod % 8)) (accessLanes x (lanes x.g x.iw x.active) addr) = true) :
    storeBody w lanes addr x.s slot x.g x.iw x.pc x.active x.fr =
      x.enters slot (.groupStore slot) .store (widthBytes (x.iw.mod % 8)) (accessLanes x (lanes x.g x.iw x.active) addr)
        (fun _ => storeWrite x) x.fenced :=
  globalAccess_of_issuing hx h (.groupStore slot) (fun _ => storeWrite x) id

end

/-- An access inside PRIV_BYTES is one at the address of the lane's own memory (R475). -/
theorem privateBody_of_inside {x : Issued} (h : privateBad x.g x.iw x.active = none) (w : Insn) (body : Body) (slot fr : Nat) :
    privateBody w body x.s slot x.g x.iw x.pc x.active fr = body x.s slot x.g x.iw x.pc x.active fr := by
  simp only [privateBody, h]

/-- Settles O34: LD and SLD are loads at the global address of a lane, LDP is one at an address of its own memory. -/
theorem globalAndPrivateLoadsEnterTheFabric : Obligations.GlobalAndPrivateLoadsEnterTheFabric := by
  refine ⟨?ld, ?sld, ?ldp⟩
  case ld =>
    intro s slot w t x hx lanes width hreach
    exact (issueRow_of_issuing hx _).trans
      (congrArg Host.Outcome.next (loadBody_of_reaches (scalar := false) (addr := globalVa) hx hreach))
  case sld =>
    intro s slot w t x hx lanes width hreach
    exact (issueRow_of_issuing hx _).trans
      (congrArg Host.Outcome.next (loadBody_of_reaches (scalar := true) (addr := globalVa) hx hreach))
  case ldp =>
    intro s slot w t x hx lanes width hreach hinside
    exact (issueRow_of_issuing hx _).trans (congrArg Host.Outcome.next ((privateBody_of_inside hinside _ _ _ _).trans
      (loadBody_of_reaches (scalar := false) (addr := fun g iw l => privateVa g l (localOff g iw l)) hx hreach)))

/-! Atomics (R478, R483, R484) -/

/-- The word of a lane's atomic in a line, with its operands (R530). -/
def atomWord (x : Issued) (line : Nat) (e : Nat × Nat) : Nat × Dword × Dword :=
  (e.2 - line, atomOperand x.g x.iw x.iw.bk x.iw.b e.1,
    if x.iw.mod % 16 = 2 then atomOperand x.g x.iw x.iw.ck x.iw.c e.1 else 0#64)

/-- The atomics of a line: one request for each lane on host memory, else one of all its words (R484). -/
def atomKinds (x : Issued) (h : Home) (line : Nat) (mine : List (Nat × Nat)) : List AccKind :=
  if h.isHost then mine.map fun e => .atomic (atomOpOf (x.iw.mod % 16)) (bitNat x.iw.aux 2) [atomWord x line e]
  else [.atomic (atomOpOf (x.iw.mod % 16)) (bitNat x.iw.aux 2) (mine.map (atomWord x line))]

/-- The group with an atomic pending, which an acquiring one holds its later accesses for (R478). -/
def atomPending (x : Issued) (lanes : List (Nat × Nat)) (w : Insn) (g : Group) : Group :=
  let g' := addLoad g (.atomic (bitNat x.iw.aux 2) (x.iw.dk == 0)) x.iw.d lanes x.pc w
  if x.iw.aux % 2 = 1 then { g' with hold := some g.nextLoad } else g'

/-- ATOM enters the fabric where its lanes reach it, its release ordering is met and host memory supports it. -/
theorem atom_of_reaches {s : State} {slot : Nat} {w : Insn} {t : Stamp} {x : Issued} {lanes : List (Nat × Nat)}
    (hx : issuing s slot w t (· == 0x57) = some x)
    (hlanes : lanes = accessLanes x (effectLanes x.g x.iw x.active) atomVa)
    (hreach : x.reaches slot .atomic (atomBytes x.iw) lanes = true)
    (hready : atomReady x.s slot x.g x.iw (atomActs x.s x.g.ctx x.iw lanes) = true)
    (hhost : atomHostBad x.s x.g.ctx (atomOpOf (x.iw.mod % 16)) lanes = none) :
    exec (.atom slot w t) s = .next (x.enters slot (.groupLoad slot x.g.nextLoad) .atomic (atomBytes x.iw) lanes (atomKinds x)
      (atomPending x lanes w x.fenced)) := by
  have hbody := globalAccess_of_issuing hx hreach (.groupLoad slot x.g.nextLoad) (atomKinds x) (atomPending x lanes w)
  have hsome := isEmpty_of_reaches hreach
  have hfault := laneFault_of_reaches hreach
  unfold accessLanes at hlanes
  unfold atomBytes at *
  refine (issueRow_of_issuing hx _).trans (congrArg Host.Outcome.next (Eq.trans ?_ hbody))
  simp only [← hlanes, hsome, hready, hfault, hhost, Bool.not_true, Bool.and_false, Bool.not_false, Bool.and_true,
    Bool.false_eq_true, decide_eq_true_eq, if_false]
  rfl

/-- Settles O35: ST is a store at the global address of the lanes that have an effect, STP one in the memory of the
executing lanes; then ATOM. -/
theorem storesAndAtomicsEnterTheFabric : Obligations.StoresAndAtomicsEnterTheFabric := by
  refine ⟨?st, ?stp, ?atom⟩
  case st =>
    intro s slot w t x hx lanes n hreach
    exact (issueRow_of_issuing hx _).trans
      (congrArg Host.Outcome.next (storeBody_of_reaches (lanes := effectLanes) (addr := globalVa) hx hreach))
  case stp =>
    intro s slot w t x hx lanes n hreach hinside
    exact (issueRow_of_issuing hx _).trans (congrArg Host.Outcome.next ((privateBody_of_inside hinside _ _ _ _).trans
      (storeBody_of_reaches (lanes := fun g iw active => lanesOf (runMask g iw active))
        (addr := fun g iw l => privateVa g l (localOff g iw l)) hx hreach)))
  case atom =>
    intro s slot w t x hx wide n op lanes word hreach hready hhost
    exact atom_of_reaches hx rfl hreach hready hhost

end Sys2Proof.Laws
end

section
/-!
PROOFS. Samplers, outputs and branches (spec 11, 15): what the body of a row does where its guard holds, said once for the rows
that share it; the statements are assembled from these at their rows.
-/

namespace Sys2Proof.Laws

open Machine

/-! The rows, by their meanings -/

theorem exec_tqry (slot : Nat) (w : Insn) (t : Stamp) (s : State) : exec (.tqry slot w t) s = execTqry slot w t s := rfl

theorem exec_samplerReturn (slot num : Nat) (t : Stamp) (s : State) :
    exec (.samplerReturn slot num t) s = execSamplerReturn slot num t s := rfl

theorem exec_interp (slot : Nat) (w : Insn) (t : Stamp) (s : State) : exec (.interp slot w t) s = execInterp slot w t s := rfl

theorem exec_outv (slot : Nat) (w : Insn) (t : Stamp) (s : State) : exec (.outv slot w t) s = execOutv slot w t s := rfl

theorem exec_outf (slot : Nat) (w : Insn) (t : Stamp) (s : State) : exec (.outf slot w t) s = execOutf slot w t s := rfl

theorem exec_discard (slot : Nat) (w : Insn) (t : Stamp) (s : State) : exec (.discard slot w t) s = execDiscard slot w t s := rfl

theorem exec_bra (slot : Nat) (w : Insn) (t : Stamp) (s : State) : exec (.bra slot w t) s = execBra slot w t s := rfl

theorem exec_brx (slot : Nat) (w : Insn) (t : Stamp) (s : State) : exec (.brx slot w t) s = execBrx slot w t s := rfl

theorem exec_call (slot : Nat) (w : Insn) (t : Stamp) (s : State) : exec (.call slot w t) s = execCall slot w t s := rfl

theorem exec_exit (slot : Nat) (w : Insn) (t : Stamp) (s : State) : exec (.exit slot w t) s = execExit slot w t s := rfl

theorem exec_mark (slot : Nat) (w : Insn) (t : Stamp) (s : State) : exec (.mark slot w t) s = execMark slot w t s := rfl

/-! Samplers (R471, R532, R704) -/

/-- The rows that read texels are one issue, each of its opcode. -/
theorem exec_of_mem_texelRows {row : Nat → Insn → Stamp → Instr} {op : Nat}
    (h : (row, op) ∈ [(Instr.tex, 0x60), (Instr.tld, 0x61), (Instr.tg4, 0x62)]) (slot : Nat) (w : Insn) (t : Stamp) (s : State) :
    exec (row slot w t) s = issue slot w t s (· == op) (samplerBody w) := by
  simp only [List.mem_cons, List.not_mem_nil, or_false, Prod.mk.injEq] at h
  obtain ⟨rfl, rfl⟩ | ⟨rfl, rfl⟩ | ⟨rfl, rfl⟩ := h
  · rfl
  · rfl
  · rfl

/-- The request of an issued sampler instruction, with the free values that it uses. -/
def issuedRequest (x : Issued) (w : Insn) : SampleRec :=
  { sampleReq x.g x.iw w x.pc x.active x.g.nextLoad with free := x.s.free }

/-- A request with a good descriptor whose texels all translate sends its reads and becomes pending. -/
theorem samplerBody_of_clean {x : Issued} {slot : Nat} {w : Insn} {v : State} (hv : v = { x.s with free := x.s.free + freePerRequest })
    (hlanes : (issuedRequest x w).lanes ≠ []) (hmay : mayAccess x.s slot x.g = true)
    (hgood : texBad (texDesc (issuedRequest x w).tex) (reqDim (issuedRequest x w)) = false)
    (htr : laneFault v x.g.ctx .load 1 ((requestSpans (issuedRequest x w) x.s.free).map fun e => (0, e.1)) = none) :
    samplerBody w x.s slot x.g x.iw x.pc x.active x.fr =
      putGroup ((samplerReads v slot x.g (issuedRequest x w) (requestSpans (issuedRequest x w) x.s.free)).foldl enterFabric v) slot
        (advance { x.g with samples := x.g.samples ++ [issuedRequest x w], nextLoad := x.g.nextLoad + 1, fence := none }
          x.iw x.pc x.active) := by
  subst hv
  have hsome : (issuedRequest x w).lanes.isEmpty = false := List.isEmpty_eq_false_iff.2 hlanes
  unfold issuedRequest at *
  unfold reqDim at *
  simp only [samplerBody, reqDim, hsome, hmay, hgood, htr, Bool.not_true, Bool.false_eq_true, if_false]

theorem tqry_of_good {s : State} {slot : Nat} {w : Insn} {t : Stamp} {x : Issued} (hx : issuing s slot w t (· == 0x63) = some x)
    (hlanes : (sampleReq x.g x.iw w x.pc x.active 0).lanes ≠ [])
    (hgood : texBad (texDesc (sampleReq x.g x.iw w x.pc x.active 0).tex) (reqDim (sampleReq x.g x.iw w x.pc x.active 0)) = false) :
    let r := sampleReq x.g x.iw w x.pc x.active 0
    let d := texDesc r.tex
    exec (.tqry slot w t) s =
      .next (x.next slot (putQuads x.g r fun _ => [d.width, d.height, d.depth, d.levels].map (BitVec.ofNat 32))) := by
  have hsome := List.isEmpty_eq_false_iff.2 hlanes
  simp only [exec_tqry, execTqry, issueRow_of_issuing hx, hsome, hgood, Bool.false_eq_true, if_false, Issued.next]

/-- A pending request whose lines have all answered without poison writes its samples and is gone. -/
theorem samplerReturn_of_answered {s : State} {slot num : Nat} {t : Stamp} {g : Group} {r : SampleRec} {as : List (Nat × Access)}
    (hgroup : getGroup (s.upTo t) slot = some g) (hreq : (g.samples.find? fun r => r.num = num) = some r)
    (has : as = (s.upTo t).traffic.accesses.filter fun e => e.2.client == .sampler slot num)
    (hrunning : g.stopped = false) (hreplays : (g.replays.any fun a => a.client == .sampler slot num) = false)
    (hanswered : ∀ e ∈ as, e.2.stage = .answered ∧ e.2.poison = false) :
    exec (.samplerReturn slot num t) s = .next (reapGroup (putGroup (as.foldl (fun v e => removeAccess v e.1) (s.upTo t)) slot
      (let g' := putQuads g r fun l => sampleResult r l r.free (readTexel (texDesc r.tex) (reqDim r) as)
       { g' with samples := g'.samples.filter fun y => y.num ≠ num })) slot) := by
  have hall : (as.all fun e => e.2.stage == .answered) = true :=
    List.all_eq_true.2 fun e he => beq_iff_eq.2 (hanswered e he).1
  have hclean : (as.find? fun e => e.2.poison) = none :=
    List.find?_eq_none.2 fun e he => Bool.eq_false_iff.1 (hanswered e he).2
  simp only [exec_samplerReturn, execSamplerReturn, hgroup, hreq, ← has, hrunning, hreplays, hall, hclean, Bool.or_self,
    Bool.not_true, Bool.false_eq_true, if_false]

/-- Settles O38: TEX, TLD and TG4 have one body; TQRY and the return of a request have their own. -/
theorem samplerInstructionsReadTheirTexels : Obligations.SamplerInstructionsReadTheirTexels := by
  refine ⟨?texels, ?size, ?returned⟩
  case texels =>
    intro row op hrow s slot w t x hx q r v spans hlanes hmay hgood htr
    rw [exec_of_mem_texelRows hrow, issueRow_of_issuing hx]
    exact congrArg Host.Outcome.next (samplerBody_of_clean rfl hlanes hmay hgood htr)
  case size =>
    intro s slot w t x hx r d hlanes hgood
    exact tqry_of_good hx hlanes hgood
  case returned =>
    intro s slot num t g r hgroup hreq u as hrunning hreplays hanswered
    exact samplerReturn_of_answered hgroup hreq rfl hrunning hreplays hanswered

/-! Graphics instructions (R638, R691, R695 to R697) -/

section
variable {s : State} {slot : Nat} {w : Insn} {t : Stamp} {x : Issued}

theorem interp_of_fragment {f : Frame} {d : Draw} {fg : FragGroup} (hx : issuing s slot w t (· == 0x64) = some x)
    (hfrag : fragOf x.s slot x.g = some (f, d, fg)) :
    exec (.interp slot w t) s = .next (putGroup { x.s with free := x.s.free + 128 } slot (advance
      ((lanesOf (runMask x.g x.iw x.active)).foldl (fun g l =>
        putWords g false x.iw.d l (interpLane f fg x.iw.a x.iw.mod l x.s.free)) x.g) x.iw x.pc x.active)) := by
  simp only [exec_interp, execInterp, issueRow_of_issuing hx, hfrag]

/-- Outputs 8 and 9 are legal where the draw does not test early (R691). -/
theorem outf_of_legal (hx : issuing s slot w t (· == 0x66) = some x)
    (hlegal : ∀ g, getGroup (s.upTo t) slot = some g → (x.iw.d = 8 ∨ x.iw.d = 9) → earlyOnly (s.upTo t) slot g = false)
    (hlanes : effectLanes x.g x.iw x.active ≠ []) :
    exec (.outf slot w t) s = .next (putGroup { x.s with free := x.s.free + 128 } slot (advance
      (putOut x.g x.iw (effectLanes x.g x.iw x.active) fun c lane => Config.freeWord (x.s.free + 32 * c + lane))
      x.iw x.pc x.active)) := by
  have hsome := List.isEmpty_eq_false_iff.2 hlanes
  rw [exec_outf, execOutf, issue_of_issuing hx]
  · simp only [hsome, Bool.false_eq_true, if_false]
  · intro g hgroup
    rw [← iw_of_issuing hx]
    by_cases hout : x.iw.d = 8 ∨ x.iw.d = 9
    · simp only [hlegal g hgroup hout, Bool.and_false, Bool.false_eq_true, if_false]
    · simp only [← Bool.decide_or, hout, decide_false, Bool.false_and, Bool.false_eq_true, if_false]

/-- DISCARD is legal where the draw does not test early (R691, R695). -/
theorem discard_of_legal (hx : issuing s slot w t (· == 0x67) = some x)
    (hlegal : ∀ g, getGroup (s.upTo t) slot = some g → earlyOnly (s.upTo t) slot g = false) :
    let m := runMask x.g x.iw x.active
    exec (.discard slot w t) s =
      .next (x.next slot { x.g with helpers := x.g.helpers ||| m, discarded := x.g.discarded ||| m }) := by
  rw [exec_discard, execDiscard, issue_of_issuing hx]
  · rfl
  · intro g hgroup
    simp only [hlegal g hgroup, Bool.false_eq_true, if_false]

end

/-- Settles O39: each row's case is one of the lemmas above; OUTV has no guard. -/
theorem graphicsInstructionsWriteOutputs : Obligations.GraphicsInstructionsWriteOutputs := by
  refine ⟨?interp, ?outv, ?outf, ?discard⟩
  case interp =>
    intro s slot w t x f d fg hx hfrag
    exact interp_of_fragment hx hfrag
  case outv => exact fun s slot w t _ hx => (exec_outv slot w t s).trans (issueRow_of_issuing hx _)
  case outf =>
    intro s slot w t x hx hlegal hlanes
    exact outf_of_legal hx hlegal hlanes
  case discard =>
    intro s slot w t x hx hlegal m
    exact discard_of_legal hx hlegal

/-! Branches, exits and marks (R463, R464, R467, R535, R536) -/

section
variable {s : State} {slot : Nat} {w : Insn} {t : Stamp} {x : Issued}

theorem brx_of_aligned (hx : issuing s slot w t (· == 0x71) = some x)
    (halign : ∀ l ∈ lanesOf (runMask x.g x.iw x.active), (x.g.progVa + (x.a l).toNat) % 4 = 0) :
    exec (.brx slot w t) s = .next (putGroup x.s slot (setPcs (advance x.g x.iw x.pc x.active)
      (lanesOf (runMask x.g x.iw x.active)) fun l => x.g.progVa + (x.a l).toNat)) := by
  have hnone : ((lanesOf (runMask x.g x.iw x.active)).any fun l => (x.g.progVa + (srcA x.g x.iw l).toNat) % 4 != 0) = false :=
    List.any_eq_false.2 fun l hl => by rw [show (x.g.progVa + (srcA x.g x.iw l).toNat) % 4 = 0 from halign l hl]; decide
  simp only [exec_brx, execBrx, issueRow_of_issuing hx, hnone, Bool.false_eq_true, if_false]
  rfl

section
variable (hx : issuing s slot w t (· == 0x73) = some x)
include hx

/-- A group with a thread left goes on, and its barrier may be full now (R481). -/
theorem exit_of_left {g : Group}
    (hg : g = setSts (advance x.g x.iw x.pc x.active) (lanesOf (runMask x.g x.iw x.active)) .exited)
    (hleft : groupExited g = false) :
    exec (.exit slot w t) s = .next (releaseBarrier (putGroup x.s slot g) g.wg) := by
  subst hg
  simp only [exec_exit, execExit, issueRow_of_issuing hx, hleft, Bool.false_eq_true, if_false]
  rfl

/-- The last exit publishes, ends the workgroup where it is its last group, and frees the slot. -/
theorem exit_of_last {g h : Group} {v : State}
    (hg : g = setSts (advance x.g x.iw x.pc x.active) (lanesOf (runMask x.g x.iw x.active)) .exited)
    (hlast : groupExited g = true) (hpublish : publish x.s slot g x.pc w = .done v h) :
    exec (.exit slot w t) s = .next (reapGroup (finishWg (releaseBarrier (putGroup v slot h) h.wg) h.wg) slot) := by
  subst hg
  simp only [exec_exit, execExit, issueRow_of_issuing hx, hlast, if_true, exitGroup, hpublish]

end
end

/-- Settles O40: BRA, CALL and MARK have no guard; BRX by its targets, EXIT by the threads that are left. -/
theorem branchesExitsAndMarksMoveThreads : Obligations.BranchesExitsAndMarksMoveThreads := by
  refine ⟨?bra, ?brx, ?call, ?exit, ?mark⟩
  case bra => exact fun s slot w t _ hx => (exec_bra slot w t s).trans (issueRow_of_issuing hx _)
  case brx =>
    intro s slot w t x hx halign
    exact brx_of_aligned hx halign
  case call => exact fun s slot w t _ hx => (exec_call slot w t s).trans (issueRow_of_issuing hx _)
  case exit =>
    intro s slot w t x hx g
    exact ⟨exit_of_left hx rfl, fun hlast v h => exit_of_last hx rfl hlast⟩
  case mark => exact fun s slot w t _ hx => (exec_mark slot w t s).trans (issueRow_of_issuing hx _)

end Sys2Proof.Laws
end

section
/-!
PROOFS. The Madder units (spec 12): a matrix instruction joins the operations, said once for the five rows; an operation is handed
over, filled, committed or squashed, one lemma for each.
-/

namespace Sys2Proof.Laws

open Machine

/-! The rows, by their meanings -/

theorem exec_mload (slot : Nat) (w : Insn) (t : Stamp) (s : State) : exec (.mload slot w t) s = execMload slot w t s := rfl

theorem exec_mma (slot : Nat) (w : Insn) (t : Stamp) (s : State) : exec (.mma slot w t) s = execMma slot w t s := rfl

theorem exec_mstore (slot : Nat) (w : Insn) (t : Stamp) (s : State) : exec (.mstore slot w t) s = execMstore slot w t s := rfl

theorem exec_mzero (slot : Nat) (w : Insn) (t : Stamp) (s : State) : exec (.mzero slot w t) s = execMzero slot w t s := rfl

theorem exec_mmaf (slot : Nat) (w : Insn) (t : Stamp) (s : State) : exec (.mmaf slot w t) s = execMmaf slot w t s := rfl

theorem exec_msync (slot : Nat) (w : Insn) (t : Stamp) (s : State) : exec (.msync slot w t) s = execMsync slot w t s := rfl

theorem exec_madderHandoff (op : Nat) (t : Stamp) (s : State) : exec (.madderHandoff op t) s = execMadderHandoff op t s := rfl

theorem exec_mloadDataReturn (op : Nat) (t : Stamp) (s : State) :
    exec (.mloadDataReturn op t) s = execMloadDataReturn op t s := rfl

theorem exec_retireCommit (op : Nat) (ue : Bool) (t : Stamp) (s : State) :
    exec (.retireCommit op ue t) s = execRetireCommit op ue t s := rfl

theorem exec_retireSquash (op : Nat) (t : Stamp) (s : State) : exec (.retireSquash op t) s = execRetireSquash op t s := rfl

/-! Issue (R568, R569, R576) -/

/-- A row that is nothing but the issue of a Madder operation, whose operands do not depend on the group's fence, joins it to the
others. -/
theorem joinsMadder_of_madderIssue {row : Nat → Insn → Stamp → Instr} {op : Nat} {kind : Group → IWord → MKind}
    (hrow : ∀ slot w t s, exec (row slot w t) s = madderIssue slot w t s op kind)
    (hkind : ∀ (g : Group) iw, kind { g with fence := none } iw = kind g iw) :
    joinsMadder row op fun x => kind x.g x.iw := by
  intro s slot w t x hx hon
  rw [hrow, madderIssue, issueRow_of_issuing hx]
  dsimp only
  generalize (op == 0x80 || op == 0x82) = accesses
  intro hmay
  cases accesses with
  | false =>
    simp only [hon, Bool.not_true, Bool.false_and, Bool.false_eq_true, if_false]
    rfl
  | true =>
    simp only [hon, hmay rfl, hkind, Bool.not_true, Bool.and_false, Bool.false_eq_true, if_false, if_true]
    rfl

theorem msync_of_published {s v : State} {slot : Nat} {w : Insn} {t : Stamp} {x : Issued} {g : Group}
    (hx : issuing s slot w t (· == 0x85) = some x) (hops : (x.s.madders.ops.any fun e => e.2.group == slot) = false)
    (hstores : (x.s.traffic.accesses.any fun e => !e.2.dropped && e.2.client == .madderStore slot) = false)
    (hpublish : publish x.s slot x.g x.pc w = .done v g) :
    exec (.msync slot w t) s = .next (putGroup v slot (advance g x.iw x.pc x.active)) := by
  simp only [exec_msync, execMsync, issueRow_of_issuing hx, hops, hstores, hpublish, Bool.or_self, Bool.false_eq_true, if_false]

/-- Settles O42: five rows join the Madder; MSYNC publishes where nothing of its group is left. -/
theorem matrixInstructionsJoinTheMadder : Obligations.MatrixInstructionsJoinTheMadder := by
  refine ⟨?mload, ?mma, ?mstore, ?mzero, ?mmaf, ?msync⟩
  case mload => exact joinsMadder_of_madderIssue (exec_mload) fun _ _ => rfl
  case mma => exact joinsMadder_of_madderIssue (exec_mma) fun _ _ => rfl
  case mstore => exact joinsMadder_of_madderIssue (exec_mstore) fun _ _ => rfl
  case mzero => exact joinsMadder_of_madderIssue (exec_mzero) fun _ _ => rfl
  case mmaf => exact joinsMadder_of_madderIssue (exec_mmaf) fun _ _ => rfl
  case msync =>
    intro s slot w t x v g hx hops hstores hpublish
    exact msync_of_published hx hops hstores hpublish

/-! Hand-off and data return (R568, R570, R574) -/

section
variable {s : State} {op : Nat} {t : Stamp} {o : MOp} {g : Group} (hop : getOp (s.upTo t) op = some o)
include hop

section
variable (hgroup : getGroup (s.upTo t) o.group = some g) (hnew : o.handed = false)
  (hon : domOn (s.upTo t) (24 + o.core) = true) (hfree : stagingFree (s.upTo t) o = true)
include hgroup hnew hon hfree

/-- An operation that reads nothing is taken. -/
theorem madderHandoff_of_noReads (hkind : stagingClass o.kind ≠ 0) :
    exec (.madderHandoff op t) s = .next (modOp (s.upTo t) op fun o => { o with handed := true }) := by
  cases hk : o.kind with
  | mload => exact absurd (by rw [hk]; rfl) hkind
  | mma | mzero | mmaf | mstore =>
    simp only [exec_madderHandoff, execMadderHandoff, hop, hgroup, hnew, hon, hfree, hk, Bool.not_true, Bool.or_self,
      Bool.false_eq_true, if_false]

/-- An MLOAD of a group with a drive mode is taken and issues its reads. -/
theorem madderHandoff_of_mload {n base stride : Nat} {d : MSlot} (hkind : o.kind = .mload n base stride d)
    (hdrive : g.drive.isSome = true) :
    exec (.madderHandoff op t) s = .next (mloadReads (modOp (s.upTo t) op fun o => { o with handed := true }) op o g base stride
      (recordLen d.code d.int4 d.mode)) := by
  have hmode : g.drive.isNone = false := by rw [← Option.not_isSome, hdrive]; rfl
  simp only [exec_madderHandoff, execMadderHandoff, hop, hgroup, hnew, hon, hfree, hkind, hmode, Bool.not_true, Bool.or_self,
    Bool.false_eq_true, if_false]

end

/-- The answers of an MLOAD's reads, none of them poison, fill its sixteen rows. -/
theorem mloadDataReturn_of_answered {n base stride : Nat} {d : MSlot} {as : List (Nat × Access)}
    (hkind : o.kind = .mload n base stride d) (hreading : o.reading = true)
    (has : as = (s.upTo t).traffic.accesses.filter fun e => e.2.client == .madderLoad o.group op)
    (hanswered : ∀ e ∈ as, e.2.stage = .answered ∧ e.2.poison = false) :
    exec (.mloadDataReturn op t) s = .next (modOp (as.foldl (fun v e => removeAccess v e.1) (s.upTo t)) op fun o =>
      { o with
        reading := false
        rows := (List.range 16).map fun r => rowBytes as (base + r * stride) (recordLen d.code d.int4 d.mode) }) := by
  have hall : (as.all fun e => e.2.stage == .answered) = true :=
    List.all_eq_true.2 fun e he => beq_iff_eq.2 (hanswered e he).1
  have hclean : (as.find? fun e => e.2.poison) = none :=
    List.find?_eq_none.2 fun e he => Bool.eq_false_iff.1 (hanswered e he).2
  simp only [exec_mloadDataReturn, execMloadDataReturn, hop, hkind, ← has, hreading, hall, hclean, Bool.not_true, Bool.or_self,
    Bool.false_eq_true, if_false]
  refine congrArg (fun f => Host.Outcome.next (modOp _ op f)) (funext fun o => ?_)
  cases o.fault with
  | none => rfl
  | some f => rfl

/-! Commit and squash (R571, R572, R580, R587) -/

/-- The oldest operation of its group, with its token and its data and without a fault, commits. -/
theorem retireCommit_of_oldest (hgroup : getGroup (s.upTo t) o.group = some g) (hhanded : o.handed = true)
    (htoken : o.commit = true) (hread : o.reading = false) (holdest : oldestOp (s.upTo t) op o = true)
    (hlegal : commitFault g o.kind = none) (hfault : o.fault = none) :
    exec (.retireCommit op false t) s = .next (reapGroup (commitOp (removeOp (s.upTo t) op) o g) o.group) := by
  simp only [exec_retireCommit, execRetireCommit, hop, hgroup, hhanded, htoken, hread, holdest, hlegal, hfault, Bool.not_true,
    Bool.or_self, Bool.false_eq_true, if_false]

end

/-- What a squash leaves of an access: one of its own that has answered is discarded, one on its way is marked dropped (R580). -/
def squashed (mine : Client) (e : Nat × Access) : Option (Nat × Access) :=
  if e.2.client = mine then (if e.2.stage = .answered then none else some (e.1, { e.2 with dropped := true })) else some e

theorem squashed_of_ne {mine : Client} {e : Nat × Access} (h : e.2.client ≠ mine) : squashed mine e = some e := if_neg h

/-- An access of the squashed operation that is left is dropped. -/
theorem dropped_of_squashed {mine : Client} {e e' : Nat × Access} (h : squashed mine e = some e') (hmine : e'.2.client = mine) :
    e'.2.dropped = true := by
  unfold squashed at h
  split at h
  case isTrue =>
    split at h
    · cases h
    · cases h
      rfl
  case isFalse hother =>
    cases h
    exact absurd hmine hother

/-- The state after a squash, but for the slot of an exited group. -/
def squashedOp (s : State) (op : Nat) (o : MOp) : State :=
  { removeOp s op with traffic := { s.traffic with accesses := s.traffic.accesses.filterMap (squashed (.madderLoad o.group op)) } }

theorem retireSquash_of_oldest {s : State} {op : Nat} {t : Stamp} {o : MOp} (hop : getOp (s.upTo t) op = some o)
    (hhanded : o.handed = true) (htoken : o.commit = false) (holdest : oldestOp (s.upTo t) op o = true) :
    exec (.retireSquash op t) s = .next (reapGroup (squashedOp (s.upTo t) op o) o.group) := by
  simp only [exec_retireSquash, execRetireSquash, hop, hhanded, htoken, holdest, Bool.not_true, Bool.or_self,
    Bool.false_eq_true, if_false]
  rfl

/-- Settles O43: a hand-off by what the operation reads; then the return of its data, its commit and its squash. -/
theorem madderOperationsCommitOrSquashInOrder : Obligations.MadderOperationsCommitOrSquashInOrder := by
  refine ⟨?handoff, ?returned, ?commit, ?squash⟩
  case handoff =>
    intro s op t o g hop hgroup u hnew hon hfree v
    exact ⟨madderHandoff_of_noReads hop hgroup hnew hon hfree,
      fun n base stride d => madderHandoff_of_mload hop hgroup hnew hon hfree⟩
  case returned =>
    intro s op t o n base stride d hop hkind u as hreading hanswered
    exact mloadDataReturn_of_answered hop hkind hreading rfl hanswered
  case commit =>
    intro s op t o g hop hgroup u hhanded htoken hread holdest hlegal hfault
    exact retireCommit_of_oldest hop hgroup hhanded htoken hread holdest hlegal hfault
  case squash =>
    intro s op t o hop u hhanded htoken holdest
    refine ⟨squashedOp u op o, retireSquash_of_oldest hop hhanded htoken holdest, rfl, fun e he hother => ?_,
      fun e he hmine => ?_, rfl⟩
    · exact List.mem_filterMap.2 ⟨e, he, squashed_of_ne hother⟩
    · obtain ⟨e₀, -, hleft⟩ := List.mem_filterMap.1 he
      exact dropped_of_squashed hleft hmine

end Sys2Proof.Laws
end

section
/-!
PROOFS. Graphics packets and the Binner (spec 14): a draw enters its frame once its blocks are read, said once for both draws, and
each other row by its meaning.
-/

namespace Sys2Proof.Laws

open Machine

/-! The graphics packets, by their meanings -/

theorem exec_frameBegin (q : QueueId) (t : Stamp) (s : State) : exec (.frameBegin q t) s = execFrameBegin q t s := rfl

theorem exec_attach (q : QueueId) (t : Stamp) (s : State) : exec (.attach q t) s = execAttach q t s := rfl

theorem exec_draw (q : QueueId) (t : Stamp) (s : State) : exec (.draw q t) s = execDraw q t s := rfl

theorem exec_drawIndirect (q : QueueId) (t : Stamp) (s : State) : exec (.drawIndirect q t) s = execDrawIndirect q t s := rfl

theorem exec_frameEnd (q : QueueId) (t : Stamp) (s : State) : exec (.frameEnd q t) s = execFrameEnd q t s := rfl

/-! Frames and attachments (R630, R644, R673, R676) -/

section
variable {s : State} {q : QueueId} {t : Stamp} {x : Started}

theorem frameBegin_of_fits {e : Nat} (hx : starting s q t 0x10 anyBytes (gfxHold q (beginHold q)) = some x)
    (hgood : frameBad (frameOf x.bytes) = false) (hclosed : getFrame x.s q = none) (hedge : tileEdge (frameOf x.bytes) = some e) :
    exec (.frameBegin q t) s = .next (useReads (openFrame x.s q x.p { frameOf x.bytes with edge := e }) (.queue q)) := by
  rw [exec_frameBegin, execFrameBegin, packetRow_of_starting hx]
  simp only [hgood, hclosed, hedge, Option.isSome_none, Bool.false_eq_true, if_false]

theorem attach_of_legal {f : Frame} (hx : starting s q t 0x14 anyBytes (gfxHold q anyTime) = some x)
    (hslot : fieldAt x.bytes 8 1 ≤ 8) (hload : (attachOf x.bytes).load ≠ 3) (hframe : getFrame x.s q = some f)
    (hearly : f.drawn = false) (hlegal : attachBad x.s q f (fieldAt x.bytes 8 1) (attachOf x.bytes) = false) :
    exec (.attach q t) s = .next (useReads (completePkt (modFrame x.s q fun f =>
      { f with attach := tblSet f.attach (fieldAt x.bytes 8 1) (attachOf x.bytes) }) q x.p.num) (.queue q)) := by
  rw [exec_attach, execAttach, packetRow_of_starting hx]
  simp only [Nat.not_lt.2 hslot, beq_eq_false_iff_ne.2 hload, hframe, hearly, hlegal, decide_false, Bool.or_self,
    Bool.false_eq_true, if_false]

/-- The attachments are checked before the first draw alone. -/
theorem attached_of_matches {f : Frame} (h : (f.drawn || attachMatch f) = true) : (!f.drawn && !attachMatch f) = false := by
  rw [← Bool.not_or, h]
  rfl

theorem frameEnd_of_attached {f : Frame} (hx : starting s q t 0x13 anyBytes (gfxHold q anyTime) = some x)
    (hframe : getFrame x.s q = some f) (hattached : (f.drawn || attachMatch f) = true) :
    exec (.frameEnd q t) s = .next (useReads (modFrame x.s q fun f => { f with endPkt := some x.p.num }) (.queue q)) := by
  rw [exec_frameEnd, execFrameEnd, packetRow_of_starting hx]
  simp only [hframe, attached_of_matches hattached, Bool.false_eq_true, if_false]

end

/-! Draws (R632 to R636) -/

/-- The state block of a draw as it is used: a poisoned one reads as zeros (Table 07-9). -/
def blockOf (data : List (Byte × Bool)) : List Byte := (cleanBytes data).getD (List.replicate 256 0#8)

/-- The state in which the front end has used the state block of a draw, and recorded it where it is poisoned. -/
def blockUsed (s : State) (q : QueueId) (bs : List Byte) (data : List (Byte × Bool)) : State :=
  geomUsed (if (cleanBytes data).isSome then s else geomPoison s q (vaAt bs 16)) q

/-- Primitive restart acts on a draw: its state block enables it, its topology has strips, and it is indexed. -/
def restarts (bs : List Byte) (data : List (Byte × Bool)) : Bool :=
  bitNat (fieldAt (blockOf data) 0x20 4) 4 && [2, 4, 5].contains (fieldAt bs 52 1 % 8) && indexSize bs != 0

section
variable {s : State} {q : QueueId} {p : Pkt} {bs : List Byte}

/-- A draw in an open frame whose attachments match enters it once its state block, a legal one, and its indices are read. -/
theorem startDraw_of_read {f : Frame} {n : DrawArgs} {data ix : List (Byte × Bool)} (hframe : getFrame s q = some f)
    (hattached : (f.drawn || attachMatch f) = true) (hstate : readState s q bs = .ready data)
    (hlegal : stateOk (blockOf data) = true) (hindices : readIndices s q bs n = .ready ix) : startDraw s q p bs n =
      enterDraw (blockUsed s q bs data) q p bs n (blockOf data) (vertexSequence bs n (restarts bs data) ix) := by
  have hok : (!stateOk ((cleanBytes data).getD (List.replicate 256 0#8))) = false := by rw [Bool.not_eq_false']; exact hlegal
  simp only [startDraw, hframe, attached_of_matches hattached, hstate, hok, hindices, Bool.false_eq_true, if_false]
  rfl

end

theorem draw_of_good {s : State} {q : QueueId} {t : Stamp} {x : Started} (hx : starting s q t 0x11 anyBytes
      (gfxHold q fun s bs => if drawBad bs || (getFrame s q).isNone then none else drawHold s q bs (drawArgs bs)) = some x)
    (hgood : drawBad x.bytes = false) :
    exec (.draw q t) s = .next (useReads (startDraw x.s q x.p x.bytes (drawArgs x.bytes)) (.queue q)) := by
  rw [exec_draw, execDraw, packetRow_of_starting hx, if_neg (Bool.eq_false_iff.1 hgood)]

/-- An indirect draw starts with the parameters of the command that is read. -/
theorem drawIndirect_of_read {s : State} {q : QueueId} {t : Stamp} {x : Started} {cmd : List (Byte × Bool)}
    (hx : starting s q t 0x12 anyBytes (gfxHold q (indirectHold q)) = some x) (hgood : drawIndirectBad x.bytes = false)
    (hopen : getFrame x.s q ≠ none) (hcommand : readCommand x.s q x.bytes = .ready cmd) :
    exec (.drawIndirect q t) s = .next (useReads
      (startDraw (if (cleanBytes cmd).isSome then x.s else geomPoison x.s q (vaAt x.bytes 32)) q x.p x.bytes
        (commandArgs x.bytes cmd))
      (.queue q)) := by
  rw [exec_drawIndirect, execDrawIndirect, packetRow_of_starting hx]
  simp only [hgood, Option.isNone_eq_false_iff.2 (Option.isSome_iff_ne_none.2 hopen), hcommand, Bool.false_eq_true, if_false]

/-- Settles O53: each packet starts as its body does on a frame and blocks that are good. -/
theorem graphicsPacketsAct : Obligations.GraphicsPacketsAct := by
  refine ⟨?frameBegin, ?attach, ?draw, ?indirect, ?frameEnd⟩
  case frameBegin =>
    intro s q t x e hx hgood hclosed hedge
    exact frameBegin_of_fits hx hgood hclosed hedge
  case attach =>
    intro s q t x f hx slot hslot hload hframe hearly hlegal
    exact attach_of_legal hx hslot hload hframe hearly hlegal
  case draw =>
    intro s q t x f data ix hx hgood n hframe hattached hread state v restart hlegal hindices
    rw [draw_of_good hx hgood, startDraw_of_read hframe hattached hread hlegal hindices]
    rfl
  case indirect =>
    intro s q t x f cmd data ix hx hgood hopen hcommand y n hframe hattached hread state v restart hlegal hindices
    rw [drawIndirect_of_read hx hgood hopen hcommand, startDraw_of_read hframe hattached hread hlegal hindices]
    rfl
  case frameEnd =>
    intro s q t x f hx hframe hattached
    exact frameEnd_of_attached hx hframe hattached

/-! The Binner's rows, by their meanings -/

theorem exec_vertexGroupLaunch (q : QueueId) (core : Nat) (t : Stamp) (s : State) :
    exec (.vertexGroupLaunch q core t) s = execVertexGroupLaunch q core t s := rfl

theorem exec_batchBin (q : QueueId) (t : Stamp) (s : State) : exec (.batchBin q t) s = execBatchBin q t s := rfl

theorem exec_publishedReadReturn (q : QueueId) (t : Stamp) (s : State) :
    exec (.publishedReadReturn q t) s = execPublishedReadReturn q t s := rfl

theorem exec_binGraceExpire (q : QueueId) (t : Stamp) (s : State) : exec (.binGraceExpire q t) s = execBinGraceExpire q t s := rfl

theorem exec_partialFlushRewind (q : QueueId) (t : Stamp) (s : State) :
    exec (.partialFlushRewind q t) s = execPartialFlushRewind q t s := rfl

theorem exec_binnerYield (q : QueueId) (t : Stamp) (s : State) : exec (.binnerYield q t) s = execBinnerYield q t s := rfl

/-! Launches and batches (R636, R637, R639 to R655) -/

section
variable {s v : State} {q : QueueId} {t : Stamp} (hbound : bindFrame (s.upTo t) q = some v)
include hbound

/-- A batch that may launch does so on the core chosen for it, with its arguments. -/
theorem vertexGroupLaunch_of_chosen {core : Nat} {d : Draw} (hdraw : (getFrame v q).bind launchingDraw = some d)
    (hmay : mayLaunchBatch v q d = true) (hsaved : hasSaved v q.ctx = false)
    (hcore : vertexCore v q (graphicsNeed q d.vregs) = some core) :
    exec (.vertexGroupLaunch q core t) s = .next (withArgs v q d.tag core d.argVa fun s bs => launchBatch s q d core bs) := by
  simp only [exec_vertexGroupLaunch, execVertexGroupLaunch, hbound, hdraw, hmay, hsaved, hcore, ne_eq, not_true_eq_false,
    Bool.not_true, Bool.or_self, Bool.false_eq_true, if_false]

/-- The oldest finished batch is binned with the pages that it takes. -/
theorem batchBin_of_done {f : Frame} {d : Draw} {slot : Nat} {g : Group} {w : State} (hframe : getFrame v q = some f)
    (hflush : f.flushing = false) (hstall : f.stall = none) (hdone : batchDone v f = some (d, slot, g)) :
    let r := binBatch f d (d.batchAt d.binned).2 ((d.firstInstance + (d.batchAt d.binned).1) % 2 ^ 32) g.outs
    r.1.ordinal < 4096 → takePages v q d.pkt (r.1.ordinal + 1) 4096 = .ready w →
    let d' := { d with binned := d.binned + 1, slots := d.slots.drop 1 }
    let f' := { r.1 with pages := ((getFrame w q).map Frame.pages).getD [] }
    exec (.batchBin q t) s = .next (finishDraw (putBins (dropGroup (modFrame w q fun f =>
      setDraw { f' with taken := f.taken, low := f.low, partial_ := f.partial_ } d') slot) q f' g.core r.2) q d') := by
  intro r hroom hpages d' f'
  simp only [exec_batchBin, execBatchBin, hbound, hframe, hflush, hstall, hdone, Option.isSome_none, Bool.or_self,
    Bool.false_eq_true, if_false]
  rw [if_neg (Nat.not_le.2 hroom), hpages]

/-- A stall ends where PUBLISHED tells of free pages in time. -/
theorem publishedReadReturn_of_free {f : Frame} {e g free : Nat} {w : State} (hframe : getFrame v q = some f)
    (hstall : f.stall = some (e, g)) (hcount : freeCount v q f = .count w free) (hfree : free ≠ 0)
    (hintime : f.resumed = true ∨ (geomUsed w q).stamp < e + g) : exec (.publishedReadReturn q t) s = .next (writePool (modFrame
      (modFrame (geomUsed w q) q fun f => { f with resumed := false }) q fun f => { f with stall := none }) q true) := by
  have hends : (free ≠ 0 && (f.resumed || (geomUsed w q).stamp < e + g)) = true := by
    simp only [Bool.and_eq_true, Bool.or_eq_true, decide_eq_true_eq]
    exact ⟨hfree, hintime⟩
  simp only [exec_publishedReadReturn, execPublishedReadReturn, hbound, hframe, hstall, hcount, hends, if_true]

end

/-! Stalls, flushes and yields (R654 to R660, R669) -/

section
variable {s : State} {q : QueueId} {t : Stamp} {f : Frame} (hframe : getFrame (s.upTo t) q = some f)
include hframe

theorem binGraceExpire_of_late {e g : Nat} (hbound : (s.upTo t).gfx.bound = some q) (htimed : timed (s.upTo t) = true)
    (hstall : f.stall = some (e, g)) (hlate : e + g ≤ (s.upTo t).stamp) (hfresh : f.resumed = false) :
    exec (.binGraceExpire q t) s = .next (startFlush (s.upTo t) q) := by
  simp [exec_binGraceExpire, execBinGraceExpire, hframe, hbound, htimed, hstall, hlate, hfresh]

theorem partialFlushRewind_of_flushed (hflush : f.flushing = true) (htodo : f.todo = []) (htiles : noTiles (s.upTo t) q = true) :
    exec (.partialFlushRewind q t) s = .next (writePool (modFrame (raiseTag (discardBins (s.upTo t) q f) q) q fun f =>
      { f with flushing := false, ordinal := 0, unit := 0, prims := [], bins := [], blocks := [], kept := [] }) q true) := by
  simp only [exec_partialFlushRewind, execPartialFlushRewind, hframe, hflush, htodo, htiles, List.isEmpty_nil, Bool.not_true,
    Bool.or_self, Bool.false_eq_true, if_false]

theorem binnerYield_of_due (hbound : (s.upTo t).gfx.bound = some q) (hboundary : atBatchBoundary f = true)
    (hflush : f.flushing = false) (hdue : yieldDue (s.upTo t) q f = true) :
    let v := binWrite { s.upTo t with free := (s.upTo t).free + 1 } q (f.pool + 0x40)
      (leBytes 64 (Config.freeNat (s.upTo t).free))
    exec (.binnerYield q t) s =
      .next { v with gfx := { v.gfx with bound := if v.gfx.bound = some q then none else v.gfx.bound } } := by
  simp only [exec_binnerYield, execBinnerYield, hframe, hbound, hboundary, hflush, hdue, ne_eq, not_true_eq_false, decide_false,
    Bool.not_true, Bool.or_self, Bool.false_eq_true, if_false]

end

/-- Settles O54: each row of the Binner on a frame that has what the row waits for. -/
theorem binnerCommandsAct : Obligations.BinnerCommandsAct := by
  refine ⟨?launch, ?bin, ?published, ?grace, ?rewind, ?yield⟩
  case launch =>
    intro s q core t v d hbound hdraw hmay hsaved hcore
    rw [vertexGroupLaunch_of_chosen hbound hdraw hmay hsaved hcore]
    exact ⟨fun w hwait => congrArg Host.Outcome.next (withArgs_of_wait _ _ hwait),
      fun bs hready hclean => congrArg Host.Outcome.next (withArgs_of_clean _ _ hready hclean)⟩
  case bin =>
    intro s q t v f d slot g w hbound hframe hflush hstall hdone
    exact batchBin_of_done hbound hframe hflush hstall hdone
  case published =>
    intro s q t v f e g w free hbound hframe hstall hcount hfree hintime
    exact publishedReadReturn_of_free hbound hframe hstall hcount hfree hintime
  case grace =>
    intro s q t f e g u hbound htimed hframe hstall hlate hfresh
    exact binGraceExpire_of_late hframe hbound htimed hstall hlate hfresh
  case rewind =>
    intro s q t f u hframe hflush htodo htiles
    exact partialFlushRewind_of_flushed hframe hflush htodo htiles
  case yield =>
    intro s q t f u hframe hbound hboundary hflush hdue
    exact binnerYield_of_due hframe hbound hboundary hflush hdue

end Sys2Proof.Laws
end

section
/-!
PROOFS. Transfers (spec 16), and the end of stops, saves, restores and forfeits (spec 17, 18): each row by its meaning on a state
that has what the row waits for.
-/

namespace Sys2Proof.Laws

open Machine

/-! The transfer rows, by their meanings -/

theorem exec_xferCopy (q : QueueId) (t : Stamp) (s : State) : exec (.xferCopy q t) s =
    .next (packetRow (s.upTo t) q 0x80 anyBytes anyTime fun s p bs => startXfer s q p bs) := rfl

theorem exec_xferCopy2d (q : QueueId) (t : Stamp) (s : State) : exec (.xferCopy2d q t) s =
    .next (packetRow (s.upTo t) q 0x81 anyBytes anyTime fun s p bs => startXfer s q p bs) := rfl

theorem exec_xferFill (q : QueueId) (t : Stamp) (s : State) : exec (.xferFill q t) s =
    .next (packetRow (s.upTo t) q 0x82 anyBytes anyTime fun s p bs => startXfer s q p bs) := rfl

theorem exec_channelAcquire (ch : Nat) (t : Stamp) (s : State) : exec (.channelAcquire ch t) s = execChannelAcquire ch t s := rfl

theorem exec_xferReadReturn (n : Nat) (bad : List Nat) (t : Stamp) (s : State) :
    exec (.xferReadReturn n bad t) s = execXferReadReturn n bad t s := rfl

theorem exec_xferCompletionPulse (ch : Nat) (t : Stamp) (s : State) :
    exec (.xferCompletionPulse ch t) s = execXferCompletionPulse ch t s := rfl

/-! Transfers (R716 to R741) -/

/-- The three transfer packets start alike. -/
theorem exec_xferRow {row : QueueId → Stamp → Instr} {ty : Nat}
    (h : (row, ty) ∈ [(Instr.xferCopy, 0x80), (Instr.xferCopy2d, 0x81), (Instr.xferFill, 0x82)])
    (q : QueueId) (t : Stamp) (s : State) :
    exec (row q t) s = .next (packetRow (s.upTo t) q ty anyBytes anyTime fun s p bs => startXfer s q p bs) := by
  simp only [List.mem_cons, Prod.mk.injEq, List.not_mem_nil, or_false] at h
  obtain ⟨rfl, rfl⟩ | ⟨rfl, rfl⟩ | ⟨rfl, rfl⟩ := h
  · exact exec_xferCopy q t s
  · exact exec_xferCopy2d q t s
  · exact exec_xferFill q t s

/-- A packet with good fields that nothing refuses wakes the engine and waits for its channel. -/
theorem startXfer_of_good {s : State} {q : QueueId} {p : Pkt} {bs : List Byte} (hgood : xferBad (xferOf s q p bs) = false)
    (hallowed : xferRefused s (xferOf s q p bs) = none) :
    startXfer s q p bs = { requestWake s 71 with
      xfer := { (requestWake s 71).xfer with waiting := (requestWake s 71).xfer.waiting ++ [xferOf s q p bs] } } := by
  simp only [startXfer, hgood, hallowed, Bool.false_eq_true, if_false]

theorem channelAcquire_of_open {s : State} {ch : Nat} {t : Stamp} (hopen : isOpen (s.upTo t) = true)
    (htimed : timed (s.upTo t) = true) :
    exec (.channelAcquire ch t) s = .next (takeChannel (s.upTo t) ch) := by
  simp only [exec_channelAcquire, execChannelAcquire, hopen, htimed, Bool.and_self, if_true]

section
variable {s : State} {ch : Nat} {t : Stamp} {o : XferOp} (hactive : tblGet (s.upTo t).xfer.active ch = some o)
  (hmode : (s.upTo t).lock.mode ≠ .halted)
include hactive hmode

/-- A transfer whose staging buffer has taken a returned read. -/
def staged (o : XferOp) (off : Nat) (bad : List Nat) (a : Access) : XferOp :=
  let o : XferOp := { o with pieces := o.pieces ++ [(off, spoil bad (pieceOf o off a))] }
  absorbPieces o o.pieces.length

/-- An answered read of the channel that the engine serves is staged, and the channel goes on. -/
theorem xferReadReturn_of_served {n off : Nat} {line : QueueId} {bad : List Nat} {a : Access} (haccess : getAccess (s.upTo t) n = some a)
    (hclient : a.client = .xferRead line ch off) (hanswered : a.stage = .answered)
    (hserved : servedChannel (s.upTo t) (ch / 16) = some ch) : exec (.xferReadReturn n bad t) s =
      .next (pumpXfer (beatServed (putXfer (removeAccess (s.upTo t) n) (staged o off bad a)) ch false) ch) := by
  simp only [exec_xferReadReturn, execXferReadReturn, haccess, hclient, hactive, hmode, hanswered, hserved, ne_eq, not_true_eq_false,
    decide_false, Bool.or_self, Bool.false_eq_true, if_false]
  rfl

/-- A transfer with every byte written and no write at the NI completes. -/
theorem xferCompletionPulse_of_written (hleft : writesAtNi (s.upTo t) ch = false) (hwritten : o.total ≤ o.written) :
    exec (.xferCompletionPulse ch t) s = .next (completePkt
      { s.upTo t with xfer := { (s.upTo t).xfer with active := tblErase (s.upTo t).xfer.active ch } } o.queue o.pkt) := by
  simp only [exec_xferCompletionPulse, execXferCompletionPulse, hactive, hmode, hleft, hwritten, decide_false, Bool.or_self,
    Bool.false_eq_true, if_false, if_true]

end

/-- Settles O56: the packets start alike, and each event of a channel does what its state allows. -/
theorem transfersAct : Obligations.TransfersAct := by
  refine ⟨?start, ?acquire, ?returned, ?pulse⟩
  case start =>
    intro row ty hrow s q t x hx o hgood hallowed v
    rw [exec_xferRow hrow, packetRow_of_starting hx, startXfer_of_good hgood hallowed]
  case acquire =>
    intro s ch t hopen htimed
    exact channelAcquire_of_open hopen htimed
  case returned =>
    intro s n bad t a line ch off o u haccess hclient hactive hmode hanswered hserved
    exact xferReadReturn_of_served hactive hmode haccess hclient hanswered hserved
  case pulse =>
    intro s ch t o u hactive hmode hleft hwritten
    exact xferCompletionPulse_of_written hactive hmode hleft hwritten

/-! Stops, saves and restores: the rows, by their meanings -/

theorem exec_groupStopComplete (slot : Nat) (t : Stamp) (s : State) :
    exec (.groupStopComplete slot t) s = execGroupStopComplete slot t s := rfl

theorem exec_saveComplete (q : QueueId) (t : Stamp) (s : State) : exec (.saveComplete q t) s = execSaveComplete q t s := rfl

theorem exec_queueResume (q : QueueId) (t : Stamp) (s : State) : exec (.queueResume q t) s = execQueueResume q t s := rfl

theorem exec_restoreComplete (wg core : Nat) (lost : Bool) (t : Stamp) (s : State) :
    exec (.restoreComplete wg core lost t) s = execRestoreComplete wg core lost t s := rfl

theorem exec_forfeitWritesPerformed (k : Nat) (t : Stamp) (s : State) :
    exec (.forfeitWritesPerformed k t) s = execForfeitWritesPerformed k t s := rfl

/-! Stops, saves and restores (R764 to R775) -/

section
variable {s : State} {t : Stamp}

theorem groupStopComplete_of_met {slot : Nat} {g : Group} (hgroup : getGroup (s.upTo t) slot = some g)
    (hstopping : g.stopping = true) (hgoing : g.stopped = false) (hmet : stopMet (s.upTo t) slot g = true) :
    let reads := toReplay (s.upTo t) slot g
    let ops := opsToReplay (s.upTo t) slot g
    let v := reads.foldl (fun v e => removeAccess v e.1) (s.upTo t)
    exec (.groupStopComplete slot t) s = .next (putGroup
      { v with madders := { v.madders with ops := v.madders.ops.filter fun e => !(ops.any fun o => o.1 == e.1) } } slot
      { g with stopped := true, replays := g.replays ++ reads.map Prod.snd, replayOps := g.replayOps ++ ops }) := by
  simp only [exec_groupStopComplete, execGroupStopComplete, hgroup, hstopping, hgoing, hmet, Bool.not_true, Bool.or_self,
    Bool.false_eq_true, if_false]

theorem queueResume_of_stopped {q : QueueId} {r : Queue} (hqueue : getQueue (s.upTo t) q = some r)
    (hpreempted : r.stops.contains .preempt = true) (hstopped : stopComplete (s.upTo t) q r = true)
    (hplaceable : placeable (s.upTo t) q = true) : exec (.queueResume q t) s = .next (settleQueue (modQueue
      { s.upTo t with xfer := { (s.upTo t).xfer with
          saved := (s.upTo t).xfer.saved.filter fun o => o.queue != q
          waiting := (s.upTo t).xfer.waiting ++ (s.upTo t).xfer.saved.filter fun o => o.queue == q } } q
      fun r => { r with stops := removeAll r.stops .preempt, preempting := none, wait := r.wait.map fun w => { w with due := true } })
      q) := by
  simp only [exec_queueResume, execQueueResume, hqueue, hpreempted, hstopped, hplaceable, Bool.not_true, Bool.or_self,
    Bool.false_eq_true, if_false]

theorem restoreComplete_of_restorable {wg core : Nat} {x : SavedWg} (hsaved : tblGet (s.upTo t).cores.saved wg = some x)
    (hroom : restorable (s.upTo t) x core = true)
    (hfirst : outranked (s.upTo t) core (orderKey (s.upTo t) x.wg.queue x.since) = false) :
    exec (.restoreComplete wg core false t) s = .next (restoreWg (s.upTo t) wg core x) := by
  simp only [exec_restoreComplete, execRestoreComplete, hsaved, hroom, hfirst, Bool.not_true, Bool.or_self,
    Bool.false_eq_true, if_false]

/-! Forfeits (R809, Table 18-8) -/

theorem forfeitWritesPerformed_of_running {k : Nat} {f : Forfeit} (hforfeit : (s.upTo t).forfeits[k]? = some f)
    (hmode : (s.upTo t).lock.mode ≠ .halted) :
    exec (.forfeitWritesPerformed k t) s = .next (takeCheckpoint (stepForfeit (s.upTo t) k f)) := by
  simp only [exec_forfeitWritesPerformed, execForfeitWritesPerformed, hforfeit, beq_eq_false_iff_ne.2 hmode, Bool.false_and,
    Bool.false_eq_true, if_false]

end

/-- While a write of the set is left, a forfeit only discards what is held. -/
theorem stepForfeit_of_writesLeft {u : State} {k : Nat} {f : Forfeit} (h : forfeitWritesLeft (dropHeld u f) f = true) :
    stepForfeit u k f = dropHeld u f := if_pos h

/-- With no write left it sweeps once, marks the semaphores, and ends where none of them is left and no command runs. -/
theorem stepForfeit_of_noWrites {u : State} {k : Nat} {f : Forfeit} (h : forfeitWritesLeft (dropHeld u f) f = false) :
    stepForfeit u k f =
      let w := if f.swept then dropHeld u f
        else modForfeit (forfeitSweep (dropHeld u f) fun c => f.ctxs.contains c) k fun f => { f with swept := true }
      let y := markSems w k f.ctxs
      if semsLeft y f.ctxs || adminRuns y f then y else finishForfeit y k :=
  if_neg (Bool.eq_false_iff.1 h)

/-- Settles O49: each row on a state that has what it waits for. -/
theorem stopsSavesAndRestoresComplete : Obligations.StopsSavesAndRestoresComplete := by
  refine ⟨?stop, ?save, ?resume, ?restore, ?forfeit⟩
  case stop =>
    intro s slot t g u hgroup hstopping hgoing hmet
    exact groupStopComplete_of_met hgroup hstopping hgoing hmet
  case save => exact fun s q t => exec_saveComplete q t s
  case resume =>
    intro s q t r u hqueue hpreempted hstopped hplaceable
    exact queueResume_of_stopped hqueue hpreempted hstopped hplaceable
  case restore =>
    intro s wg core t x u hsaved hroom hfirst
    exact restoreComplete_of_restorable hsaved hroom hfirst
  case forfeit =>
    intro s k t f u hforfeit hmode v
    have hstep := forfeitWritesPerformed_of_running hforfeit hmode
    refine ⟨fun hleft => ?left, fun hnone => ?none⟩
    case left => rw [hstep, stepForfeit_of_writesLeft hleft]
    case none => rw [hstep, stepForfeit_of_noWrites hnone]

end Sys2Proof.Laws
end

section
/-!
PROOFS. The error queue (spec 18): what ERR_ACK consumes of a window and leaves in the others, and the commands of the queue, each
by its meaning.
-/

namespace Sys2Proof.Laws

open Machine

theorem exec_errAck (fn : Nat) (value : Word) (t : Stamp) (s : State) : exec (.errAck fn value t) s = execErrAck fn value t s := rfl

theorem exec_errSel (fn : Nat) (value : Word) (ue : Bool) (t : Stamp) (s : State) :
    exec (.errSel fn value ue t) s = execErrSel fn value ue t s := rfl

theorem exec_errorRecordStore (t : Stamp) (s : State) : exec (.errorRecordStore t) s = execErrorRecordStore t s := rfl

/-! Consuming a window (R797, R802) -/

theorem contains_removeAll_self (ws : List Nat) (fn : Nat) : (removeAll ws fn).contains fn = false := by
  simp [removeAll]

theorem contains_removeAll_of_ne {g fn : Nat} (h : g ≠ fn) (ws : List Nat) : (removeAll ws fn).contains g = ws.contains g := by
  simp [removeAll, h]

/-- A record that a window has consumed, as the queue keeps it where other windows hold it. -/
def leftFor (fn : Nat) (r : StoredRec) : StoredRec := { r with windows := removeAll r.windows fn }

/-- Among the records that hold window `g`, a consumed record counts as before where `g` is another window, and not at all where it
is its own: freeing it changes nothing. -/
theorem filter_leftFor {g fn : Nat} (r : StoredRec) (rest : List StoredRec) :
    (if (leftFor fn r).windows.isEmpty then rest else leftFor fn r :: rest).filter (fun x => x.windows.contains g) =
      (leftFor fn r :: rest).filter fun x => x.windows.contains g := by
  split
  case isTrue hempty =>
    have hnot : (leftFor fn r).windows.contains g = false := by rw [List.isEmpty_iff.1 hempty]; rfl
    rw [List.filter_cons_of_neg (by simp only [hnot, Bool.false_eq_true, not_false_eq_true])]
  case isFalse => rfl

theorem consumeFrom_of_holds {fn seq : Nat} {r : StoredRec} (h : r.windows.contains fn = true) (rest : List StoredRec) :
    consumeFrom fn seq (r :: rest) =
      if (leftFor fn r).windows.isEmpty then (if r.seq = seq then rest else consumeFrom fn seq rest)
      else leftFor fn r :: (if r.seq = seq then rest else consumeFrom fn seq rest) := by
  rw [consumeFrom, if_pos h]
  rfl

theorem consumeFrom_of_other {fn seq : Nat} {r : StoredRec} (h : r.windows.contains fn = false) (rest : List StoredRec) :
    consumeFrom fn seq (r :: rest) = r :: consumeFrom fn seq rest := by
  simp only [consumeFrom, h, Bool.false_eq_true, if_false]

/-- The window that consumes keeps what came after the record of the SEQ. -/
theorem window_consumeFrom {fn seq : Nat} {r : StoredRec} {after : List StoredRec} (hseq : r.seq = seq) :
    ∀ {l before : List StoredRec}, (l.filter fun x => x.windows.contains fn) = before ++ r :: after →
      (∀ x ∈ before, x.seq ≠ seq) → ((consumeFrom fn seq l).filter fun x => x.windows.contains fn) = after := by
  intro l
  induction l with
  | nil =>
    intro before h
    cases before <;> cases h
  | cons y rest ih =>
    intro before h hbefore
    cases hholds : y.windows.contains fn with
    | false =>
      rw [List.filter_cons_of_neg (by simp only [hholds, Bool.false_eq_true, not_false_eq_true])] at h
      rw [consumeFrom_of_other hholds, List.filter_cons_of_neg (by simp only [hholds, Bool.false_eq_true, not_false_eq_true])]
      exact ih h hbefore
    | true =>
      have hgone : ¬ (leftFor fn y).windows.contains fn = true := by
        rw [leftFor, contains_removeAll_self]; exact Bool.false_ne_true
      rw [List.filter_cons_of_pos (by exact hholds)] at h
      rw [consumeFrom_of_holds hholds, filter_leftFor, List.filter_cons_of_neg (by exact hgone)]
      cases before with
      | nil =>
        obtain ⟨rfl, hafter⟩ := List.cons.inj h
        rw [if_pos hseq, hafter]
      | cons z zs =>
        obtain ⟨rfl, hrest⟩ := List.cons.inj h
        rw [if_neg (hbefore y (List.mem_cons_self ..))]
        exact ih hrest fun x hx => hbefore x (List.mem_cons_of_mem _ hx)

/-- Every other window holds the same records, in the same order. -/
theorem otherWindow_consumeFrom {α : Type} {f : StoredRec → α} {fn g seq : Nat} (hg : g ≠ fn) (hf : ∀ r, f (leftFor fn r) = f r)
    (l : List StoredRec) :
    ((consumeFrom fn seq l).filter fun x => x.windows.contains g).map f = (l.filter fun x => x.windows.contains g).map f := by
  induction l with
  | nil => rfl
  | cons y rest ih =>
    cases hholds : y.windows.contains fn with
    | false => rw [consumeFrom_of_other hholds, List.filter_cons, List.filter_cons]; split <;> simp only [List.map_cons, ih]
    | true =>
      have hsame : (leftFor fn y).windows.contains g = y.windows.contains g := contains_removeAll_of_ne hg _
      have hrest : ((if y.seq = seq then rest else consumeFrom fn seq rest).filter fun x => x.windows.contains g).map f =
          (rest.filter fun x => x.windows.contains g).map f := by
        split
        · rfl
        · exact ih
      rw [consumeFrom_of_holds hholds, filter_leftFor, List.filter_cons, List.filter_cons, hsame]
      split
      · rw [List.map_cons, List.map_cons, hf, hrest]
      · exact hrest

/-! ERR_ACK (R802, R816) -/

/-- The state in which a window has consumed up to a SEQ, before it takes dropped records again. -/
def acked (u : State) (fn seq : Nat) : State :=
  { u with err := { u.err with stored := consumeUpTo u fn seq, sel := tblSet u.err.sel fn 0 } }

section
variable {s : State} {fn : Nat} {value : Word} {t : Stamp} (hbar : barAnswers (s.upTo t) fn = true)
include hbar

/-- A SEQ of the window: it is consumed, and the records that the full window dropped in the same step are taken. -/
theorem errAck_of_held (hheld : ((windowOf (s.upTo t) fn).any fun r => r.seq == value.toNat) = true) :
    exec (.errAck fn value t) s = .next ((turnedNow (acked (s.upTo t) fn value.toNat)).foldl (fun v e => retake v fn e)
      (acked (s.upTo t) fn value.toNat)) := by
  simp only [exec_errAck, execErrAck, hbar, hheld, Bool.and_self, if_true]
  rfl

/-- Where the window dropped nothing in the same step, ERR_ACK only consumes. -/
theorem errAck_of_noneTurned (hturned : turnedNow (s.upTo t) = [])
    (hheld : ((windowOf (s.upTo t) fn).any fun r => r.seq == value.toNat) = true) :
    exec (.errAck fn value t) s = .next (acked (s.upTo t) fn value.toNat) := by
  have hnone : turnedNow (acked (s.upTo t) fn value.toNat) = [] := hturned
  rw [errAck_of_held hbar hheld, hnone, List.foldl_nil]

/-- A SEQ that the window does not hold is ignored. -/
theorem errAck_of_notHeld (hnot : ∀ r ∈ windowOf (s.upTo t) fn, r.seq ≠ value.toNat) :
    exec (.errAck fn value t) s = .next (s.upTo t) := by
  have hany : ((windowOf (s.upTo t) fn).any fun r => r.seq == value.toNat) = false :=
    List.any_eq_false.2 fun r hr => by simp only [beq_iff_eq, hnot r hr, not_false_eq_true]
  simp only [exec_errAck, execErrAck, hbar, hany, Bool.and_false, Bool.false_eq_true, if_false]

end

/-- Settles O10: the queue without the consumed records is what its window and the others see of it. -/
theorem errAckConsumesUpToTheRecord : Obligations.ErrAckConsumesUpToTheRecord := by
  intro s fn value t u hbar hturned
  refine ⟨fun before r after hwindow hbefore hr => ?consumed, errAck_of_notHeld hbar⟩
  have hheld : ((windowOf u fn).any fun r => r.seq == value.toNat) = true :=
    List.any_eq_true.2 ⟨r, by rw [hwindow]; exact List.mem_append_right _ (List.mem_cons_self ..), beq_iff_eq.2 hr⟩
  refine ⟨acked u fn value.toNat, errAck_of_noneTurned hbar hturned hheld, window_consumeFrom hr hwindow hbefore,
    fun g hg => ⟨otherWindow_consumeFrom hg (fun _ => rfl) _, otherWindow_consumeFrom hg (fun _ => rfl) _⟩, ?sel, rfl,
    fun g hg => ?others⟩
  case sel => rw [tblGetD, acked, tblGet_tblSet, if_pos rfl]; rfl
  case others => rw [tblGetD, acked, tblGet_tblSet, if_neg hg.symm]; rfl

/-! The other commands of the queue, and a record that is taken again (R796, R801, R816) -/

theorem errorRecordStore_of_detected {s : State} {t : Stamp} {r : ErrRec} {rest : List ErrRec}
    (hmode : (s.upTo t).lock.mode ≠ .halted) (hdetected : (s.upTo t).err.detected = r :: rest) :
    exec (.errorRecordStore t) s =
      .next (storeRecord (mordantOutput { s.upTo t with err := { (s.upTo t).err with detected := rest } } 2) r) := by
  simp only [exec_errorRecordStore, execErrorRecordStore, beq_iff_eq, hmode, if_false, hdetected]

/-- The state in which a window takes a dropped record again: its drop is undone. -/
def retaking (s : State) (fn : Nat) (e : Nat × Option Nat × ErrRec) : State :=
  { s with err := { undrop s.err fn with turned := s.err.turned.erase e } }

section
variable {s : State} {fn : Nat} {e : Nat × Option Nat × ErrRec} (hmine : e.1 = fn) (hroom : (windowOf s fn).length < windowCap fn)
include hmine hroom

/-- Where another window holds the entry still, this one joins it. -/
theorem retake_of_held {q : Nat}
    (hheld : (e.2.1.filter fun q => (undrop s.err fn).stored.any fun r => r.seq == q) = some q) :
    retake s fn e = vectorEvent { retaking s fn e with err := { (retaking s fn e).err with
      stored := (retaking s fn e).err.stored.map fun r => if r.seq = q then addWindow fn r else r } } fn 0 := by
  have hguard : ¬ (e.1 ≠ fn || (windowOf s fn).length ≥ windowCap fn) = true := by simp [hmine, hroom]
  unfold retake
  rw [if_neg hguard]
  dsimp only
  rw [hheld]
  rfl

/-- Where no window holds the entry, the record becomes an entry of its own. -/
theorem retake_of_freed
    (hfreed : (e.2.1.filter fun q => (undrop s.err fn).stored.any fun r => r.seq == q) = none) :
    retake s fn e = storeRecord (retaking s fn e) { e.2.2 with dest :=
      { t := e.2.2.dest.t && e.2.2.tenant == some fn, a := e.2.2.dest.a && fn == 0, b := e.2.2.dest.b && fn == 96 } } := by
  have hguard : ¬ (e.1 ≠ fn || (windowOf s fn).length ≥ windowCap fn) = true := by simp [hmine, hroom]
  unfold retake
  rw [if_neg hguard]
  dsimp only
  rw [hfreed]
  rfl

end

/-- The state in which ERR_SEL has moved the view. -/
def viewMoved (u : State) (fn : Nat) (value : Word) : State :=
  { u with err := { u.err with sel := tblSet u.err.sel fn (fieldNat value 9 0) } }

section
variable {s : State} {fn : Nat} {value : Word} {t : Stamp} (hbar : barAnswers (s.upTo t) fn = true)
include hbar

theorem errSel_of_good : exec (.errSel fn value false t) s = .next (viewMoved (s.upTo t) fn value) := by
  simp only [exec_errSel, execErrSel, hbar, if_true]
  split
  · rfl
  · rfl

theorem errSel_of_noView (hview : viewed (viewMoved (s.upTo t) fn value) fn = none) :
    exec (.errSel fn value true t) s = .next (viewMoved (s.upTo t) fn value) := by
  rw [viewMoved] at hview
  rw [exec_errSel, execErrSel, if_pos hbar]
  dsimp only
  rw [hview]
  rfl

theorem errSel_of_damaged {r : StoredRec} (hview : viewed (viewMoved (s.upTo t) fn value) fn = some r) :
    exec (.errSel fn value true t) s = .next (damageRecord (viewMoved (s.upTo t) fn value) r.seq) := by
  rw [viewMoved] at hview
  rw [exec_errSel, execErrSel, if_pos hbar]
  dsimp only
  rw [hview]
  rfl

end

/-- Settles O57: each command of the queue by its meaning, and a record that is taken again by whether a window holds its entry. -/
theorem errorQueueCommandsAct : Obligations.ErrorQueueCommandsAct := by
  refine ⟨?store, ?ack, ?retake, ?sel⟩
  case store =>
    intro s t r rest u hmode hdetected
    exact errorRecordStore_of_detected hmode hdetected
  case ack =>
    intro s fn value t u hbar hheld v
    refine ⟨errAck_of_held hbar hheld, fun hlater => errAck_of_noneTurned hbar ?_ hheld⟩
    exact if_neg (Bool.eq_false_iff.1 hlater)
  case retake =>
    intro s fn q e hmine hroom w
    exact ⟨retake_of_held hmine hroom, retake_of_freed hmine hroom⟩
  case sel =>
    intro s fn value t u hbar v
    exact ⟨errSel_of_good hbar, errSel_of_noView hbar, fun r => errSel_of_damaged hbar⟩

end Sys2Proof.Laws
end

section
/-!
PROOFS. Compose commands (spec 20) and the lockstep pair (spec 19): what a compose command does as it starts and at each later
event, said once for the three rows, and one lemma for each event of the pair.
-/

namespace Sys2Proof.Laws

open Machine

/-! Compose (R857 to R859) -/

theorem exec_composeCopy (ahead : Bool) (k : SlotId) (t : Stamp) (s : State) : exec (.composeCopy k ahead t) s =
    .next (mbxRow (s.upTo t) k 0x0300 anyCmd (composeCauses false) startCompose (stepCompose .copy ahead)) := rfl

theorem exec_composeFill (ahead : Bool) (k : SlotId) (t : Stamp) (s : State) : exec (.composeFill k ahead t) s =
    .next (mbxRow (s.upTo t) k 0x0301 anyCmd (composeCauses true) startCompose (stepCompose .fill ahead)) := rfl

theorem exec_composeBlend (ahead : Bool) (k : SlotId) (t : Stamp) (s : State) : exec (.composeBlend k ahead t) s =
    .next (mbxRow (s.upTo t) k 0x0302 anyCmd (composeCauses false) startCompose (stepCompose .blend ahead)) := rfl

section
variable {u : State} {k : SlotId} {cmd : List Word} {x : ComposeOp} {kind : ComposeKind} {ahead : Bool}
  (hrun : u.compose = some x) (hslot : x.slot = k)
include hrun hslot

/-- A write that ended at a timeout stops the command. -/
theorem stepCompose_of_badWrite {bad va : Nat} (hgoing : x.stopped = false) (hbad : badWrite u = some (bad, va)) :
    stepCompose kind ahead u k cmd = stopCompose (takeWrites u) x bad va := by
  simp only [stepCompose, hrun, hslot, hgoing, hbad, ne_eq, not_true_eq_false, Bool.false_eq_true, if_false]

/-- A command that was stopped, or has written its last pixel, completes once its writes are performed. -/
theorem stepCompose_of_over (hover : x.stopped = true ∨ (badWrite u = none ∧ composeWhole cmd x = true)) :
    stepCompose kind ahead u k cmd = endCompose (takeWrites u) k := by
  have hnobad : (if x.stopped = true then none else badWrite u) = none := by
    obtain hstopped | ⟨hbad, -⟩ := hover
    · exact if_pos hstopped
    · rw [hbad, ite_self]
  have hdone : (x.stopped || composeWhole cmd x) = true := by
    obtain hstopped | ⟨-, hwhole⟩ := hover
    · rw [hstopped, Bool.true_or]
    · rw [hwhole, Bool.or_true]
  simp only [stepCompose, hrun, hslot, hnobad, hdone, ne_eq, not_true_eq_false, if_false, if_true]

/-- With both domains on, a command with pixels left reads ahead or writes a line. -/
theorem stepCompose_of_going (hgoing : x.stopped = false) (hbad : badWrite u = none) (hwhole : composeWhole cmd x = false)
    (hcore : domOn u 0 = true) (htile : domOn u 65 = true) : stepCompose kind ahead u k cmd =
      if ahead && kind ≠ .fill then composeRead (takeWrites u) cmd x else composeWrite kind (takeWrites u) cmd x := by
  have hon : ∀ d, domOn (takeWrites u) d = domOn u d := fun _ => rfl
  simp only [stepCompose, hrun, hslot, hgoing, hbad, hwhole, hon, hcore, htile, ne_eq, not_true_eq_false, Bool.not_true, Bool.or_self,
    Bool.false_eq_true, if_false]

end

/-- Each compose row serves its command with the start and the later events of its kind. -/
theorem exec_composeRow {row : SlotId → Bool → Stamp → Instr} {code : Nat} {kind : ComposeKind}
    {causes : State → SlotId → List Word → List Nat}
    (h : (row, code, kind, causes) ∈ [(Instr.composeCopy, 0x0300, ComposeKind.copy, composeCauses false),
      (Instr.composeFill, 0x0301, .fill, composeCauses true), (Instr.composeBlend, 0x0302, .blend, composeCauses false)])
    (ahead : Bool) (k : SlotId) (t : Stamp) (s : State) :
    exec (row k ahead t) s = .next (mbxRow (s.upTo t) k code anyCmd causes startCompose (stepCompose kind ahead)) := by
  simp only [List.mem_cons, Prod.mk.injEq, List.not_mem_nil, or_false] at h
  obtain ⟨rfl, rfl, rfl, rfl⟩ | ⟨rfl, rfl, rfl, rfl⟩ | ⟨rfl, rfl, rfl, rfl⟩ := h
  · exact exec_composeCopy ahead k t s
  · exact exec_composeFill ahead k t s
  · exact exec_composeBlend ahead k t s

/-- Settles O26: the three rows are one command service; a later event stops, completes or advances the command. -/
theorem composeCommandsAct : Obligations.ComposeCommandsAct := by
  intro row code kind causes hrow ahead
  have hexec := exec_composeRow hrow ahead
  refine ⟨servedBy_of_mbxRow hexec, ?_⟩
  intro s k t x u cmd w hbusy hcode htakes hstarted hrun hslot
  have hstep : exec (row k ahead t) s = .next (stepCompose kind ahead u k cmd) :=
    resumedBy_of_mbxRow hexec s k t hbusy hcode rfl htakes hstarted
  rw [hstep]
  refine ⟨fun bad va hgoing hbad => ?bad, fun hover => ?done, fun hgoing hbad hwhole hcore htile => ?going⟩
  case bad => rw [stepCompose_of_badWrite hrun hslot hgoing hbad]
  case done => rw [stepCompose_of_over hrun hslot hover, endCompose]
  case going => rw [stepCompose_of_going hrun hslot hgoing hbad hwhole hcore htile]

/-! The lockstep pair: the rows, by their meanings -/

theorem exec_comparatorSelftest (ok : Bool) (t : Stamp) (s : State) :
    exec (.comparatorSelftest ok t) s = execComparatorSelftest ok t s := rfl

theorem exec_selftestAlarm (t : Stamp) (s : State) : exec (.selftestAlarm t) s = execSelftestAlarm t s := rfl

theorem exec_comparatorUnverified (t : Stamp) (s : State) : exec (.comparatorUnverified t) s = execComparatorUnverified t s := rfl

theorem exec_lockstepMismatch (kind : MismatchKind) (t : Stamp) (s : State) :
    exec (.lockstepMismatch kind t) s = execLockstepMismatch kind t s := rfl

theorem exec_replayComplete (t : Stamp) (s : State) : exec (.replayComplete t) s = execReplayComplete t s := rfl

theorem exec_mordantCheckpoint (t : Stamp) (s : State) : exec (.mordantCheckpoint t) s = .next (takeCheckpoint (s.upTo t)) := rfl

theorem exec_sepiaEntryComplete (t : Stamp) (s : State) : exec (.sepiaEntryComplete t) s = execSepiaEntryComplete t s := rfl

theorem exec_watchdogHeartbeat (t : Stamp) (s : State) : exec (.watchdogHeartbeat t) s = execWatchdogHeartbeat t s := rfl

theorem exec_watchdogExpire (t : Stamp) (s : State) : exec (.watchdogExpire t) s = execWatchdogExpire t s := rfl

/-! The self-test of the comparator (R829 to R832) -/

section
variable {s : State} {t : Stamp}

theorem comparatorSelftest_of_due (parityOk : Bool) (hruns : pairRuns (s.upTo t) = true) (htimed : timed (s.upTo t) = true)
    (hreplay : (s.upTo t).lock.replaying = false) (hdue : selfTestDue (s.upTo t) = true) :
    exec (.comparatorSelftest parityOk t) s = .next (if parityOk then
      { s.upTo t with lock := { (s.upTo t).lock with
        testToken := some (testToken (s.upTo t)), selfPending := some (s.upTo t).stamp, selfLast := some (s.upTo t).stamp
        selfCount := (s.upTo t).lock.selfCount + 1 } }
      else integrityFault (s.upTo t) 0x000B) := by
  simp only [exec_comparatorSelftest, execComparatorSelftest, hruns, htimed, hreplay, hdue, Bool.not_false, Bool.and_self, if_true]
  cases parityOk with
  | true => rfl
  | false => rfl

theorem selftestAlarm_of_early {ti : Stamp} (hpending : (s.upTo t).lock.selfPending = some ti)
    (hearly : (s.upTo t).stamp < ti + 20000) : exec (.selftestAlarm t) s = .next { s.upTo t with lock := { (s.upTo t).lock with
      testToken := none, selfPending := none, selfPass := satAdd 32 (s.upTo t).lock.selfPass 1
      lastAlarm := min ((s.upTo t).stamp - ti) 0xFFFF } } := by
  simp only [exec_selftestAlarm, execSelftestAlarm, hpending, hearly, if_true]

theorem comparatorUnverified_of_late {ti : Stamp} (hpending : (s.upTo t).lock.selfPending = some ti)
    (htimed : timed (s.upTo t) = true) (hlate : ti + 20000 ≤ (s.upTo t).stamp) : exec (.comparatorUnverified t) s =
      .next (integrityFault { s.upTo t with lock := { (s.upTo t).lock with testToken := none, selfPending := none } } 0x000A) := by
  simp only [exec_comparatorUnverified, execComparatorUnverified, hpending, htimed, hlate, decide_true, Bool.and_self, if_true]

/-! Mismatches (R829, R835 to R838) -/

section
variable (hruns : pairRuns (s.upTo t) = true)
include hruns

theorem lockstepMismatch_of_goodTokens {iface : Nat} {a b : Token} (hiface : iface < 6) (hne : a ≠ b)
    (ha : tokenGood a = true) (hb : tokenGood b = true) :
    exec (.lockstepMismatch (.tokens iface a b) t) s = .next (confirmedMismatch (s.upTo t) iface) := by
  simp [exec_lockstepMismatch, execLockstepMismatch, hruns, hiface, hne, ha, hb]

theorem lockstepMismatch_of_badToken {iface : Nat} {a b : Token} (hiface : iface < 6) (hne : a ≠ b)
    (hbad : (tokenGood a && tokenGood b) = false) :
    exec (.lockstepMismatch (.tokens iface a b) t) s = .next (integrityFault (s.upTo t) 0x000B) := by
  simp [exec_lockstepMismatch, execLockstepMismatch, hruns, hiface, hne, hbad]

theorem lockstepMismatch_of_delayParity :
    exec (.lockstepMismatch .delayParity t) s = .next (integrityFault (s.upTo t) 0x000B) := by
  simp only [exec_lockstepMismatch, execLockstepMismatch, hruns, Bool.not_true, Bool.false_eq_true, if_false]

/-- A replayed token that is its log entry's is no mismatch. -/
theorem lockstepMismatch_of_logged {entry : Nat} {token : Token} (hlog : (s.upTo t).lock.log[entry]? = some token) :
    exec (.lockstepMismatch (.replayDiffers entry token) t) s = .next (s.upTo t) := by
  simp only [exec_lockstepMismatch, execLockstepMismatch, hruns, hlog, Option.all_some, beq_self_eq_true, Bool.not_true,
    Bool.false_eq_true, if_false, if_true]

theorem lockstepMismatch_of_differs {entry : Nat} {token y : Token} (hlog : (s.upTo t).lock.log[entry]? = some y)
    (hne : y ≠ token) : exec (.lockstepMismatch (.replayDiffers entry token) t) s = .next (replayFails (s.upTo t)) := by
  simp only [exec_lockstepMismatch, execLockstepMismatch, hruns, hlog, Option.all_some, beq_eq_false_iff_ne.2 hne, Bool.not_true,
    Bool.false_eq_true, if_false]

theorem lockstepMismatch_of_checkpointLost :
    exec (.lockstepMismatch .checkpointLost t) s = .next (replayFails (s.upTo t)) := by
  simp only [exec_lockstepMismatch, execLockstepMismatch, hruns, Bool.not_true, Bool.false_eq_true, if_false]

end

/-! Checkpoints, Sepia entry and the watchdog (R833, R847, R849) -/

theorem mordantCheckpoint_of_running (hreplay : (s.upTo t).lock.replaying = false) (hmode : (s.upTo t).lock.mode ≠ .halted) :
    exec (.mordantCheckpoint t) s = .next { s.upTo t with lock := (s.upTo t).lock.checkpoint } := by
  simp only [exec_mordantCheckpoint, takeCheckpoint, hreplay, beq_eq_false_iff_ne.2 hmode, Bool.or_self, Bool.false_eq_true, if_false]

theorem sepiaEntryComplete_of_forfeited {e : SepiaEntry} (hentry : (s.upTo t).lock.entry = some e)
    (hforfeits : (s.upTo t).forfeits = [])
    (hwarm : inWarm (s.upTo t) = false) : exec (.sepiaEntryComplete t) s = .next (completeSepia (s.upTo t) e) := by
  simp only [exec_sepiaEntryComplete, execSepiaEntryComplete, hentry, hforfeits, hwarm, List.isEmpty_nil, Bool.not_false,
    Bool.and_self, if_true]

section
variable (hmode : (s.upTo t).lock.mode = .aAlone) (htimed : timed (s.upTo t) = true)
include hmode htimed

theorem watchdogHeartbeat_of_due (hbeat : t % 100000 = 0) (hstamp : (s.upTo t).stamp = t) :
    exec (.watchdogHeartbeat t) s = .next { s.upTo t with lock := { (s.upTo t).lock with heartbeat := t } } := by
  simp only [exec_watchdogHeartbeat, execWatchdogHeartbeat, hmode, htimed, hbeat, hstamp, beq_self_eq_true, Bool.and_self, if_true]

theorem watchdogExpire_of_missed (hmissed : heldMoreThan (missedBeat (s.upTo t)) (s.upTo t).stamp 1000000 = true) :
    exec (.watchdogExpire t) s = .next { s.upTo t with lock := { (s.upTo t).lock with mode := .halted } } := by
  simp only [exec_watchdogExpire, execWatchdogExpire, hmode, htimed, hmissed, beq_self_eq_true, Bool.and_self, if_true]

end

end

theorem confirmedMismatch_of_second {u : State} {iface : Nat} (h : u.lock.sinceReplay = true) :
    confirmedMismatch u iface = integrityFault { u with lock := { u.lock with replaying := false } } 0x0009 := if_pos h

theorem replayFails_of_replaying {u : State} (h : u.lock.replaying = true) :
    replayFails u = integrityFault { u with lock := { u.lock with replaying := false } } 0x0009 := if_pos h

/-- Settles O58: each event of the pair by its meaning. -/
theorem lockstepEventsAct : Obligations.LockstepEventsAct := by
  refine ⟨?selftest, ?alarm, ?tokens, ?others, ?replay, ?entry, ?watchdog⟩
  case selftest =>
    intro s t u hruns htimed hreplay hdue
    exact ⟨comparatorSelftest_of_due true hruns htimed hreplay hdue, comparatorSelftest_of_due false hruns htimed hreplay hdue⟩
  case alarm =>
    intro s t ti u hpending
    exact ⟨selftestAlarm_of_early hpending, comparatorUnverified_of_late hpending⟩
  case tokens =>
    intro s iface a b t u hruns hiface hne
    refine ⟨fun ha hb => ⟨fun hfirst => ?first, fun hsecond => ?second⟩, lockstepMismatch_of_badToken hruns hiface hne⟩
    case first =>
      rw [lockstepMismatch_of_goodTokens hruns hiface hne ha hb, confirmedMismatch, if_neg (Bool.eq_false_iff.1 hfirst)]
    case second => rw [lockstepMismatch_of_goodTokens hruns hiface hne ha hb, confirmedMismatch_of_second hsecond]
  case others =>
    intro s t u hruns
    refine ⟨lockstepMismatch_of_delayParity hruns, ?_⟩
    intro hreplaying v
    have hfails : replayFails u = v := replayFails_of_replaying hreplaying
    refine ⟨fun entry token => lockstepMismatch_of_logged hruns, fun entry token y hlog hne => ?_, ?_⟩
    · rw [lockstepMismatch_of_differs hruns hlog hne, hfails]
    · rw [lockstepMismatch_of_checkpointLost hruns, hfails]
  case replay =>
    intro s t u
    exact ⟨exec_replayComplete t s, mordantCheckpoint_of_running⟩
  case entry =>
    intro s t e u hentry hforfeits hwarm
    exact sepiaEntryComplete_of_forfeited hentry hforfeits hwarm
  case watchdog =>
    intro s t u hmode htimed
    exact ⟨watchdogHeartbeat_of_due hmode htimed, watchdogExpire_of_missed hmode htimed⟩

end Sys2Proof.Laws
end

section
/-!
PROOFS. A step of the queue, and the fuses (spec 03, 21): every reset keeps a blown fuse, and the two commands of the TAP that
write the fuses only blow them.
-/

namespace Sys2Proof.Laws

open Machine

/-! The step (log entries 1 and 18) -/

theorem step_of_empty {s : State} (hempty : s.pending = []) : step s = .next (mordantIdle s) := by
  simp only [step, hempty]

/-- Settles O1: the front command runs on the state with the rest of the queue; the idle step advances the interfaces alone. -/
theorem stepRunsTheCommandAtTheFront : Obligations.StepRunsTheCommandAtTheFront :=
  ⟨fun _ _ _ => rfl, fun _ hempty => step_of_empty hempty⟩

/-! Blown fuses (R899, Table 21-10) -/

/-- The fuses that are blown in `f` are blown in `f'`. -/
def StayBlown (f f' : Fuses) : Prop :=
  (f.inlineEcc = true → f'.inlineEcc = true) ∧ (f.jtagLock = true → f'.jtagLock = true)

theorem stayBlown_of_eq {f f' : Fuses} (h : f' = f) : StayBlown f f' := h ▸ ⟨id, id⟩

/-- FUSE_PROG only notes which fuses are to blow. -/
theorem fuseProg_stayBlown {value : BitVec 8} {vpp : Bool} {s v : State} (h : exec (.fuseProg value vpp) s = .next v) :
    StayBlown s.fuses v.fuses := by
  have selected : Kept s (selectInstr s .fuseProg .system) := selectInstr_kept _ _ _ (.refl s)
  rw [exec_fuseProg, execFuseProg] at h
  dsimp only at h
  injection h with h
  subst h
  split
  case isTrue => exact stayBlown_of_eq (bypassScan_kept _ selected).fuses
  case isFalse =>
    split
    case isTrue => exact (stayBlown_of_eq selected.fuses : StayBlown s.fuses (selectInstr s .fuseProg .system).fuses)
    case isFalse => exact stayBlown_of_eq selected.fuses

/-- FUSE_BLOW_DONE adds to the blown fuses. -/
theorem fuseBlowDone_stayBlown {verified : BitVec 2} {s v : State} (h : exec (.fuseBlowDone verified) s = .next v) :
    StayBlown s.fuses v.fuses := by
  rw [exec_fuseBlowDone, execFuseBlowDone] at h
  split at h
  case h_1 =>
    injection h with h
    exact stayBlown_of_eq (congrArg State.fuses h.symm)
  case h_2 =>
    injection h with h
    subst h
    exact ⟨fun hecc => by simp only [hecc, Bool.true_or], fun hlock => by simp only [hlock, Bool.true_or]⟩

/-- A write that is performed keeps the fuses: it counts, records and writes memory. -/
theorem performWrite_fuses (s : State) (w : WriteBack) (e : EccResult) : (performWrite s w e).fuses = s.fuses := by
  unfold performWrite
  dsimp only
  generalize hx : (if (!s.lpddr.inService) = true then s else _) = x
  have counted : x.fuses = s.fuses := by
    rw [← hx]
    split
    · rfl
    · cases e with
      | good => rfl
      | corrected => rfl
      | uncorrectable =>
        dsimp only
        split
        · exact (detect_sameContents _ _).kept.fuses
        · rfl
      | linkUncorrectable => exact (detect_sameContents _ _).kept.fuses
  split
  · exact counted
  · exact counted

theorem writtenBack_fuses (u : State) (n : Nat) (w : WriteBack) (ecc vat : EccResult) :
    (writtenBack u n w ecc vat).fuses = u.fuses :=
  (performWrite_fuses _ _ _).trans
    ((checkSent_sameContents u w vat).1.trans (ackWriteBack_sameContents _ n)).kept.fuses

/-- A write at its memory NI and the two power-on resets keep the fuses. -/
theorem exec_changes_cells_fuses {c : Instr} {s v : State} (hcells : changesCells c = true) (h : exec c s = .next v) :
    v.fuses = s.fuses := by
  unfold changesCells at hcells
  split at hcells
  next n ecc vat t =>
    obtain rfl | ⟨w, rfl⟩ := lpddrWriteBack_next h
    · rfl
    · exact writtenBack_fuses (s.upTo t) n w ecc vat
  next =>
    obtain ⟨ph, hexec, -⟩ := resetNAssert_powerOn s
    cases hexec.symm.trans h
    rfl
  next rail =>
    obtain hexec | hexec := brownOut_powerOn rail s
    · cases hexec.symm.trans h
      rfl
    · cases hexec.symm.trans h
      rfl
  next => cases hcells

/-- No command un-blows a fuse. -/
theorem exec_stayBlown {c : Instr} {s v : State} (h : exec c s = .next v) : StayBlown s.fuses v.fuses := by
  cases hcells : changesCells c with
  | true => exact stayBlown_of_eq (exec_changes_cells_fuses hcells h)
  | false =>
    cases hfuses : changesFuses c with
    | false => exact stayBlown_of_eq (exec_kept c s hcells hfuses v h).fuses
    | true =>
      unfold changesFuses at hfuses
      split at hfuses
      next value vpp => exact fuseProg_stayBlown h
      next verified => exact fuseBlowDone_stayBlown h
      next => cases hfuses

/-- Settles O4: the idle step keeps the fuses, and no command un-blows one. -/
theorem blownFusesStayBlown : Obligations.BlownFusesStayBlown := by
  intro s s' h
  cases hqueue : s.pending with
  | nil =>
    cases (step_of_empty hqueue).symm.trans h
    exact stayBlown_of_eq (mordantIdle_kept s (.refl s)).fuses
  | cons c rest =>
    simp only [step, hqueue] at h
    exact exec_stayBlown (s := { s with pending := rest }) h

end Sys2Proof.Laws
end

section
/-!
PROOFS. The I3C target (spec 22) and the TAP (spec 21): one write of register bytes for the rows that are one, and each other row by its
meaning.
-/

namespace Sys2Proof.Laws

open Machine

/-! The I3C rows, by their meanings -/

theorem exec_i3cPrivateWrite (bytes : List Byte) (t : Stamp) (s : State) :
    exec (.i3cPrivateWrite bytes t) s = .next (privateWrite (s.upTo t) bytes) := rfl

theorem exec_tempAlertWrite (value : BitVec 16) (s : State) : exec (.tempAlertWrite value) s =
    .next (privateWrite s [0x84#8, value.extractLsb' 0 8, value.extractLsb' 8 8]) := rfl

theorem exec_i3cWarmResetOrder (value : Byte) (t : Stamp) (s : State) :
    exec (.i3cWarmResetOrder value t) s = .next (privateWrite (s.upTo t) [0x80#8, value]) := rfl

theorem exec_ibiPendClear (value : Byte) (t : Stamp) (s : State) :
    exec (.ibiPendClear value t) s = .next (privateWrite (s.upTo t) [0x82#8, value]) := rfl

theorem exec_i3cPrivateRead (len : Nat) (t : Stamp) (s : State) :
    exec (.i3cPrivateRead len t) s = execI3cPrivateRead len t s := rfl

theorem exec_ibiAccept (s : State) : exec .ibiAccept s = execIbiAccept s := rfl

theorem exec_enec (s : State) : exec .enec s = execEnec s := rfl

theorem exec_disec (s : State) : exec .disec s = execDisec s := rfl

theorem exec_rstdaa (s : State) : exec .rstdaa s = execRstdaa s := rfl

theorem exec_entdaa (addr : Nat) (s : State) : exec (.entdaa addr) s = execEntdaa addr s := rfl

theorem exec_setdasa (addr : Nat) (s : State) : exec (.setdasa addr) s = execSetdasa addr s := rfl

theorem exec_getpid (s : State) : exec .getpid s = .next (answerCcc s pidBytes) := rfl

theorem exec_getbcr (s : State) : exec .getbcr s = .next (answerCcc s [bcrByte]) := rfl

theorem exec_getdcr (s : State) : exec .getdcr s = .next (answerCcc s [dcrByte]) := rfl

theorem exec_getstatus (s : State) : exec .getstatus s =
    .next (answerCcc { s with free := s.free + 1 } (leBytes 2 (Config.freeNat s.free))) := rfl

/-! Writes of register bytes (R924, R926, R931, R935) -/

theorem i3cPut_tempLow (s : State) (b : Byte) (held : Option Byte) : i3cPut s 0x84 b held = (s, some b) := rfl

theorem i3cPut_tempHigh (s : State) (b lo : Byte) :
    i3cPut s 0x85 b (some lo) = (setTempAlert s (lo.toNat + 256 * b.toNat), some lo) := rfl

theorem i3cPuts_cons (s : State) (held : Option Byte) (b : Byte) (bs : List Byte) : i3cPuts s held (b :: bs) =
    i3cPuts (modI3c (i3cPut s s.i3c.pointer.toNat b held).1 fun i => { i with pointer := i.pointer + 1#8 })
      (i3cPut s s.i3c.pointer.toNat b held).2 bs := rfl

section
variable {s : State} (hanswers : i3cAnswers s = true)
include hanswers

theorem privateWrite_of_answers (p : Byte) (bs : List Byte) :
    privateWrite s (p :: bs) = i3cPuts (modI3c s fun i => { i with pointer := p }) none bs := if_pos hanswers

/-- A write of byte 0x82 alone clears pending causes. -/
theorem privateWrite_pend (value : Byte) : privateWrite s [0x82#8, value] =
    modI3c (clearPend (modI3c s fun i => { i with pointer := 0x82#8 }) value) fun i => { i with pointer := i.pointer + 1#8 } :=
  privateWrite_of_answers hanswers _ _

/-- A write of byte 0x80 alone is the warm-reset order. -/
theorem privateWrite_warm (value : Byte) : privateWrite s [0x80#8, value] =
    modI3c (warmOrder (modI3c s fun i => { i with pointer := 0x80#8 }) value) fun i => { i with pointer := i.pointer + 1#8 } :=
  privateWrite_of_answers hanswers _ _

/-- A write of bytes 0x84 and 0x85 sets the threshold of its two bytes. -/
theorem privateWrite_tempAlert (lo hi : Byte) : privateWrite s [0x84#8, lo, hi] =
    modI3c s fun i => { i with pointer := 0x86#8, tempAlert := lo.toNat + 256 * hi.toNat, tempArmed := true } := by
  rw [privateWrite_of_answers hanswers, i3cPuts_cons]
  rw [show (modI3c s fun i => { i with pointer := 0x84#8 }).i3c.pointer.toNat = 0x84 from rfl, i3cPut_tempLow, i3cPuts_cons]
  rw [show (modI3c (modI3c s fun i => { i with pointer := 0x84#8 }) fun i => { i with pointer := i.pointer + 1#8 }).i3c.pointer.toNat
    = 0x85 from rfl, i3cPut_tempHigh]
  simp only [i3cPuts, modI3c, setTempAlert, BitVec.reduceAdd]

theorem answerCcc_of_answers (bytes : List Byte) : answerCcc s bytes = emit s (.i3c bytes) := if_pos hanswers

end

/-- A 16-bit value is its low byte and 256 times its high byte. -/
theorem toNat_of_bytes (value : BitVec 16) :
    (value.extractLsb' 0 8).toNat + 256 * (value.extractLsb' 8 8).toNat = value.toNat := by
  have hlt := value.isLt
  simp only [BitVec.extractLsb'_toNat, Nat.shiftRight_eq_div_pow]
  omega

theorem tempAlertWrite_of_answers {s : State} (hanswers : i3cAnswers s = true) (value : BitVec 16) :
    exec (.tempAlertWrite value) s =
      .next (modI3c s fun i => { i with pointer := 0x86#8, tempAlert := value.toNat, tempArmed := true }) := by
  rw [exec_tempAlertWrite, privateWrite_tempAlert hanswers, toNat_of_bytes]

/-- GETSTATUS answers two bytes of a free value. -/
theorem getstatus_of_answers {s : State} (hanswers : i3cAnswers s = true) : ∃ v bytes,
    exec .getstatus s = .next v ∧ bytes.length = 2 ∧ v = { emit s (.i3c bytes) with free := s.free + 1 } :=
  ⟨_, leBytes 2 (Config.freeNat s.free), exec_getstatus s, rfl,
    answerCcc_of_answers (s := { s with free := s.free + 1 }) hanswers _⟩

/-- Settles O59: a row is a write of its register bytes, or its meaning for a target that answers. -/
theorem i3cTransfersAct : Obligations.I3cTransfersAct := by
  refine ⟨?write, ?tempAlert, ?pend, ?warm, ?read, ?ibi, ?address, ?identity⟩
  case write =>
    intro s p bs t hanswers
    rw [exec_i3cPrivateWrite, privateWrite_of_answers hanswers]
  case tempAlert =>
    intro s hanswers value
    exact tempAlertWrite_of_answers hanswers value
  case pend =>
    intro s value t hanswers
    rw [exec_ibiPendClear, privateWrite_pend hanswers]
  case warm =>
    intro s value t hanswers
    rw [exec_i3cWarmResetOrder, privateWrite_warm hanswers]
  case read =>
    intro s len t u hanswers
    rw [exec_i3cPrivateRead, execI3cPrivateRead, if_pos hanswers]
  case ibi =>
    intro s b hrequest
    simp only [exec_ibiAccept, execIbiAccept, hrequest]
  case address =>
    intro s hserving
    refine ⟨?_, ?_, ?_, fun hnone addr => ⟨?_, ?_⟩⟩
    · rw [exec_enec, execEnec, if_pos hserving]
    · rw [exec_disec, execDisec, if_pos hserving]
    · rw [exec_rstdaa, execRstdaa, if_pos hserving]
    · simp only [exec_entdaa, execEntdaa, hserving, hnone, Option.isNone_none, Bool.and_self, if_true]
    · simp only [exec_setdasa, execSetdasa, hserving, hnone, Option.isNone_none, Bool.and_self, if_true]
  case identity =>
    intro s hanswers
    refine ⟨?_, ?_, ?_, getstatus_of_answers hanswers⟩
    · rw [exec_getpid, answerCcc_of_answers hanswers, pidBytes]
    · rw [exec_getbcr, answerCcc_of_answers hanswers, bcrByte]
    · rw [exec_getdcr, answerCcc_of_answers hanswers, dcrByte]

/-! The TAP rows, by their meanings -/

theorem exec_extest (captured levels : List Bool) (s : State) : exec (.extest captured levels) s = execExtest captured levels s := rfl

theorem exec_samplePreload (captured levels : List Bool) (s : State) : exec (.samplePreload captured levels) s =
    .next (modTap (scanOut (selectInstr s .samplePreload .system) captured) fun j => { j with boundary := levels }) := rfl

theorem exec_idcode (s : State) :
    exec .idcode s = .next (scanOut (selectInstr s .idcode .system) (scanBits 32 Config.idcode.toNat)) := rfl

theorem exec_bypass (s : State) : exec .bypass s = .next (bypassScan (selectInstr s .bypass .system)) := rfl

theorem exec_clamp (s : State) : exec .clamp s = .next (bypassScan (selectInstr s .clamp (ballsFor s .boundary))) := rfl

theorem exec_highz (s : State) : exec .highz s = .next (bypassScan (selectInstr s .highz (ballsFor s .highz))) := rfl

theorem exec_tapReset (s : State) :
    exec .tapReset s = .next (modTap (selectInstr s .idcode .system) fun j => { j with dapCtrl := 0#16 }) := rfl

theorem exec_dapAccess (s : State) : exec .dapAccess s = execDapAccess s := rfl

theorem exec_dapCtrl (value : BitVec 16) (s : State) : exec (.dapCtrl value) s = execDapCtrl value s := rfl

theorem exec_fuseRead (vpp : Bool) (s : State) : exec (.fuseRead vpp) s = execFuseRead vpp s := rfl

/-! Boundary scan (R896, R897) -/

/-- An instruction controls the balls only while RESET_N is low. -/
theorem ballsFor_eq (s : State) (b : BallControl) : ballsFor s b = if s.life.pins.resetN then .system else b := by
  unfold ballsFor tapMayDrive
  cases s.life.pins.resetN with
  | false => rfl
  | true => rfl

section
variable {s : State} (captured levels : List Bool)

theorem extest_of_low (hlow : s.life.pins.resetN = false) : exec (.extest captured levels) s =
    .next (modTap (scanOut (selectInstr s .extest .boundary) captured) fun j => { j with boundary := levels }) := by
  simp only [exec_extest, execExtest, tapMayDrive, hlow, Bool.not_false, if_true]

theorem extest_of_high (hhigh : s.life.pins.resetN = true) :
    exec (.extest captured levels) s = .next (bypassScan (selectInstr s .extest .system)) := by
  simp only [exec_extest, execExtest, tapMayDrive, hhigh, Bool.not_true, Bool.false_eq_true, if_false]

end

/-! The trace buffer and the start of a blow, with and without the lock (R899 to R901) -/

section
variable {s : State} (hopen : s.fuses.jtagLock = false)
include hopen

theorem dapAccess_of_empty (htrace : s.jtag.trace = []) :
    exec .dapAccess s = .next (scanOut (selectInstr s .dapAccess .system) (scanBits 128 0)) := by
  simp only [exec_dapAccess, execDapAccess, selectInstr, modTap, hopen, htrace, Bool.false_eq_true, if_false]

theorem dapAccess_of_record {r : TraceRec} {rest : List TraceRec} (htrace : s.jtag.trace = r :: rest) :
    exec .dapAccess s =
      .next (scanOut (modTap (selectInstr s .dapAccess .system) fun j => { j with trace := rest }) (traceBits r)) := by
  simp only [exec_dapAccess, execDapAccess, selectInstr, modTap, hopen, htrace, Bool.false_eq_true, if_false]

theorem dapCtrl_of_open (value : BitVec 16) : exec (.dapCtrl value) s =
    .next (modTap (scanOut (selectInstr s .dapCtrl .system) (scanBits 16 s.jtag.dapCtrl.toNat)) fun j =>
      { j with dapCtrl := value, trace := if value.getLsbD 9 then [] else j.trace }) :=
  congrArg Host.Outcome.next (if_neg (Bool.eq_false_iff.1 hopen))

theorem fuseProg_of_mayBlow {value : BitVec 8} (hlow : s.life.pins.resetN = false) (hidle : s.fuses.blowing = none)
    (hsome : (value.getLsbD 0 || value.getLsbD 1) = true) :
    exec (.fuseProg value true) s = .next { selectInstr s .fuseProg .system with
      fuses := { s.fuses with blowing := some (value.getLsbD 0, value.getLsbD 1) } } := by
  have hmay : mayBlow (selectInstr s .fuseProg .system) true = true := by
    simp only [mayBlow, tapMayDrive, selectInstr, modTap, hlow, hopen, hidle, Bool.not_false, Option.isNone_none, Bool.and_self]
  have hlock : (selectInstr s .fuseProg .system).fuses.jtagLock = false := hopen
  exact congrArg Host.Outcome.next ((if_neg (Bool.eq_false_iff.1 hlock)).trans (if_pos (Bool.and_eq_true_iff.2 ⟨hmay, hsome⟩)))

end

section
variable {s : State} (hlocked : s.fuses.jtagLock = true)
include hlocked

theorem dapAccess_of_locked : exec .dapAccess s = .next (bypassScan (selectInstr s .dapAccess .system)) :=
  congrArg Host.Outcome.next (if_pos hlocked)

theorem dapCtrl_of_locked (value : BitVec 16) :
    exec (.dapCtrl value) s = .next (bypassScan (selectInstr s .dapCtrl .system)) :=
  congrArg Host.Outcome.next (if_pos hlocked)

theorem fuseProg_of_locked (value : BitVec 8) (vpp : Bool) :
    exec (.fuseProg value vpp) s = .next (bypassScan (selectInstr s .fuseProg .system)) :=
  congrArg Host.Outcome.next (if_pos hlocked)

end

/-! The end of a blow (R899, Table 21-10) -/

/-- A fuse that was blown stays blown, so that to verify it adds nothing. -/
theorem blown_eq (blown sel verified : Bool) : (blown || (sel && (verified || blown))) = (blown || (sel && verified)) := by
  cases blown with
  | false => rw [Bool.or_false]
  | true => rfl

/-- A selected fuse fails where it neither verifies nor was blown before. -/
theorem progFails_eq (sel good : Bool) : (sel && !(sel && good)) = (sel && !good) := by
  cases sel with
  | false => rfl
  | true => rfl

theorem fuseBlowDone_of_blowing {s : State} {ecc lock : Bool} (verified : BitVec 2) (h : s.fuses.blowing = some (ecc, lock)) :
    exec (.fuseBlowDone verified) s = .next { s with fuses := {
      inlineEcc := s.fuses.inlineEcc || (ecc && verified.getLsbD 0)
      jtagLock := s.fuses.jtagLock || (lock && verified.getLsbD 1)
      progFail := (ecc && !(verified.getLsbD 0 || s.fuses.inlineEcc)) || (lock && !(verified.getLsbD 1 || s.fuses.jtagLock))
      blowing := none } } := by
  simp only [exec_fuseBlowDone, execFuseBlowDone, h, blown_eq, progFails_eq]

/-- Settles O60: each row by its meaning, with RESET_N low or high, and with the lock intact or blown. -/
theorem tapCommandsAct : Obligations.TapCommandsAct := by
  refine ⟨?boundary, ?registers, ?unlocked, ?locked, ?blown, ?read⟩
  case boundary =>
    intro s captured levels
    exact ⟨extest_of_low captured levels, extest_of_high captured levels, exec_samplePreload captured levels s⟩
  case registers =>
    intro s
    refine ⟨exec_idcode s, exec_bypass s, ?_, ?_, exec_tapReset s⟩
    · rw [exec_clamp, ballsFor_eq]
    · rw [exec_highz, ballsFor_eq]
  case unlocked =>
    intro s hopen
    exact ⟨dapAccess_of_empty hopen, fun r rest => dapAccess_of_record hopen, dapCtrl_of_open hopen,
      fun value hlow hidle hsome => fuseProg_of_mayBlow hopen hlow hidle hsome⟩
  case locked =>
    intro s value vpp hlocked
    exact ⟨dapAccess_of_locked hlocked, dapCtrl_of_locked hlocked value, fun w => fuseProg_of_locked hlocked w vpp⟩
  case blown =>
    intro s verified ecc lock hblowing
    exact fuseBlowDone_of_blowing verified hblowing
  case read => exact fun s vpp => exec_fuseRead vpp s

end Sys2Proof.Laws
end
